-- ==== Sys2Proof/Word.lean ====
section
/-!
DEFINITION. The word types of the JT4096 (spec/00_scope.md R7, R9, R13): 32-bit registers, bytes, the place of a register
field, and the row type of the register index.
-/
namespace Sys2Proof

/-- A 32-bit register or window word. -/
abbrev Word := BitVec 32

/-- One byte of a memory window. -/
abbrev Byte := BitVec 8

namespace Machine

/-- A register field: the register's address, the lowest bit and the width (R7, bit 0 least significant). -/
structure Field where
  addr  : Nat
  lo    : Nat
  width : Nat
  deriving DecidableEq, Repr

/-- Register access types of Table 0-4 (R9). -/
inductive Acc where
  | ro | rw | rws | w1c | wo
  deriving DecidableEq, Repr

/-- One field of a register row: place, access, reset value (R11) and the ranges its description states (R483); an empty
list of ranges means that every code of the field is in range. -/
structure FieldSpec where
  lo     : Nat
  width  : Nat
  acc    : Acc
  reset  : Nat
  ranges : List (Nat × Nat)
  deriving DecidableEq, Repr

/-- One row of the register index: base address, (stride, count) for each index, and the fields. -/
structure RegRow where
  base   : Nat
  dims   : List (Nat × Nat)
  fields : List FieldSpec
  deriving DecidableEq, Repr

/-- Sparse data by key, in one canonical form (keys strictly rising, no entry equal to the key's default). -/
abbrev Map (α : Type) := List (Nat × α)

end Machine
end Sys2Proof
end

