-- ==== Sys2Proof/Syntax.lean ====
section
/-!
DEFINITION. The commands of the JT4096: one constructor of `Instr` for each row of spec/opcode_table.json, with the operands
that come from outside the block (an address, a value, a length, a frame, a measured value), and the types of those operands.
The table gives its rows no fields, so the operands are this model's (DESIGN CHOICE, log entry 2): each is a value that the
row's rules take from outside (a pin, a bus, a rail, the flash, the drive, the network, the scene, a converter).
-/
namespace Sys2Proof

/-- What the flash answers in start-up step 4 (R35, R36): the SFDP signature, the reads and the quad-enable need that the Basic
Flash Parameter Table lists, its erase opcodes, and the two 32-byte slot headers (none: no answer). -/
structure FlashFacts where
  sfdp    : Bool
  has114  : Bool
  quadFree : Bool
  quadSet : Bool
  has112  : Bool
  has111  : Bool
  erase4k : Option Nat
  erase64k : Option Nat
  headA   : Option (List Byte)
  headB   : Option (List Byte)
  deriving DecidableEq, Repr

/-- SECDED errors that the keep-store recovery meets (R383): the 8-byte words of the shadow array that cannot be corrected, and
the number that can. -/
structure KeepFacts where
  uncorrectable : List Nat
  corrected     : Nat
  deriving DecidableEq, Repr

/-- The three VKEEP readings of the hold-up check (R422), in µV. -/
structure HoldupFacts where
  v0 : Nat
  v1 : Nat
  v2 : Nat
  deriving DecidableEq, Repr

/-- One record of a Vrelut image as it was read from flash (Table 2-3); `answered` is false for a flash read failure. -/
structure ImageRecord where
  answered : Bool
  type     : Nat
  attr     : Nat
  plen     : Nat
  payload  : List Byte
  rcrc     : Nat
  deriving DecidableEq, Repr

/-- How a management-port frame begins (R344, R348): the 64 bits of its header, numbered as Table 13-3 numbers them, its header CRC, and the
number of busy bytes for which the JT4096 would not be ready to reply. -/
structure FrameHeader where
  bits : BitVec 64
  hcrc : BitVec 16
  busy : Nat
  deriving DecidableEq, Repr

/-- What a READ meets outside the registers: the levels applied to MP0–MP7 and PPS_IN (R464), and the 8-byte words of the keep-store and
sheaf-store windows (by address / 8) that show a correctable (false) or uncorrectable (true) SECDED error (R383, R455). -/
structure ReadEnv where
  mp     : Nat
  ppsIn  : Bool
  secded : List (Nat × Bool)
  deriving DecidableEq, Repr

/-- What the flash answered to a finished operation (R362, R364). -/
inductive FlashResult where
  /-- The bytes of a read, of a status read, or of the verify read of a program; an erase that is over brings none. -/
  | ok (bytes : List Byte)
  /-- The write-enable latch is not set after 0x06. -/
  | noWriteEnable
  deriving DecidableEq, Repr

/-- The facts of a received Ethernet frame that the checks of Table 12-2 look at. -/
structure RxFrame where
  fcsOk     : Bool
  length    : Nat
  dmac      : Nat
  smac      : Nat
  tag       : Option Nat
  etherType : Nat
  arpRequest : Bool
  arpTarget : Nat
  ipOk      : Bool
  srcIp     : Nat
  dstIp     : Nat
  proto     : Nat
  udpOk     : Bool
  srcPort   : Nat
  dstPort   : Nat
  jrVer     : Nat
  deriving DecidableEq, Repr

/-- A PTP Announce message (R335): the datasets that the standard comparison uses. -/
structure Announce where
  domain     : Nat
  source     : Nat
  priority1  : Nat
  clockClass : Nat
  accuracy   : Nat
  variance   : Nat
  priority2  : Nat
  identity   : Nat
  steps      : Nat
  logInterval : Int
  deriving DecidableEq, Repr

/-- A PTP Sync message: sender, sequenceId, two-step flag, origin time (ns), correction (ns), interval, and the device time at
which it was received (ns). -/
structure SyncMsg where
  domain  : Nat
  source  : Nat
  seqId   : Nat
  twoStep : Bool
  origin  : Int
  correction : Int
  logInterval : Int
  received : Int
  deriving DecidableEq, Repr

/-- A PTP Follow_Up message. -/
structure FollowMsg where
  domain  : Nat
  source  : Nat
  seqId   : Nat
  origin  : Int
  correction : Int
  deriving DecidableEq, Repr

/-- A PTP Delay_Resp message: whether it answers the JT4096's own request, the master's receive time, the interval it states. -/
structure RespMsg where
  domain  : Nat
  source  : Nat
  seqId   : Nat
  own     : Bool
  received : Int
  correction : Int
  logInterval : Int
  deriving DecidableEq, Repr

/-- What the PCIe root port finds on bus 1 as the link comes up (R304, R306): the topology (one endpoint, and nothing else), its function and
class, its payload capability, its AER status, and CAP.TO (units of 500 ms) and CAP.MQES of its controller. -/
structure Endpoint where
  single   : Bool
  function : Nat
  classCode : Nat
  payload  : Nat
  aer      : Nat
  capTo    : Nat
  mqes     : Nat
  deriving DecidableEq, Repr

/-- An AUX channel and the codes that its current sensor has converted (R264, R284). -/
structure ChannelSamples where
  channel : Nat
  codes   : List Nat
  deriving DecidableEq, Repr

/-- What the drive answered to NVMe commands (R300, R302, R303, R305, R306). -/
inductive NvmeAnswer where
  /-- Identify: namespace 1 present, LBA data size, metadata bytes, NVM command set offered, capacity in 4 KiB blocks. -/
  | identify (present : Bool) (lba metadata : Nat) (nvm : Bool) (blocks : Nat)
  /-- Set Features 0x07: I/O queue pairs granted. -/
  | queues (granted : Nat)
  /-- The 4 KiB of archive block 0. -/
  | label (bytes : List Byte)
  /-- The reads of the binary searches of R302, one answer for each entry or block that they probe, in the order in which they probe them. -/
  | search (probes : List (List Byte))
  /-- The oldest write of a channel is complete. -/
  | written (channel : Nat)
  /-- The oldest other command that is outstanding is complete. -/
  | done
  deriving DecidableEq, Repr

/-- A group frame on a lane of the sensor link (R86): whether it arrived, and its 576 payload bits, numbered as Table 3-9 numbers them. -/
structure LinkFrame where
  arrived : Bool
  bits    : BitVec 576
  deriving DecidableEq, Repr

/-- An uncorrectable SECDED error met in the sheaf store (R202): slot, byte offset of the word, and which copies fail. -/
structure EccFact where
  slot  : Nat
  word  : Nat
  copy0 : Bool
  copy1 : Bool
  deriving DecidableEq, Repr

/-- One instruction of an engine as it happens (R221, R232, R205): the engine, the ticks that pass, whether the fetched copy, both copies
or the data word give an uncorrectable SECDED error, whether the engine faults (residue, parity, scratch), and the box pixels
(line, column) whose image word is uncorrectable. -/
structure EngStep where
  engine  : Nat
  w       : Nat
  copyBad : Bool
  bothBad : Bool
  dataBad : Bool
  fault   : Bool
  imgBad  : List (Nat × Nat)
  deriving DecidableEq, Repr

/-- The commands: one constructor per row of spec/opcode_table.json. -/
inductive Instr where

  /-- START_UP (R49): Power reaching the recommended conditions, or the release of RST_N, starts the start-up sequence of Table 2-8 at step 1. -/
  | startUp (f : FlashFacts) (k : KeepFacts) (h : HoldupFacts)
  /-- RST_N_PULSE (R59): A valid RST_N low pulse of at least 10 µs ends the run without a save sequence, and its release restarts start-up. -/
  | rstNPulse (ns : Nat)
  /-- PLL_LOCK (R425): The timebase PLL locks and device time starts counting from 0. -/
  | pllLock
  /-- IMAGE_RECORD_CHECK (R485): A complete image record that has been read from flash is checked for length, type, RCRC and content. -/
  | imageRecordCheck (r : ImageRecord)
  /-- COMMIT (R49): At the later of 240 ms and image acceptance, every loaded value takes effect and line 0 starts. -/
  | commit
  /-- LSYNC_START_TIMEOUT (R56): If no LSYNC pulse arrives within LOST × P after commit, the JT4096 starts line 0 itself and sets LSYNC_LOST. -/
  | lsyncStartTimeout
  /-- SETTLING_EVALUATION (R170): Once per second the settling rate is formed, and the thermal-settling flag clears when the rate falls below RATE. -/
  | settlingEvaluation
  /-- RELOAD (R59): CFG_CTRL RELOAD stops admission and waits for every record slot of staging to be freed. -/
  | cfgReload (slot : Nat)
  /-- RELOAD_DRAINED (R59): When every staging slot is free, a CLEAN mark entry is stored and the JT4096 restarts at step 1. -/
  | reloadDrained
  /-- RELOAD_TIMEOUT (R59): When slots are still held 10 s after the last release, a SAVE mark entry is stored and the JT4096 restarts. -/
  | reloadTimeout
  /-- CFG_OWNERSHIP_WRITE (R44): A write to CFG_PINn, CFG_TMRn or CFG_AUX1 changes the owner of that resource, subject to conflict checks. -/
  | cfgOwnershipWrite (addr value : Nat)
  /-- PFI_N_RECOGNISED (R416): PFI_N held asserted for 2 µs starts the save sequence. -/
  | pfiNRecognised (mv : Nat)
  /-- VKEEP_LOW_RECOGNISED (R416): VKEEP below 10.5 V for 10 µs starts the save sequence. -/
  | vkeepLowRecognised (mv : Nat)
  /-- SAVE_BULK_STORE_COMMIT (R417): The save bulk store commits the counter set, the SAVE mark entry and pending host pages, and HELD is set. -/
  | saveBulkStoreCommit (w mv : Nat)
  /-- HELD_EXIT (R420): After PFI_N is released and VKIN has stayed valid for 100 ms, the charge switch closes and the JT4096 restarts. -/
  | heldExit
  /-- VKEEP_COLLAPSE (R420): VKEEP below 7.5 V resets the always-on domain and loses any bulk store that has not committed. -/
  | vkeepCollapse
  /-- LINE_BOUNDARY (R427): A line period elapses and a new line starts, carrying every change that is tied to the boundary. -/
  | lineBoundary
  /-- LSYNC_PULSE (R428): An LSYNC pulse starts one line, at once or after the previous boundary plus P when the pulse is early. -/
  | lsyncPulse (w : Nat)
  /-- LSYNC_LOST (R428): When no pending pulse starts a line within LOST × P, the JT4096 starts the line itself and free-runs. -/
  | lsyncLost
  /-- FTACH_PULSE (R432): An FTACH edge is time-stamped and counted in the pulse accumulator. -/
  | ftachPulse (w : Nat)
  /-- PPS_IN_EDGE (R338): A PPS_IN rising edge is time-stamped and, with SOURCE 1, steers the servo. -/
  | ppsInEdge (w : Nat)
  /-- PPS_OUT_PULSE (R339): At each whole second of device time the PPS_OUT pin rises for WIDTH_MS. -/
  | ppsOutPulse
  /-- ROW_SLOT (R62): A row slot starts: the row is biased, integrated and converted, and the group frames are released onto the link. -/
  | rowSlot
  /-- GROUP_FRAME_RECEIVED (R87): A group frame arrives on a lane; its CRC and header are checked, and a bad data frame is rebuilt from parity. -/
  | groupFrameReceived (lane : Nat) (f : LinkFrame)
  /-- BLOCK_LOCK_LOST (R88): A lane that loses block lock is declared failed. -/
  | blockLockLost (lane : Nat)
  /-- FURROW_SUBSTITUTE (R82): An RDO_CMD substitute command puts the group spare on a furrow's column at the next boundary. -/
  | furrowSubstitute (group furrow : Nat)
  /-- FURROW_RESTORE (R82): An RDO_CMD restore command returns the spare to idle and the original furrow to its column. -/
  | furrowRestore (group furrow : Nat)
  /-- RDO_CLR_COUNTERS (R68): RDO_CMD CLR_COUNTERS clears RDO_LINK_ERR and RDO_SAT_COUNT. -/
  | rdoClrCounters
  /-- BIAS_WRITE (R65): A write to RDO_BIAS sets the row bias, and is REFUSED while admission is active. -/
  | biasWrite (value : Nat)
  /-- THERM_STALE (R72): A thermometer without a reading for 1 s is marked failed for staleness. -/
  | thermStale (k : Nat)
  /-- PIXEL_ISSUE (R108): When its raw code and headland mean are present, a pixel is issued to the next free working lane. -/
  | pixelIssue
  /-- LANE_RESULT (R109): A lane completes correction of a pixel through stage 6 and lag inversion. -/
  | laneResult (lane w transit : Nat) (mismatch : Bool) (err : Int)
  /-- LANE_STALL (R111): A lane that holds a pixel for 1 µs without output is declared failed, and the pixel is recomputed. -/
  | laneStall (lane : Nat)
  /-- BANK_SWAP (R105): COR_CMD BANK_SWAP requests a coefficient bank swap at the next line boundary. -/
  | bankSwap
  /-- TABLE_SWAP (R106): COR_CMD TABLE_SWAP requests a swap of the radiometric table copies at the next line boundary. -/
  | tableSwap
  /-- COR_CLR_COUNTERS (R110): COR_CMD CLR_COUNTERS clears the correction counters. -/
  | corClrCounters
  /-- COEFFICIENT_WINDOW_WRITE (R104): A write to the coefficient-store window goes to the standby bank, or is REFUSED for the active bank. -/
  | coefficientWindowWrite (addr : Nat) (words : List (BitVec 32))
  /-- LAG_TABLE_BUILT (R120): A lag gain table finishes building in the standby copy and comes into use at the next line boundary. -/
  | lagTableBuilt
  /-- FIELD_LINE_COMPLETE (R130): After the last corrected pixel of a line, nominal walk completes field line n in the ring. -/
  | fieldLineComplete (w : Nat) (ecc : List EccFact)
  /-- SHEAF_IMAGE_COMPLETE (R138): A sealed sheaf's image is complete, and the sheaf is queued with a slot binding. -/
  | sheafImageComplete (w slot : Nat)
  /-- AGGREGATE_RECORD (R196): After a millisecond in which candidates were refused, one aggregate record is issued. -/
  | aggregateRecord
  /-- INTERVAL_REQUEST (R146): MAX_INTERVAL seconds after the last accepted event, a shutter event is requested. -/
  | intervalRequest
  /-- CAL_EVENT_REQUEST (R146): CAL_CMD EVENT requests a shutter event. -/
  | calEventRequest
  /-- CANCEL (R147): CAL_CMD CANCEL clears a pending request that is still waiting for its gap. -/
  | calCancel
  /-- RUN (R172): CAL_CMD RUN starts the named Crocus script. -/
  | calRun (script : Nat)
  /-- CAL_CLR_COUNTERS (R153): CAL_CMD CLR_COUNTERS clears CAL_COUNTS, CAL_BLIND_LINES and CAL_GLEAN_UPDATES. -/
  | calClrCounters
  /-- SHUTTER_SCRIPT_START (R147): A pending request starts the shutter script once no script runs. -/
  | shutterScriptStart
  /-- CAL_GAP_TIMEOUT (R151): After GAP_TIMEOUT without a quiet view, CAL_GAP_TIMEOUT is emitted and the wait goes on. -/
  | calGapTimeout
  /-- END (R171): The Crocus END instruction ends the script with its exit code, after the closure steps. -/
  | crocusEnd (code : Nat)
  /-- WAIT (R171): The Crocus WAIT instruction waits a number of line boundaries. -/
  | crocusWait (lines : Nat)
  /-- GAP (R149): The Crocus GAP instruction asserts FGAP_N and waits for a quiet view. -/
  | crocusGap
  /-- PLATE (R157): The Crocus PLATE instruction takes the standby bank and averages the plate view. -/
  | crocusPlate (lines : Nat)
  /-- CLOSE (R153): The Crocus CLOSE instruction runs the AUX0 close profile and begins the blind span. -/
  | crocusClose
  /-- SETTLE (R171): The Crocus SETTLE instruction waits for the settling lines. -/
  | crocusSettle (lines : Nat)
  /-- FLAG (R155): The Crocus FLAG instruction checks that the flag has closed and averages the flag view. -/
  | crocusFlag (lines : Nat)
  /-- OPEN (R171): The Crocus OPEN instruction runs the AUX0 open profile. -/
  | crocusOpen
  /-- RESUME (R154): The Crocus RESUME instruction makes a history discontinuity, ends the blind span and releases FGAP_N. -/
  | crocusResume
  /-- SOLVE (R158): The Crocus SOLVE instruction starts solving the offsets and gains of every pixel. -/
  | crocusSolve (sel : Nat)
  /-- SOLVE_COMPLETE (R164): The solve and the plausibility checks complete. -/
  | solveComplete
  /-- SWAP (R163): The Crocus SWAP instruction waits for the solve, then accepts the event with a swap or refuses it. -/
  | crocusSwap
  /-- TRIM_CAP (R174): The Crocus TRIM_CAP instruction searches the capacitor sets of each furrow. -/
  | crocusTrimCap
  /-- TRIM_SKIM (R174): The Crocus TRIM_SKIM instruction searches the skim sources of each furrow. -/
  | crocusTrimSkim
  /-- TRIM_DAC (R175): The Crocus TRIM_DAC instruction runs a binary search of a DAC. -/
  | crocusTrimDac (dac : Nat)
  /-- JUMP_IF (R171): The Crocus JUMP_IF instruction branches on a condition. -/
  | crocusJumpIf (cond target : Nat)
  /-- EVENT (R171): The Crocus EVENT instruction emits CAL_SCRIPT with its code. -/
  | crocusEvent (code : Nat)
  /-- SCRIPT_LINES_DONE (R171): The line count of a running script step expires, and the script continues. -/
  | scriptLinesDone (biasMv : Nat)
  /-- FLAG_OPEN_RETRY (R155): While the flag is stuck closed, the open profile is repeated every 100 ms. -/
  | flagOpenRetry
  /-- QUAL_TIMEOUT (R169): QUAL_TIMEOUT after a swap, the quality figure is computed with PARTIAL. -/
  | qualTimeout
  /-- TRIM_WRITE (R176): A host write to CAL_DAC or CAL_FTRIM sets a trim, and is REFUSED while admission is active. -/
  | trimWrite (addr value : Nat)
  /-- SCRIPT_WRITE (R171): A write to the script memory stores script words, and is REFUSED for a running script. -/
  | scriptWrite (addr value : Nat)
  /-- ENGINE_ACCEPT (R229): A free working engine accepts the queued sheaf with the earliest deadline and starts its run. -/
  | engineAccept (w : Nat) (ecc : List EccFact)
  /-- ADD (R213): The Aster ADD instruction adds two registers with saturation. -/
  | asterAdd (x : EngStep) (d a b : Nat)
  /-- SUB (R213): The Aster SUB instruction subtracts two registers with saturation. -/
  | asterSub (x : EngStep) (d a b : Nat)
  /-- MUL (R213): The Aster MUL instruction multiplies two registers with saturation. -/
  | asterMul (x : EngStep) (d a b : Nat)
  /-- MULS (R213): The Aster MULS instruction multiplies and shifts with rounding. -/
  | asterMuls (x : EngStep) (d a b fn : Nat)
  /-- DIV (R213): The Aster DIV instruction divides with rounding half to even. -/
  | asterDiv (x : EngStep) (d a b : Nat)
  /-- AND (R213): The Aster AND instruction forms a bitwise AND. -/
  | asterAnd (x : EngStep) (d a b : Nat)
  /-- OR (R213): The Aster OR instruction forms a bitwise OR. -/
  | asterOr (x : EngStep) (d a b : Nat)
  /-- XOR (R213): The Aster XOR instruction forms a bitwise XOR. -/
  | asterXor (x : EngStep) (d a b : Nat)
  /-- MIN (R213): The Aster MIN instruction takes the minimum of two registers. -/
  | asterMin (x : EngStep) (d a b : Nat)
  /-- MAX (R213): The Aster MAX instruction takes the maximum of two registers. -/
  | asterMax (x : EngStep) (d a b : Nat)
  /-- ABS (R213): The Aster ABS instruction takes the absolute value with saturation. -/
  | asterAbs (x : EngStep) (d a : Nat)
  /-- SQRT (R213): The Aster SQRT instruction takes the rounded square root. -/
  | asterSqrt (x : EngStep) (d a : Nat)
  /-- SLT (R213): The Aster SLT instruction sets 1 if a is less than b. -/
  | asterSlt (x : EngStep) (d a b : Nat)
  /-- SHL (R213): The Aster SHL instruction shifts left with saturation. -/
  | asterShl (x : EngStep) (d a b : Nat)
  /-- SRA (R213): The Aster SRA instruction shifts right arithmetically with rounding. -/
  | asterSra (x : EngStep) (d a b : Nat)
  /-- ADDI (R213): The Aster ADDI instruction adds an immediate. -/
  | asterAddi (x : EngStep) (d a imm : Nat)
  /-- LI (R213): The Aster LI instruction loads an immediate. -/
  | asterLi (x : EngStep) (d imm : Nat)
  /-- LIH (R213): The Aster LIH instruction loads the upper half of a register. -/
  | asterLih (x : EngStep) (d imm : Nat)
  /-- ANDI (R213): The Aster ANDI instruction ANDs with a zero-extended immediate. -/
  | asterAndi (x : EngStep) (d a imm : Nat)
  /-- SLTI (R213): The Aster SLTI instruction compares with an immediate. -/
  | asterSlti (x : EngStep) (d a imm : Nat)
  /-- SHLI (R213): The Aster SHLI instruction shifts left by an immediate. -/
  | asterShli (x : EngStep) (d a imm : Nat)
  /-- SRAI (R213): The Aster SRAI instruction shifts right by an immediate. -/
  | asterSrai (x : EngStep) (d a imm : Nat)
  /-- LDW (R214): The Aster LDW instruction loads a word from the data region. -/
  | asterLdw (x : EngStep) (d a imm : Nat)
  /-- LDH (R214): The Aster LDH instruction loads a sign-extended halfword from the data region. -/
  | asterLdh (x : EngStep) (d a imm : Nat)
  /-- LDS (R213): The Aster LDS instruction loads a scratch word. -/
  | asterLds (x : EngStep) (d a imm : Nat)
  /-- STS (R213): The Aster STS instruction stores a scratch word. -/
  | asterSts (x : EngStep) (d a imm : Nat)
  /-- WIN (R215): The Aster WIN instruction sets the window lines or columns. -/
  | asterWin (x : EngStep) (a b fn : Nat)
  /-- PIX (R215): The Aster PIX instruction reads one sheaf pixel and sets or clears M. -/
  | asterPix (x : EngStep) (d a b : Nat)
  /-- RED (R216): The Aster RED instruction computes a reduction over the window. -/
  | asterRed (x : EngStep) (d a mode : Nat)
  /-- HIST (R217): The Aster HIST instruction builds a histogram of the window in scratch. -/
  | asterHist (x : EngStep) (a b : Nat)
  /-- BR (R213): The Aster BR instruction branches on a condition. -/
  | asterBr (x : EngStep) (cond a b target : Nat)
  /-- FEAT (R213): The Aster FEAT instruction sets a feature word. -/
  | asterFeat (x : EngStep) (k a : Nat)
  /-- VERD (R231): The Aster VERD instruction ends the run, and the outcome with its disposition is written. -/
  | asterVerd (x : EngStep) (verdict a sel cls : Nat)
  /-- DEADLINE_PASSED (R230): A sheaf's deadline passes, and it ends with status DEADLINE and the default disposition. -/
  | deadlinePassed (slot : Nat)
  /-- ENGINE_STALL (R232): An engine that completes no instruction for 2 µs faults and is declared failed. -/
  | engineStall (e : Nat)
  /-- ENGINE_SELFTEST (R232): Every 100 ms an idle engine runs its built-in self-test. -/
  | engineSelftest (e w : Nat) (pass : Bool)
  /-- ENGINE_RESTORE (R233): AST_CMD RESTORE powers a failed engine and self-tests it. -/
  | engineRestore (e : Nat) (pass : Bool)
  /-- AST_CLR_COUNTERS (R234): AST_CMD CLR_COUNTERS clears the Aster counters. -/
  | astClrCounters
  /-- SLOT_PROG_WRITE (R224): A write to AST_SLOTn_PROG with LEN above 0 checks the program before the write enters the pending set. -/
  | slotProgWrite (n value : Nat)
  /-- ASTER_MEMORY_WRITE (R220): A host write to Aster memory stores program or data words, and is REFUSED for a locked area. -/
  | asterMemoryWrite (addr : Nat) (words : List (BitVec 32))
  /-- PULL_IN_REQUEST (R250): At an entry's requested gate time the pull-in asks for a boost place, its column and reservoir energy. -/
  | pullInRequest (v : Nat)
  /-- PULL_IN_START (R251): A waiting pull-in starts at the first tick at which all three conditions hold, and the valve gates on in BOOST. -/
  | pullInStart (v w : Nat)
  /-- DEFERRAL_LIMIT (R252): A pull-in still waiting at its gate plus DEFER_US starts under the fallbacks of Table 9-2. -/
  | deferralLimit (v : Nat) (arrive : Bool)
  /-- VBOOST_STALE (R253): With no VBOOST result newer than 100 ms, E_EST is held at 0 and VBOOST_STALE is set. -/
  | vboostStale
  /-- DRL_CLR_COUNTERS (R247): DRL_CMD CLR_COUNTERS clears the drill counters. -/
  | drlClrCounters
  /-- PEAK_REACHED (R269): The coil current reaches PEAK_MA, and the valve enters HOLD. -/
  | peakReached (v w blank : Nat) (codes : List Nat)
  /-- PEAK_TIMEOUT (R268): BOOST_MAX elapses without peak, and the valve enters HOLD with the fault counted. -/
  | peakTimeout (v blank : Nat) (codes : List Nat)
  /-- CHOP_PERIOD (R269): A chopping period starts with LSC asserted and ends at HOLD_MA or at 95 % of the period. -/
  | chopPeriod (c w : Nat) (codes : List Nat)
  /-- DIP_FOUND (R272): The dip of the boost current completes, MOVE is measured, and LEAD is updated. -/
  | dipFound (v w first : Nat) (codes : List Nat)
  /-- OPEN_LOAD_CHECK (R280): At OPEN_US after the gate, the column current is checked for VALVE_OPEN. -/
  | openLoadCheck (v : Nat) (codes : Nat × Nat) (gsn : Nat)
  /-- ACTUATION_END (R270): At the planned end LSC is released, I_OFF and t_rel are fixed, and the valve enters DECAY. -/
  | actuationEnd (v blank : Nat) (codes : List Nat)
  /-- VALVE_RELEASED (R268): t_rel elapses, the valve returns to IDLE, and its plan may close. -/
  | valveReleased (v : Nat)
  /-- VALVE_FAULT (R280): A fault condition seen on two consecutive sense samples disables the part, as Table 10-7 states. -/
  | valveFault (w code index : Nat) (codes : Nat × Nat)
  /-- IDLE_SCAN (R279): After SCAN_IDLE with no valve energised, the idle scan checks the groups and columns in their off state. -/
  | idleScan (w : Nat) (gsn : List (Nat × Nat)) (cols : List Nat)
  /-- VALVE_ENABLE (R282): VLV_CMD ENABLE clears the disabled state of a valve, column, group or AUX channel. -/
  | valveEnable (target index code : Nat)
  /-- MATRIX_RESUME (R281): VLV_CMD RESUME clears STOPPED, and the matrix is enabled again under R51. -/
  | matrixResume
  /-- VLV_CLR_COUNTERS (R272): VLV_CMD action 3 clears the counters from VLV_DIP_FOUND to VLV_SHARE_EXT. -/
  | vlvClrCounters
  /-- ARM_ASSERT (R51): ARM is asserted, and the matrix is enabled at the next line boundary at which R51 holds. -/
  | armAssert
  /-- ARM_DEASSERT (R283): Deasserting ARM stops new gates, and the matrix disables once the running actuations decay. -/
  | armDeassert
  /-- AUX_COMMAND (R284): A VLV_AUX_CMD write runs an AUX profile, and is REFUSED under R285. -/
  | auxCommand (value : Nat)
  /-- AUX_DURATION_END (R284): DURATION_MS elapses, and the AUX channel enters DECAY. -/
  | auxDurationEnd (x : ChannelSamples)
  /-- RECORD_RELEASE (R198): A DONE sheaf whose lower numbers are all released is assembled into a record, takes an RPOS and is staged. -/
  | recordRelease (w : Nat) (ecc : List EccFact)
  /-- REC_FLUSH_TIMEOUT (R303): REC_FLUSH_US after its first record, a partial record block is written with FUA. -/
  | recFlushTimeout
  /-- NVME_COMMAND_COMPLETE (R303): An NVMe command completes, committing the archive data and freeing staging slots. -/
  | nvmeCommandComplete (a : NvmeAnswer)
  /-- NVME_TIMEOUT (R307): An NVMe command not completed within CMD_MS fails the drive. -/
  | nvmeTimeout
  /-- PCIE_LINK_LOSS (R307): Loss of the PCIe link fails the drive. -/
  | pcieLinkLoss
  /-- DRIVE_RETRY (R307): 1 s after a drive failure, bring-up restarts, up to RETRIES times. -/
  | driveRetry
  /-- PCIE_LINK_UP (R306): The PCIe link comes up and BAR0 is assigned. -/
  | pcieLinkUp (gen width : Nat) (e : Endpoint)
  /-- CONTROLLER_READY (R306): CSTS.RDY is seen and the admin commands set up the I/O queues. -/
  | controllerReady
  /-- SMART_POLL (R307): Every 60 s the SMART log is read, and a changed critical warning emits DRIVE_WARN. -/
  | smartPoll (warning used kelvin : Nat)
  /-- FORMAT (R300): NVH_CMD FORMAT writes the label and deallocates every region. -/
  | nvhFormat
  /-- RESTART (R307): NVH_CMD RESTART restarts drive bring-up. -/
  | nvhRestart
  /-- NVH_CLR_COUNTERS (R297): NVH_CMD CLR_COUNTERS clears NVH_SKIPPED and NVH_DROPS. -/
  | nvhClrCounters
  /-- START (R310): DMA_CHn_CTRL START starts a maintenance transfer, or queues it behind a running one. -/
  | dmaStart (n : Nat)
  /-- PAUSE (R313): DMA_CHn_CTRL PAUSE stops a channel from issuing new reads. -/
  | dmaPause (n units : Nat) (rd : List (BitVec 8))
  /-- CHANNEL_RESUME (R313): DMA_CHn_CTRL RESUME continues a paused or halted channel. -/
  | channelResume (n : Nat)
  /-- ABORT (R313): DMA_CHn_CTRL ABORT ends a maintenance transfer after the unit in flight. -/
  | dmaAbort (n units : Nat) (rd : List (BitVec 8))
  /-- CHANNEL_COMPLETE (R312): A channel's last write leaves the engine or is committed, and its DMA_IRQ bit is set. -/
  | channelComplete (n : Nat) (rd : List (BitVec 8))
  /-- BUS_ERROR (R314): A bus error is retried, and halts the channel if it persists. -/
  | busError (n code units : Nat) (rd : List (BitVec 8))
  /-- DATA_CHANNEL_HANDOVER (R315): At a device-time millisecond boundary a data channel takes its pending shadow set. -/
  | dataChannelHandover (n : Nat)
  /-- DMA_IRQ_CLEAR (R312): A W1C write to DMA_IRQ clears channel completion bits. -/
  | dmaIrqClear (mask : Nat)
  /-- ARP_REQUEST (R320): An ARP request for ETH_IP is answered on the same port. -/
  | arpRequest (p : Nat) (f : RxFrame)
  /-- RECORD_ACK (R328): An acknowledgement packet advances ACKED, or triggers a resend when it carries NACK. -/
  | recordAck (p : Nat) (f : RxFrame) (seq : Nat) (nack : Bool)
  /-- FRAME_DROPPED (R320): A received frame that fails a receive check is dropped and counted. -/
  | frameDropped (p : Nat) (f : RxFrame)
  /-- ANNOUNCE (R335): A PTP Announce message takes part in master selection. -/
  | ptpAnnounce (p : Nat) (f : RxFrame) (m : Announce)
  /-- SYNC (R336): A PTP Sync from the selected master drives the servo's offset, frequency and state. -/
  | ptpSync (p : Nat) (f : RxFrame) (m : SyncMsg)
  /-- FOLLOW_UP (R335): A PTP Follow_Up completes a two-step Sync. -/
  | ptpFollowUp (p : Nat) (f : RxFrame) (m : FollowMsg)
  /-- DELAY_RESP (R335): A PTP Delay_Resp to the JT4096's own Delay_Req measures the path delay. -/
  | ptpDelayResp (p : Nat) (f : RxFrame) (m : RespMsg)
  /-- DELAY_REQ (R335): At the stated interval the JT4096 sends a Delay_Req. -/
  | ptpDelayReq
  /-- PTP_HOLDOVER (R336): With no Sync for 4 Sync intervals, the servo holds its frequency and enters HOLDOVER. -/
  | ptpHoldover
  /-- HOLDOVER_EXPIRY (R336): After HOLDOVER_S, the servo returns to FREE. -/
  | holdoverExpiry
  /-- PORT_LINK_CHANGE (R319): A port gains or loses LINK with its PCS. -/
  | portLinkChange (p : Nat) (link localFault remoteFault hiBer : Bool) (corrected uncorrected : Nat)
  /-- PORT_READY (R319): After LINK has held for 10 ms, the port becomes READY. -/
  | portReady (p : Nat)
  /-- PORT_CTRL_WRITE (R319): A write to ETH_Pp_CTRL restarts that port's link. -/
  | portCtrlWrite (p value : Nat)
  /-- STREAM_ASSIGN (R324): A write to ETH_Ss_CTRL assigns a stream to a port, subject to the port rules. -/
  | streamAssign (st value : Nat)
  /-- PORT_RETAIN (R404): After 1 s with no signal, a port enters RETAIN. -/
  | portRetain (p : Nat)
  /-- PORT_WAKE (R404): Signal at a retained port's lane returns it to ON. -/
  | portWake (p : Nat)
  /-- RECORD_PACKET_SEND (R327): A record packet is sent when it holds PER_PKT records or SEND_US after its first record. -/
  | recordPacketSend
  /-- RETRANSMIT_TIMEOUT (R329): With ACKED unchanged for RTO_MS, the record stream resends from ACKED. -/
  | retransmitTimeout
  /-- KEEPALIVE (R330): After 100 ms without a record, a keepalive packet is sent. -/
  | keepalive
  /-- RECORD_FAILOVER (R331): After FAILOVER_MS without READY, or ACK_DEAD_MS of silence, the record stream moves to its backup port. -/
  | recordFailover
  /-- RETURN (R331): ETH_CMD RETURN moves the record stream back to its configured port. -/
  | ethReturn
  /-- ETH_CLR_COUNTERS (R320): ETH_CMD CLR_COUNTERS clears the Ethernet counters. -/
  | ethClrCounters
  /-- LINE_PACKET_SEND (R325): The packets of a completed field line are formed and sent on the line stream. -/
  | linePacketSend
  /-- EVENT_PACKET_SEND (R334): An event packet is sent at most 1 ms after its first event. -/
  | eventPacketSend
  /-- NOP (R346): A NOP frame returns only status. -/
  | frameNop (h : FrameHeader)
  /-- READ (R356): A READ frame returns LEN + 1 words from its address. -/
  | frameRead (h : FrameHeader) (env : ReadEnv)
  /-- WRITE (R357): A WRITE frame applies its words at SEL_N rise when counted and CRC-good. -/
  | frameWrite (h : FrameHeader) (words : List (BitVec 32)) (dcrc : BitVec 16) (heldToStart : Bool)
  /-- SYNC_FRAME (R354): A SYNC frame sets the alive expectation to any. -/
  | frameSync (h : FrameHeader)
  /-- INVALID_HEADER (R347): A frame with an invalid header executes nothing and is counted in BAD_HEADER. -/
  | invalidHeader
  /-- MASTER_COLLISION (R360): SEL_N falling while the JT4096 masters the flash abandons the flash transfer. -/
  | masterCollision
  /-- FLASH_TRANSFER_RESUME (R361): 10 µs after SEL_N rises, the abandoned flash transfer resumes from the last confirmed address. -/
  | flashTransferResume
  /-- FLASH_READ (R362): MPT_FL_CMD OP 1 reads flash bytes into the buffer. -/
  | flashRead (lenM1 : Nat)
  /-- FLASH_PROGRAM (R362): MPT_FL_CMD OP 2 programs buffer bytes into the flash, then verifies them. -/
  | flashProgram (lenM1 : Nat)
  /-- FLASH_ERASE_4K (R362): MPT_FL_CMD OP 3 erases 4 KiB of flash. -/
  | flashErase4k
  /-- FLASH_ERASE_64K (R362): MPT_FL_CMD OP 4 erases 64 KiB of flash. -/
  | flashErase64k
  /-- FLASH_READ_STATUS (R362): MPT_FL_CMD OP 5 reads the flash status register into SR. -/
  | flashReadStatus
  /-- FLASH_STATUS_POLL (R362): Every 10 µs during a program or erase, the flash status is polled. -/
  | flashStatusPoll (sr : Nat)
  /-- FLASH_OP_DONE (R364): A flash operation ends, with DONE and ERR set. -/
  | flashOpDone (r : FlashResult)
  /-- FLASH_OP_TIMEOUT (R364): The timeout of a flash operation expires, and it ends with ERR 1. -/
  | flashOpTimeout
  /-- ALERT_CLEAR (R365): A W1C write to MPT_ALERT clears alert sources, and ALERT_N is released. -/
  | alertClear (mask : Nat)
  /-- MPT_CLR_COUNTERS (R349): MPT_CMD CLR_COUNTERS clears MPT_ERRORS and MPT_COLLIDE. -/
  | mptClrCounters
  /-- KEEP_PAGE_WRITE (R372): A WRITE frame to the host region prepares one page and starts a page store. -/
  | keepPageWrite (addr : Nat) (words : List (BitVec 32))
  /-- STORE_COMMIT (R368): A keep-store store writes its commit mark, and its pages read their new values. -/
  | storeCommit
  /-- STORE_COMPLETE (R368): A store finishes writing the shadow array, and the next pending store starts. -/
  | storeComplete
  /-- COUNT_PERIOD_STORE (R379): Every COUNT_PERIOD a counter-set store starts. -/
  | countPeriodStore
  /-- STORE (R379): KEP_CMD STORE starts a counter-set store. -/
  | keepStore
  /-- COUNTER_INCREMENT (R377): KEP_CMD action 2 increments a host counter. -/
  | counterIncrement (idx : Nat)
  /-- COUNTER_CLEAR (R377): KEP_CMD action 3 clears a valve or host counter. -/
  | counterClear (idx : Nat)
  /-- KEP_CLR_ERRORS (R383): KEP_CMD CLR_ERRORS clears KEP_ERRORS, KEP_ERR_PAGE and UNCORR. -/
  | kepClrErrors
  /-- OPERATION_MINUTE (R377): Each minute of operation after step 6 adds one to G5. -/
  | operationMinute
  /-- HKC_PASS_START (R394): After PASS_GAP, a new housekeeping pass starts and takes the pending sequence set. -/
  | hkcPassStart
  /-- HKC_ENTRY_DONE (R386): A housekeeping entry's conversion ends, and its scaled result is written and takes effect. -/
  | hkcEntryDone (code : Int) (ovr : Bool)
  /-- SELF_CAL (R392): HKC_CMD SELF_CAL calibrates one gain in an offset phase and a gain phase. -/
  | selfCal (gain : Nat)
  /-- EXC_CAL (R391): HKC_CMD EXC_CAL measures each excitation current in use. -/
  | excCal
  /-- CAL_PHASE_DONE (R392): A self-calibration or excitation phase completes, and its factor is written. -/
  | calPhaseDone (factor : Nat)
  /-- VCORE_EVALUATION (R402): Every 1 ms the headroom H is formed and the VID code may change. -/
  | vcoreEvaluation (lanes : List Nat) (walk : Int) (engines : List Nat)
  /-- TEMP_SENSOR_CONVERT (R406): Every 100 µs each ring-oscillator sensor is converted, and a broken sensor is found. -/
  | tempSensorConvert (cs : List (Bool × Int))
  /-- BALLAST_UPDATE (R409): Every 100 µs each held region's ballast is set to SET_MW minus its work. -/
  | ballastUpdate (works : List Nat)
  /-- THROTTLE_EVALUATION (R412): Every 1 ms E_used and the throttle stage levels are updated. -/
  | throttleEvaluation (mv : Nat)
  /-- THERMAL_TRIP_RESTART (R415): After every region has stayed below T_TRIP − 20 K for 10 s, the JT4096 restarts. -/
  | thermalTripRestart
  /-- HOLDUP_CHECK (R422): PWR_CMD HOLDUP_CHECK measures the hold-up capacitor's C and ESR. -/
  | holdupCheck
  /-- HOLDUP_CHECK_DONE (R422): The hold-up check completes, and LOW is set when the capacitor fails. -/
  | holdupCheckDone (h : HoldupFacts)
  /-- READOUT_RESET (R446): RST_FUNC bit 0 resets the link receiver and the reference checks. -/
  | readoutReset
  /-- CORRECTION_RESET (R446): RST_FUNC bit 1 resets the correction lanes and the issue buffer. -/
  | correctionReset
  /-- WALK_RESET (R446): RST_FUNC bit 2 resets the lag state and the row history. -/
  | walkReset
  /-- DETECTION_RESET (R446): RST_FUNC bit 3 resets detection, and open sheaves seal with RESET. -/
  | detectionReset
  /-- ASTER_RESET (R445): RST_FUNC bit 4 resets the engines, and QUEUED and JUDGING sheaves are queued again. -/
  | asterReset
  /-- DRILL_RESET (R446): RST_FUNC bit 5 resets the drill, and entries not yet gated are requested again. -/
  | drillReset
  /-- VALVE_RESET (R446): RST_FUNC bit 6 resets matrix timing, and running actuations enter DECAY. -/
  | valveReset
  /-- RECORD_RESET (R446): RST_FUNC bit 7 resets record assembly, and DONE sheaves are assembled again. -/
  | recordReset
  /-- ARCHIVE_RESET (R446): RST_FUNC bit 8 resets the archive engine. -/
  | archiveReset
  /-- NVME_RESET (R446): RST_FUNC bit 9 resets the NVMe host and restarts bring-up. -/
  | nvmeReset
  /-- ETHERNET_RESET (R446): RST_FUNC bit 10 restarts every port and stream. -/
  | ethernetReset
  /-- PTP_RESET (R446): RST_FUNC bit 11 returns the servo to FREE with its frequency held. -/
  | ptpReset
  /-- HKC_RESET (R446): RST_FUNC bit 12 restarts the housekeeping sequence at entry 0. -/
  | hkcReset
  /-- CALIBRATION_RESET (R446): RST_FUNC bit 13 ends the running script with exit code 0x85. -/
  | calibrationReset
  /-- WATCHDOG_EXPIRY (R448): A function's watchdog expires, and the function is reset if its RST_AUTO bit is set. -/
  | watchdogExpiry (f : Nat)
  /-- FUNC_RESET_DONE (R444): A function reset completes its drain, reinitialisation, resynchronisation and replay. -/
  | funcResetDone (f : Nat)
  /-- RST_CLR_COUNTERS (R443): RST_CMD CLR_COUNTERS clears the reset counters. -/
  | rstClrCounters
  /-- TBS_CLR_COUNTERS (R428): TBS_CMD CLR_COUNTERS clears TBS_LSYNC. -/
  | tbsClrCounters
  /-- TBS_FLAGS_CLEAR (R432): A W1C write to TBS_FLAGS clears the overrun and lost flags. -/
  | tbsFlagsClear (mask : Nat)
  /-- TRK_CLR_COUNTERS (R194): TRK_CMD CLR_COUNTERS clears the tracking counters. -/
  | trkClrCounters
  /-- WALK_CLR_COUNTERS (R140): COR_WALK_CMD CLR_COUNTERS clears the lag and walk counters. -/
  | walkClrCounters
  /-- CONTROLLER_FATAL (R307): The drive setting CSTS.CFS makes the drive failed, emits DRIVE_FAILED and starts the retry of bring-up. -/
  | controllerFatal
  /-- CAP_TO_EXPIRY (R306): CAP.TO, at most 30 s, elapses without CSTS.RDY, and the wait for the controller ends. -/
  | capToExpiry
  /-- BLOCK_LOCK_GAINED (R92): A sensor-link lane being retrained after a READOUT reset gains block lock, which starts its count of 1,024 good idle frames. -/
  | blockLockGained (lane : Nat)
  /-- VKIN_CHARGE_THRESHOLD (R399): VKIN crossing 11.0 V closes or opens the charge switch that feeds VKEEP. -/
  | vkinChargeThreshold (above : Bool)
  deriving DecidableEq, Repr

end Sys2Proof
end

