-- ==== Sys2Proof/Decode.lean ====
section
/-!
DEFINITION. The words of spec/opcode_table.json. The table gives its rows no bits: a command is an access, an event or a pin, and no word
spells one, so that nothing decodes. The header of a management-port frame is taken apart here. (The instruction words of Aster programs and Crocus scripts are taken apart in Machine/Operands.lean.)
-/
namespace Sys2Proof

/-- The command that a word of `nbits` bits spells by the table's bits: none. -/
def decodeTableWord (_nbits _w : Nat) : Option Instr := none

/-! ### The header of a frame (Table 13-3) -/

def FrameHeader.opcode (h : FrameHeader) : Nat := (h.bits.extractLsb' 60 4).toNat
def FrameHeader.alive (h : FrameHeader) : Nat := (h.bits.extractLsb' 56 4).toNat
def FrameHeader.width (h : FrameHeader) : Nat := (h.bits.extractLsb' 54 2).toNat
def FrameHeader.reserved (h : FrameHeader) : Nat := (h.bits.extractLsb' 48 6).toNat
def FrameHeader.addr (h : FrameHeader) : Nat := (h.bits.extractLsb' 16 32).toNat
def FrameHeader.len (h : FrameHeader) : Nat := (h.bits.extractLsb' 0 16).toNat

end Sys2Proof
end

