-- ==== Sys2Proof/Machine/Num.lean ====
section
/-!
DEFINITION. Exact arithmetic with one rounding at the end: round half to even (R15), saturation (R16), exact square roots,
the exponential and logarithm of the lag, heat and decay models, the CRCs of R38, R86 and R345, and byte order (R8).
-/
namespace Sys2Proof.Machine

/-- Round n / d half to even, for d above 0 (R15). -/
def rhe (n d : Int) : Int :=
  let q := n / d
  let r := n % d
  if 2 * r < d then q
  else if d < 2 * r then q + 1
  else if q % 2 = 0 then q else q + 1

/-- Round a quotient half to even for a divisor of either sign; 0 for a zero divisor (callers exclude it). -/
def rheS (n d : Int) : Int :=
  if 0 < d then rhe n d else if d < 0 then rhe (-n) (-d) else 0

/-- Round a rational half to even (R15). -/
def rheQ (q : Rat) : Int := rhe q.num q.den

/-- Saturate to a closed interval (R16). -/
def clampI (lo hi x : Int) : Int := if x < lo then lo else if hi < x then hi else x

def satS32 (x : Int) : Int := clampI (-2147483648) 2147483647 x
def satU32 (x : Int) : Int := clampI 0 4294967295 x
def satS16 (x : Int) : Int := clampI (-32768) 32767 x
def satU16 (x : Int) : Int := clampI 0 65535 x

/-- Whether a saturation to s32 changes the value. -/
def clipsS32 (x : Int) : Bool := decide (satS32 x ≠ x)

/-- A word read as two's complement. -/
def sInt (w : Word) : Int := w.toInt

/-- A two's-complement word from an integer already in range. -/
def ofS (x : Int) : Word := BitVec.ofInt 32 x

/-- T16 of a K32 value (R13). -/
def t16 (k : Int) : Nat := (satU16 (rhe (k + 40000000) 5000)).toNat

/-- K32 of a T16 code (R126). -/
def k32OfT16 (c : Nat) : Int := 5000 * (c : Int) - 40000000

/-- S16 of a K32 value against a background (R13). -/
def s16 (k b : Int) : Int := satS16 (rhe (k - b) 2000)

/-- Ceiling division of naturals; 0 for a zero divisor. -/
def ceilDiv (n d : Nat) : Nat := if d = 0 then 0 else (n + d - 1) / d

/-- Integer square root by bits, from bit b down. -/
def isqrtAux (n : Nat) : Nat → Nat → Nat
  | 0, r => r
  | b + 1, r =>
    let t := r + 2 ^ b
    if t * t ≤ n then isqrtAux n b t else isqrtAux n b r

/-- The floor of the square root. -/
def isqrt (n : Nat) : Nat := isqrtAux n (n.log2 / 2 + 1) 0

/-- Round the square root of n / d half to even, exactly: a tie needs 4 n = d (2 r + 1)². -/
def rheSqrt (n d : Nat) : Nat :=
  let r := isqrt (n / d)
  let l := 4 * n
  let m := d * ((2 * r + 1) * (2 * r + 1))
  if l < m then r else if m < l then r + 1 else if r % 2 = 0 then r else r + 1

/-- sqrt a ≥ x, exactly. -/
def sqrtGe (a x : Rat) : Bool := decide (x ≤ 0) || decide (x * x ≤ a)

/-- Step an estimate of the rounding of sqrt a − b to the exact one (each step moves by one towards it). -/
def rheSqrtFix (a b : Rat) : Nat → Int → Int
  | 0, n => n
  | k + 1, n =>
    if sqrtGe a (b + n + 1 / 2) && !decide (a = (b + n + 1 / 2) * (b + n + 1 / 2) ∧ n % 2 = 0) then rheSqrtFix a b k (n + 1)
    else if !sqrtGe a (b + n - 1 / 2) then rheSqrtFix a b k (n - 1)
    else if a = (b + n - 1 / 2) * (b + n - 1 / 2) ∧ 0 ≤ b + n - 1 / 2 ∧ n % 2 ≠ 0 then n - 1
    else n

/-- sqrt a − b rounded half to even, for a ≥ 0, with one rounding of the exact value. -/
def rheSqrtSub (a b : Rat) : Int :=
  let est : Int := ((isqrt (a.num.toNat * 2 ^ 128 / a.den) : Nat) : Int)
  rheSqrtFix a b 4 (rheQ ((est : Rat) / (2 ^ 64 : Nat) - b))

/-- Fixed-point unit of the exponential: 2⁻⁹⁶. DEDUCED, log entry 6: the exact value is irrational; it is computed to this
precision and rounded once. -/
def fixOne : Int := 2 ^ 96

/-- Taylor sum of exp y for small fixed-point y: k terms left, term number i. -/
def expTaylor (y : Int) : Nat → Nat → Int → Int → Int
  | 0, _, _, acc => acc
  | k + 1, i, term, acc =>
    let t := term * y / (fixOne * (i : Int))
    expTaylor y k (i + 1) t (acc + t)

/-- Square a fixed-point number k times. -/
def fixSquare : Nat → Int → Int
  | 0, x => x
  | k + 1, x => fixSquare k (x * x / fixOne)

/-- exp (−x) for x ≥ 0 as a fixed-point number of unit 2⁻⁹⁶ (0 beyond x = 128). -/
def expNeg (x : Rat) : Int :=
  if 128 ≤ x then 0
  else
    let y : Int := -((x.num * fixOne) / ((x.den : Int) * 256))
    fixSquare 8 (expTaylor y 24 1 fixOne fixOne)

/-- atanh series: sum of z^(2i+1)/(2i+1). -/
def atanhSum (z2 : Int) : Nat → Nat → Int → Int → Int
  | 0, _, _, acc => acc
  | k + 1, i, p, acc => atanhSum z2 k (i + 2) (p * z2 / fixOne) (acc + p / (i : Int))

/-- ln 2 in units of 2⁻⁹⁶, by the same series at 2. -/
def ln2Fix : Int :=
  let z := fixOne / 3
  2 * atanhSum (z * z / fixOne) 40 1 z 0

/-- ln (n / d) for n ≥ d > 0 in units of 2⁻⁹⁶. -/
def lnFix (n d : Nat) : Int :=
  let e := (n / d).log2
  let m : Int := ((n : Int) * fixOne) / ((d : Int) * 2 ^ e)
  let z := (m - fixOne) * fixOne / (m + fixOne)
  (e : Int) * ln2Fix + 2 * atanhSum (z * z / fixOne) 80 1 z 0

/-- ceil (k · ln (n / d)) for n > d > 0 (R270). -/
def ceilLn (k n d : Nat) : Nat := (((k : Int) * lnFix n d + fixOne - 1) / fixOne).toNat

/-- One bit of a reflected CRC-32. -/
def crcBits (poly : BitVec 32) : Nat → BitVec 32 → BitVec 32
  | 0, c => c
  | k + 1, c => crcBits poly k (if c.getLsbD 0 then (c >>> 1) ^^^ poly else c >>> 1)

/-- Running CRC-32 of R38 over bytes (reflected polynomial 0xEDB8_8320), without initial value and final XOR. -/
def crc32Run : BitVec 32 → List Byte → BitVec 32
  | c, [] => c
  | c, b :: bs => crc32Run (crcBits 0xEDB88320 8 (c ^^^ b.setWidth 32)) bs

/-- CRC-32 of R38. -/
def crc32 (bs : List Byte) : Word := crc32Run 0xFFFFFFFF bs ^^^ 0xFFFFFFFF

/-- Running CRC-32C of R86 over bytes (polynomial 0x1EDC_6F41, reflected 0x82F6_3B78), without initial value and final XOR. -/
def crc32cRun : BitVec 32 → List Byte → BitVec 32
  | c, [] => c
  | c, b :: bs => crc32cRun (crcBits 0x82F63B78 8 (c ^^^ b.setWidth 32)) bs

/-- CRC-32C of R86. -/
def crc32c (bs : List Byte) : Word := crc32cRun 0xFFFFFFFF bs ^^^ 0xFFFFFFFF

/-- One bit of CRC-16/CCITT-FALSE. -/
def crc16Bits : Nat → BitVec 16 → BitVec 16
  | 0, c => c
  | k + 1, c => crc16Bits k (if c.getLsbD 15 then (c <<< 1) ^^^ 0x1021 else c <<< 1)

/-- CRC-16/CCITT-FALSE of R345. -/
def crc16 : BitVec 16 → List Byte → BitVec 16
  | c, [] => c
  | c, b :: bs => crc16 (crc16Bits 8 (c ^^^ (b.setWidth 16 <<< 8))) bs

/-- The n little-endian bytes of a number (R8). -/
def leBytes : Nat → Nat → List Byte
  | 0, _ => []
  | n + 1, x => BitVec.ofNat 8 x :: leBytes n (x / 256)

/-- The n big-endian bytes of a number (R323, R342). -/
def beBytes (n x : Nat) : List Byte := (leBytes n x).reverse

/-- A number from little-endian bytes. -/
def leNat : List Byte → Nat
  | [] => 0
  | b :: bs => b.toNat + 256 * leNat bs

/-- Bits [lo + w − 1 : lo] of a natural number. -/
def bits (x lo w : Nat) : Nat := x / 2 ^ lo % 2 ^ w

/-- Bit k of a natural number. -/
def bit (x k : Nat) : Bool := decide (x / 2 ^ k % 2 = 1)

/-- Set or clear bit k. -/
def setBit (x k : Nat) (b : Bool) : Nat :=
  if bit x k = b then x else if b then x + 2 ^ k else x - 2 ^ k

/-- Bitwise OR of 16-bit flag words held as numbers. -/
def orFlags (a b : Nat) : Nat := a ||| b

/-- The number of set bits among the low n. -/
def popCount (x : Nat) : Nat → Nat
  | 0 => 0
  | n + 1 => (if bit x n then 1 else 0) + popCount x n

/-- The median of a list of integers in ascending order: the mean of the two middle values, exact, for an even number. -/
def medianSorted (l : List Int) : Rat :=
  let n := l.length
  if n = 0 then 0
  else if n % 2 = 1 then (l.getD (n / 2) 0 : Int)
  else ((l.getD (n / 2 - 1) 0 + l.getD (n / 2) 0 : Int) : Rat) / 2

/-- Insertion into an ascending list. -/
def insertAsc (x : Int) : List Int → List Int
  | [] => [x]
  | y :: ys => if x ≤ y then x :: y :: ys else y :: insertAsc x ys

/-- Ascending order. -/
def sortAsc (l : List Int) : List Int := l.foldr insertAsc []

/-- The sum of a list of integers. -/
def sumI (l : List Int) : Int := l.foldr (· + ·) 0

/-- The largest of a list of naturals, 0 when empty. -/
def maxN (l : List Nat) : Nat := l.foldr Nat.max 0

end Sys2Proof.Machine
end

