-- ==== Sys2Proof/Config.lean ====
section
/-!
DEFINITION. What a part fixes or the manual leaves open: constants with no body, so that no proof can see their value. A
statement about a free value holds for every value of it.
-/
namespace Sys2Proof.Config

/-- GEN_UID of the part (R462, per part). -/
opaque uid : BitVec 64
/-- GEN_VERSION PROC_STEP (Table 19-5, per part). -/
opaque procStep : BitVec 8
/-- GEN_VERSION SENSOR_STEP (Table 19-5, per part). -/
opaque sensorStep : BitVec 8
/-- GEN_VERSION GRADE: true for JT4096-IB (Table 19-5, per part). -/
opaque gradeIB : Bool
/-- The built-in start code of the bias DAC (Table 6-18, per part). -/
opaque biasStart : BitVec 12
/-- The built-in start code of the skim-reference DAC (Table 6-18, per part). -/
opaque skimStart : BitVec 12
/-- How many events the event buffers of R296 hold (the manual gives only the 32 KiB they share with descriptors). -/
opaque eventCapacity : Nat
/-- What the ballast sources of a region can dissipate, mW (R409). -/
opaque ballastMax : Nat → Nat
/-- By how much the stage-5 level is raised while VID_AT_MAX is set, in 1/256 (R402). -/
opaque stage5Raise : Nat
/-- The frequency correction that the servo forms (ppb) from its last one and the measured offset and interval (R336). -/
opaque servoFreq : Int → Int → Int → Int
/-- OVERLAP_PCT of R255 and R274: the manual names it and gives no register or value for it. -/
opaque overlapPct : Nat
/-- The I²t (A²·µs) that the drill expects of an actuation (R256), from the profile's PEAK_MA and HOLD_MA, the last measured boost
duration in µs and the on time in ns: the manual names what it is formed from, not how. -/
opaque expectedI2t : Nat → Nat → Nat → Nat → Nat
/-- Whether the measured bias, the headland codes over the skim reference, and a headland code over its own DAC rise with the code
(R175: the binary search needs the direction, which the manual does not give). -/
opaque biasRises : Bool
opaque skimRises : Bool
opaque headRises : Bool
/-- The internal tap ratios of sources 17 to 20, in units of 2⁻¹⁶ (R390 names the ratio and gives no value). -/
opaque tapRatio : Nat → Nat
/-- Whether the Pt1000 result below 0 °C is the lower of the two integers within 1 µK of the solution (R389), by R / R0 − 1. -/
opaque pt1000Low : Rat → Bool
/-- Whether the word of an image block that holds a pixel (field line, column) is uncorrectable when it is read (R205), by the number of
free values drawn before. -/
opaque imageBad : Nat → Nat → Nat → Bool
/-- The SECDED error that a read of the archive engine meets in the 8-byte word of a window (its address / 8): none, a correctable one (false)
or an uncorrectable one (true), by the number of free values drawn before. -/
opaque readError : Nat → Nat → Option Bool
/-- A value the manual leaves open, by the number of free values drawn before it. -/
opaque freeValue : Nat → BitVec 32

end Sys2Proof.Config
end

