-- ==== Sys2Proof/Machine/Map.lean ====
section
/-!
DEFINITION. Sparse maps in one canonical form: keys strictly rising, and no entry that equals what an unlisted key reads as.
Every sparse part of the state (registers, windows, pixel data) is such a list, so equal contents are equal data.
-/
namespace Sys2Proof.Machine

/-- The entry listed for a key. -/
def Map.find {α : Type} : Map α → Nat → Option α
  | [], _ => none
  | (j, v) :: m, k => if j = k then some v else Map.find m k

/-- What a key reads as: its entry, or the default of the key. -/
def Map.read {α : Type} (d : Nat → α) (m : Map α) (k : Nat) : α := (Map.find m k).getD (d k)

/-- Remove a key. -/
def Map.erase {α : Type} : Map α → Nat → Map α
  | [], _ => []
  | (j, v) :: m, k => if j = k then Map.erase m k else (j, v) :: Map.erase m k

/-- Put an entry at its place in the rising order. -/
def Map.insert {α : Type} : Map α → Nat → α → Map α
  | [], k, w => [(k, w)]
  | (j, v) :: m, k, w =>
    if k < j then (k, w) :: (j, v) :: m
    else if k = j then (k, w) :: m
    else (j, v) :: Map.insert m k w

/-- Write a key, keeping the canonical form. -/
def Map.write {α : Type} [DecidableEq α] (d : Nat → α) (m : Map α) (k : Nat) (v : α) : Map α :=
  if v = d k then Map.erase m k else Map.insert m k v

/-- Keys strictly rising from a lower bound. -/
def Map.rising {α : Type} : Map α → Nat → Bool
  | [], _ => true
  | (j, _) :: m, b => decide (b ≤ j) && Map.rising m (j + 1)

/-- The canonical form. -/
def Map.wf {α : Type} [DecidableEq α] (d : Nat → α) (m : Map α) : Bool :=
  Map.rising m 0 && m.all (fun e => decide (e.2 ≠ d e.1))

/-- Keep the entries whose key passes a test. -/
def Map.keep {α : Type} (p : Nat → Bool) (m : Map α) : Map α := m.filter (fun e => p e.1)

end Sys2Proof.Machine
end

