-- ==== Sys2Proof/Machine/RegMap.lean ====
section
/-!
DEFINITION. The register map of spec/19_register_map.md (Tables 19-1 and 19-9, R453, R465) and the field tables of every
chapter: one `Field` constant per register field, one `RegRow` per row of the index, with each field's access type (R9),
reset value and stated range (R483). Written from the field tables of spec/. A field name that the manual repeats inside one
register keeps the register's name in front of it.
-/
namespace Sys2Proof.Machine

/-! ### Field constants -/
namespace Reg
/-- The address of GEN_ID (Table 19-9). -/
def GEN_ID : Nat := 0x0
def GEN_ID_ID : Field := ⟨GEN_ID, 0, 32⟩
/-- The address of GEN_VERSION (Table 19-9). -/
def GEN_VERSION : Nat := 0x4
def GEN_VERSION_PROC_STEP : Field := ⟨GEN_VERSION, 0, 8⟩
def GEN_VERSION_SENSOR_STEP : Field := ⟨GEN_VERSION, 8, 8⟩
def GEN_VERSION_GRADE : Field := ⟨GEN_VERSION, 16, 2⟩
def GEN_VERSION_MAP : Field := ⟨GEN_VERSION, 24, 4⟩
/-- The address of GEN_UID_LO (Table 19-9). -/
def GEN_UID_LO : Nat := 0x8
def GEN_UID_LO_UID : Field := ⟨GEN_UID_LO, 0, 32⟩
/-- The address of GEN_UID_HI (Table 19-9). -/
def GEN_UID_HI : Nat := 0xC
def GEN_UID_HI_UID : Field := ⟨GEN_UID_HI, 0, 32⟩
/-- The address of GEN_STATUS (Table 19-9). -/
def GEN_STATUS : Nat := 0x10
def GEN_STATUS_CONFIGURED : Field := ⟨GEN_STATUS, 0, 1⟩
def GEN_STATUS_PHASE : Field := ⟨GEN_STATUS, 1, 4⟩
def GEN_STATUS_ADMITTING : Field := ⟨GEN_STATUS, 5, 1⟩
def GEN_STATUS_VALVES_ON : Field := ⟨GEN_STATUS, 6, 1⟩
def GEN_STATUS_SETTLING : Field := ⟨GEN_STATUS, 7, 1⟩
def GEN_STATUS_CAL_STALE : Field := ⟨GEN_STATUS, 8, 1⟩
def GEN_STATUS_DEGRADED : Field := ⟨GEN_STATUS, 9, 1⟩
def GEN_STATUS_THROTTLING : Field := ⟨GEN_STATUS, 10, 1⟩
def GEN_STATUS_FSLOW : Field := ⟨GEN_STATUS, 11, 1⟩
def GEN_STATUS_SYNCED : Field := ⟨GEN_STATUS, 12, 1⟩
def GEN_STATUS_NVME_READY : Field := ⟨GEN_STATUS, 13, 1⟩
def GEN_STATUS_FAILED_OVER : Field := ⟨GEN_STATUS, 14, 1⟩
def GEN_STATUS_ALERT : Field := ⟨GEN_STATUS, 15, 1⟩
def GEN_STATUS_HOLDUP_LOW : Field := ⟨GEN_STATUS, 16, 1⟩
def GEN_STATUS_RESET_BUSY : Field := ⟨GEN_STATUS, 17, 1⟩
def GEN_STATUS_STORE_BUSY : Field := ⟨GEN_STATUS, 18, 1⟩
def GEN_STATUS_ID_BAD : Field := ⟨GEN_STATUS, 19, 1⟩
def GEN_STATUS_MATRIX_STOPPED : Field := ⟨GEN_STATUS, 20, 1⟩
/-- The address of GEN_PINS (Table 19-9). -/
def GEN_PINS : Nat := 0x14
def GEN_PINS_MP : Field := ⟨GEN_PINS, 0, 8⟩
def GEN_PINS_ARM : Field := ⟨GEN_PINS, 8, 1⟩
def GEN_PINS_PFI : Field := ⟨GEN_PINS, 9, 1⟩
def GEN_PINS_PPS_IN : Field := ⟨GEN_PINS, 10, 1⟩
/-- The address of GEN_EPOS_LO (Table 19-9). -/
def GEN_EPOS_LO : Nat := 0x18
def GEN_EPOS_LO_EPOS : Field := ⟨GEN_EPOS_LO, 0, 32⟩
/-- The address of GEN_EPOS_HI (Table 19-9). -/
def GEN_EPOS_HI : Nat := 0x1C
def GEN_EPOS_HI_EPOS : Field := ⟨GEN_EPOS_HI, 0, 32⟩
/-- The address of GEN_SCRATCH (Table 19-9). -/
def GEN_SCRATCH : Nat := 0x20
def GEN_SCRATCH_DATA : Field := ⟨GEN_SCRATCH, 0, 32⟩
/-- The address of PWR_STATUS (Table 19-9). -/
def PWR_STATUS : Nat := 0x10000
def PWR_STATUS_HOLDUP_LOW : Field := ⟨PWR_STATUS, 0, 1⟩
def PWR_STATUS_HELD : Field := ⟨PWR_STATUS, 1, 1⟩
def PWR_STATUS_THROTTLING : Field := ⟨PWR_STATUS, 2, 1⟩
def PWR_STATUS_FSLOW : Field := ⟨PWR_STATUS, 3, 1⟩
def PWR_STATUS_VID_AT_MAX : Field := ⟨PWR_STATUS, 4, 1⟩
def PWR_STATUS_PFI : Field := ⟨PWR_STATUS, 5, 1⟩
def PWR_STATUS_VKEEP_LOW : Field := ⟨PWR_STATUS, 6, 1⟩
def PWR_STATUS_BLIND : Field := ⟨PWR_STATUS, 7, 12⟩
/-- The address of PWR_CTRL (Table 19-9). -/
def PWR_CTRL : Nat := 0x10004
def PWR_CTRL_BALLAST_ON : Field := ⟨PWR_CTRL, 0, 1⟩
/-- The address of PWR_CMD (Table 19-9). -/
def PWR_CMD : Nat := 0x10008
def PWR_CMD_HOLDUP_CHECK : Field := ⟨PWR_CMD, 0, 1⟩
/-- The address of PWR_VID (Table 19-9). -/
def PWR_VID : Nat := 0x1000C
def PWR_VID_VID_MIN : Field := ⟨PWR_VID, 0, 5⟩
def PWR_VID_VID_MAX : Field := ⟨PWR_VID, 8, 5⟩
def PWR_VID_HR_LOW : Field := ⟨PWR_VID, 16, 8⟩
def PWR_VID_HR_HIGH : Field := ⟨PWR_VID, 24, 8⟩
/-- The address of PWR_VID_STATUS (Table 19-9). -/
def PWR_VID_STATUS : Nat := 0x10010
def PWR_VID_STATUS_CODE : Field := ⟨PWR_VID_STATUS, 0, 5⟩
def PWR_VID_STATUS_HEADROOM : Field := ⟨PWR_VID_STATUS, 8, 8⟩
def PWR_VID_STATUS_LIMITER : Field := ⟨PWR_VID_STATUS, 16, 2⟩
/-- The address of PWR_THROTTLE (Table 19-9). -/
def PWR_THROTTLE : Nat := 0x10014
def PWR_THROTTLE_T_THROTTLE : Field := ⟨PWR_THROTTLE, 0, 8⟩
def PWR_THROTTLE_SPAN14 : Field := ⟨PWR_THROTTLE, 8, 8⟩
def PWR_THROTTLE_SPAN5 : Field := ⟨PWR_THROTTLE, 16, 8⟩
def PWR_THROTTLE_STRETCH : Field := ⟨PWR_THROTTLE, 24, 4⟩
/-- The address of PWR_THROTTLE_STATUS (Table 19-9). -/
def PWR_THROTTLE_STATUS : Nat := 0x10018
def PWR_THROTTLE_STATUS_EXCESS : Field := ⟨PWR_THROTTLE_STATUS, 0, 16⟩
def PWR_THROTTLE_STATUS_HOTTEST : Field := ⟨PWR_THROTTLE_STATUS, 16, 4⟩
def PWR_THROTTLE_STATUS_STAGE : Field := ⟨PWR_THROTTLE_STATUS, 20, 3⟩
def PWR_THROTTLE_STATUS_LEVEL : Field := ⟨PWR_THROTTLE_STATUS, 23, 9⟩
/-- The address of PWR_TRIP (Table 19-9). -/
def PWR_TRIP : Nat := 0x1001C
def PWR_TRIP_T_TRIP : Field := ⟨PWR_TRIP, 0, 8⟩
def PWR_TRIP_BROKEN_EXCESS : Field := ⟨PWR_TRIP, 8, 8⟩
def PWR_TRIP_PAIR_TOL : Field := ⟨PWR_TRIP, 16, 8⟩
/-- The address of PWR_HOLDUP (Table 19-9). -/
def PWR_HOLDUP : Nat := 0x10020
def PWR_HOLDUP_C_UF : Field := ⟨PWR_HOLDUP, 0, 16⟩
def PWR_HOLDUP_ESR_MOHM : Field := ⟨PWR_HOLDUP, 16, 12⟩
def PWR_HOLDUP_CHECKED : Field := ⟨PWR_HOLDUP, 28, 1⟩
def PWR_HOLDUP_LOW : Field := ⟨PWR_HOLDUP, 29, 1⟩
/-- The address of PWR_SAVE_LAST (Table 19-9). -/
def PWR_SAVE_LAST : Nat := 0x10024
def PWR_SAVE_LAST_CAUSE : Field := ⟨PWR_SAVE_LAST, 0, 2⟩
def PWR_SAVE_LAST_DURATION : Field := ⟨PWR_SAVE_LAST, 4, 12⟩
def PWR_SAVE_LAST_ENERGY_UJ : Field := ⟨PWR_SAVE_LAST, 16, 16⟩
/-- The address of PWR_REGION (Table 19-9). -/
def PWR_REGION (i : Nat) : Nat := 0x10040 + 0x4 * i
def PWR_REGION_SET_MW (i : Nat) : Field := ⟨(PWR_REGION i), 0, 16⟩
/-- The address of PWR_TEMP (Table 19-9). -/
def PWR_TEMP (i : Nat) : Nat := 0x10080 + 0x4 * i
def PWR_TEMP_TEMP (i : Nat) : Field := ⟨(PWR_TEMP i), 0, 32⟩
/-- The address of PWR_LOAD (Table 19-9). -/
def PWR_LOAD (i : Nat) : Nat := 0x100C0 + 0x4 * i
def PWR_LOAD_WORK_MW (i : Nat) : Field := ⟨(PWR_LOAD i), 0, 16⟩
def PWR_LOAD_BALLAST_MW (i : Nat) : Field := ⟨(PWR_LOAD i), 16, 15⟩
def PWR_LOAD_OVER (i : Nat) : Field := ⟨(PWR_LOAD i), 31, 1⟩
/-- The address of PWR_SENSOR (Table 19-9). -/
def PWR_SENSOR (i : Nat) : Nat := 0x10100 + 0x4 * i
def PWR_SENSOR_TEMP (i : Nat) : Field := ⟨(PWR_SENSOR i), 0, 16⟩
def PWR_SENSOR_BROKEN (i : Nat) : Field := ⟨(PWR_SENSOR i), 16, 1⟩
def PWR_SENSOR_WHY (i : Nat) : Field := ⟨(PWR_SENSOR i), 17, 2⟩
/-- The address of PWR_DOM (Table 19-9). -/
def PWR_DOM (i : Nat) : Nat := 0x10200 + 0x4 * i
def PWR_DOM_STATE0 (i : Nat) : Field := ⟨(PWR_DOM i), 0, 2⟩
def PWR_DOM_STATE1 (i : Nat) : Field := ⟨(PWR_DOM i), 2, 2⟩
def PWR_DOM_STATE2 (i : Nat) : Field := ⟨(PWR_DOM i), 4, 2⟩
def PWR_DOM_STATE3 (i : Nat) : Field := ⟨(PWR_DOM i), 6, 2⟩
def PWR_DOM_STATE4 (i : Nat) : Field := ⟨(PWR_DOM i), 8, 2⟩
def PWR_DOM_STATE5 (i : Nat) : Field := ⟨(PWR_DOM i), 10, 2⟩
def PWR_DOM_STATE6 (i : Nat) : Field := ⟨(PWR_DOM i), 12, 2⟩
def PWR_DOM_STATE7 (i : Nat) : Field := ⟨(PWR_DOM i), 14, 2⟩
def PWR_DOM_STATE8 (i : Nat) : Field := ⟨(PWR_DOM i), 16, 2⟩
def PWR_DOM_STATE9 (i : Nat) : Field := ⟨(PWR_DOM i), 18, 2⟩
def PWR_DOM_STATE10 (i : Nat) : Field := ⟨(PWR_DOM i), 20, 2⟩
def PWR_DOM_STATE11 (i : Nat) : Field := ⟨(PWR_DOM i), 22, 2⟩
def PWR_DOM_STATE12 (i : Nat) : Field := ⟨(PWR_DOM i), 24, 2⟩
def PWR_DOM_STATE13 (i : Nat) : Field := ⟨(PWR_DOM i), 26, 2⟩
def PWR_DOM_STATE14 (i : Nat) : Field := ⟨(PWR_DOM i), 28, 2⟩
def PWR_DOM_STATE15 (i : Nat) : Field := ⟨(PWR_DOM i), 30, 2⟩
/-- The address of RST_STATUS (Table 19-9). -/
def RST_STATUS : Nat := 0x20000
def RST_STATUS_BUSY : Field := ⟨RST_STATUS, 0, 14⟩
def RST_STATUS_DEGRADED : Field := ⟨RST_STATUS, 14, 1⟩
/-- The address of RST_FUNC (Table 19-9). -/
def RST_FUNC : Nat := 0x20004
def RST_FUNC_RESET : Field := ⟨RST_FUNC, 0, 14⟩
/-- The address of RST_AUTO (Table 19-9). -/
def RST_AUTO : Nat := 0x20008
def RST_AUTO_AUTO_EN : Field := ⟨RST_AUTO, 0, 14⟩
/-- The address of RST_DEGRADED (Table 19-9). -/
def RST_DEGRADED : Nat := 0x2000C
def RST_DEGRADED_CLASS : Field := ⟨RST_DEGRADED, 0, 7⟩
/-- The address of RST_LAST (Table 19-9). -/
def RST_LAST : Nat := 0x20010
def RST_LAST_FUNC : Field := ⟨RST_LAST, 0, 4⟩
def RST_LAST_CAUSE : Field := ⟨RST_LAST, 4, 2⟩
def RST_LAST_REPLAYED : Field := ⟨RST_LAST, 16, 16⟩
/-- The address of RST_LAST_TIME_LO (Table 19-9). -/
def RST_LAST_TIME_LO : Nat := 0x20014
def RST_LAST_TIME_LO_TIME : Field := ⟨RST_LAST_TIME_LO, 0, 32⟩
/-- The address of RST_LAST_TIME_HI (Table 19-9). -/
def RST_LAST_TIME_HI : Nat := 0x20018
def RST_LAST_TIME_HI_TIME : Field := ⟨RST_LAST_TIME_HI, 0, 32⟩
/-- The address of RST_CMD (Table 19-9). -/
def RST_CMD : Nat := 0x2001C
def RST_CMD_CLR_COUNTERS : Field := ⟨RST_CMD, 0, 1⟩
/-- The address of RST_COUNT (Table 19-9). -/
def RST_COUNT (i : Nat) : Nat := 0x20040 + 0x4 * i
def RST_COUNT_HOST (i : Nat) : Field := ⟨(RST_COUNT i), 0, 16⟩
def RST_COUNT_WATCHDOG (i : Nat) : Field := ⟨(RST_COUNT i), 16, 16⟩
/-- The address of TBS_STATUS (Table 19-9). -/
def TBS_STATUS : Nat := 0x30000
def TBS_STATUS_PLL_LOCK : Field := ⟨TBS_STATUS, 0, 1⟩
def TBS_STATUS_EXT_SYNC : Field := ⟨TBS_STATUS, 1, 1⟩
def TBS_STATUS_LSYNC_LOST : Field := ⟨TBS_STATUS, 2, 1⟩
def TBS_STATUS_SET_PENDING : Field := ⟨TBS_STATUS, 3, 1⟩
def TBS_STATUS_LSYNC_PENDING : Field := ⟨TBS_STATUS, 4, 4⟩
def TBS_STATUS_PERIOD_NOW : Field := ⟨TBS_STATUS, 14, 18⟩
/-- The address of TBS_CTRL (Table 19-9). -/
def TBS_CTRL : Nat := 0x30004
def TBS_CTRL_SYNC : Field := ⟨TBS_CTRL, 0, 1⟩
def TBS_CTRL_LOST : Field := ⟨TBS_CTRL, 1, 4⟩
/-- The address of TBS_PERIOD (Table 19-9). -/
def TBS_PERIOD : Nat := 0x30008
def TBS_PERIOD_PERIOD : Field := ⟨TBS_PERIOD, 0, 18⟩
/-- The address of TBS_FLAGS (Table 19-9). -/
def TBS_FLAGS : Nat := 0x3000C
def TBS_FLAGS_OVR_PPS : Field := ⟨TBS_FLAGS, 0, 1⟩
def TBS_FLAGS_OVR_LSYNC : Field := ⟨TBS_FLAGS, 1, 1⟩
def TBS_FLAGS_OVR_FTACH : Field := ⟨TBS_FLAGS, 2, 1⟩
def TBS_FLAGS_LOST_SEEN : Field := ⟨TBS_FLAGS, 3, 1⟩
/-- The address of TBS_TIME_LO (Table 19-9). -/
def TBS_TIME_LO : Nat := 0x30010
def TBS_TIME_LO_TIME : Field := ⟨TBS_TIME_LO, 0, 32⟩
/-- The address of TBS_TIME_HI (Table 19-9). -/
def TBS_TIME_HI : Nat := 0x30014
def TBS_TIME_HI_TIME : Field := ⟨TBS_TIME_HI, 0, 32⟩
/-- The address of TBS_LINE_LO (Table 19-9). -/
def TBS_LINE_LO : Nat := 0x30018
def TBS_LINE_LO_LINE : Field := ⟨TBS_LINE_LO, 0, 32⟩
/-- The address of TBS_LINE_HI (Table 19-9). -/
def TBS_LINE_HI : Nat := 0x3001C
def TBS_LINE_HI_LINE : Field := ⟨TBS_LINE_HI, 0, 32⟩
/-- The address of TBS_LSYNC (Table 19-9). -/
def TBS_LSYNC : Nat := 0x30020
def TBS_LSYNC_EARLY : Field := ⟨TBS_LSYNC, 0, 16⟩
def TBS_LSYNC_LOST_COUNT : Field := ⟨TBS_LSYNC, 16, 16⟩
/-- The address of TBS_FTACH (Table 19-9). -/
def TBS_FTACH : Nat := 0x30024
def TBS_FTACH_COUNT : Field := ⟨TBS_FTACH, 0, 16⟩
def TBS_FTACH_PERIOD_US : Field := ⟨TBS_FTACH, 16, 16⟩
/-- The address of TBS_CMD (Table 19-9). -/
def TBS_CMD : Nat := 0x30028
def TBS_CMD_CLR_COUNTERS : Field := ⟨TBS_CMD, 0, 1⟩
/-- The address of CFG_STATUS (Table 19-9). -/
def CFG_STATUS : Nat := 0x40000
def CFG_STATUS_SLOT_USED : Field := ⟨CFG_STATUS, 0, 2⟩
def CFG_STATUS_READ_MODE : Field := ⟨CFG_STATUS, 2, 2⟩
def CFG_STATUS_NO_SFDP : Field := ⟨CFG_STATUS, 4, 1⟩
def CFG_STATUS_SETTLING : Field := ⟨CFG_STATUS, 5, 1⟩
def CFG_STATUS_NVME_READY : Field := ⟨CFG_STATUS, 6, 1⟩
def CFG_STATUS_VALVES_ON : Field := ⟨CFG_STATUS, 7, 1⟩
/-- The address of CFG_REFUSE_A (Table 19-9). -/
def CFG_REFUSE_A : Nat := 0x40004
def CFG_REFUSE_A_CODE : Field := ⟨CFG_REFUSE_A, 0, 8⟩
def CFG_REFUSE_A_RECORD : Field := ⟨CFG_REFUSE_A, 8, 24⟩
/-- The address of CFG_REFUSE_B (Table 19-9). -/
def CFG_REFUSE_B : Nat := 0x40008
def CFG_REFUSE_B_CODE : Field := ⟨CFG_REFUSE_B, 0, 8⟩
def CFG_REFUSE_B_RECORD : Field := ⟨CFG_REFUSE_B, 8, 24⟩
/-- The address of CFG_GEN_A (Table 19-9). -/
def CFG_GEN_A : Nat := 0x4000C
def CFG_GEN_A_GENERATION : Field := ⟨CFG_GEN_A, 0, 32⟩
/-- The address of CFG_GEN_B (Table 19-9). -/
def CFG_GEN_B : Nat := 0x40010
def CFG_GEN_B_GENERATION : Field := ⟨CFG_GEN_B, 0, 32⟩
/-- The address of CFG_LOAD_TIME (Table 19-9). -/
def CFG_LOAD_TIME : Nat := 0x40014
def CFG_LOAD_TIME_LOAD_US : Field := ⟨CFG_LOAD_TIME, 0, 32⟩
/-- The address of CFG_PHASE (Table 19-9). -/
def CFG_PHASE : Nat := 0x40018
def CFG_PHASE_PHASE : Field := ⟨CFG_PHASE, 0, 4⟩
/-- The address of CFG_PREADMIT (Table 19-9). -/
def CFG_PREADMIT : Nat := 0x4001C
def CFG_PREADMIT_COUNT : Field := ⟨CFG_PREADMIT, 0, 32⟩
/-- The address of CFG_CTRL (Table 19-9). -/
def CFG_CTRL : Nat := 0x40020
def CFG_CTRL_RELOAD : Field := ⟨CFG_CTRL, 0, 1⟩
def CFG_CTRL_SLOT : Field := ⟨CFG_CTRL, 1, 2⟩
/-- The address of CFG_PIN (Table 19-9). -/
def CFG_PIN (i : Nat) : Nat := 0x40040 + 0x4 * i
def CFG_PIN_FUNCTION (i : Nat) : Field := ⟨(CFG_PIN i), 0, 8⟩
def CFG_PIN_INVERT (i : Nat) : Field := ⟨(CFG_PIN i), 8, 1⟩
/-- The address of CFG_TMR (Table 19-9). -/
def CFG_TMR (i : Nat) : Nat := 0x40060 + 0x4 * i
def CFG_TMR_FUNCTION (i : Nat) : Field := ⟨(CFG_TMR i), 0, 8⟩
/-- The address of CFG_AUX1 (Table 19-9). -/
def CFG_AUX1 : Nat := 0x40070
def CFG_AUX1_FUNCTION : Field := ⟨CFG_AUX1, 0, 8⟩
/-- The address of MPT_STATUS (Table 19-9). -/
def MPT_STATUS : Nat := 0x50000
def MPT_STATUS_EXPECT : Field := ⟨MPT_STATUS, 0, 4⟩
def MPT_STATUS_EXPECT_ANY : Field := ⟨MPT_STATUS, 4, 1⟩
def MPT_STATUS_MASTERING : Field := ⟨MPT_STATUS, 5, 1⟩
/-- The address of MPT_CTRL (Table 19-9). -/
def MPT_CTRL : Nat := 0x50004
def MPT_CTRL_BUSY_LIMIT : Field := ⟨MPT_CTRL, 0, 16⟩
/-- The address of MPT_ALERT (Table 19-9). -/
def MPT_ALERT : Nat := 0x50008
def MPT_ALERT_DMA : Field := ⟨MPT_ALERT, 0, 1⟩
def MPT_ALERT_DMA_HALT : Field := ⟨MPT_ALERT, 1, 1⟩
def MPT_ALERT_VALVE : Field := ⟨MPT_ALERT, 2, 1⟩
def MPT_ALERT_FLAG : Field := ⟨MPT_ALERT, 3, 1⟩
def MPT_ALERT_FAULT : Field := ⟨MPT_ALERT, 4, 1⟩
def MPT_ALERT_FLASH_DONE : Field := ⟨MPT_ALERT, 5, 1⟩
def MPT_ALERT_UNCONF : Field := ⟨MPT_ALERT, 6, 1⟩
def MPT_ALERT_MASTER_COLLISION : Field := ⟨MPT_ALERT, 7, 1⟩
def MPT_ALERT_WARN : Field := ⟨MPT_ALERT, 8, 1⟩
/-- The address of MPT_ALERT_EN (Table 19-9). -/
def MPT_ALERT_EN : Nat := 0x5000C
def MPT_ALERT_EN_FIXED : Field := ⟨MPT_ALERT_EN, 0, 5⟩
def MPT_ALERT_EN_FLASH_DONE_EN : Field := ⟨MPT_ALERT_EN, 5, 1⟩
def MPT_ALERT_EN_UNCONF_EN : Field := ⟨MPT_ALERT_EN, 6, 1⟩
def MPT_ALERT_EN_COLLISION_EN : Field := ⟨MPT_ALERT_EN, 7, 1⟩
def MPT_ALERT_EN_WARN_EN : Field := ⟨MPT_ALERT_EN, 8, 1⟩
/-- The address of MPT_ERRORS (Table 19-9). -/
def MPT_ERRORS : Nat := 0x50010
def MPT_ERRORS_BAD_HEADER : Field := ⟨MPT_ERRORS, 0, 8⟩
def MPT_ERRORS_ALIVE_ERR : Field := ⟨MPT_ERRORS, 8, 8⟩
def MPT_ERRORS_DCRC_ERR : Field := ⟨MPT_ERRORS, 16, 8⟩
def MPT_ERRORS_TIMEOUT : Field := ⟨MPT_ERRORS, 24, 8⟩
/-- The address of MPT_COLLIDE (Table 19-9). -/
def MPT_COLLIDE : Nat := 0x50014
def MPT_COLLIDE_COLLISIONS : Field := ⟨MPT_COLLIDE, 0, 16⟩
def MPT_COLLIDE_REFUSED : Field := ⟨MPT_COLLIDE, 16, 16⟩
/-- The address of MPT_LAST_REFUSE (Table 19-9). -/
def MPT_LAST_REFUSE : Nat := 0x50018
def MPT_LAST_REFUSE_ADDR : Field := ⟨MPT_LAST_REFUSE, 0, 32⟩
/-- The address of MPT_CMD (Table 19-9). -/
def MPT_CMD : Nat := 0x5001C
def MPT_CMD_CLR_COUNTERS : Field := ⟨MPT_CMD, 0, 1⟩
/-- The address of MPT_FL_ADDR (Table 19-9). -/
def MPT_FL_ADDR : Nat := 0x50020
def MPT_FL_ADDR_ADDR : Field := ⟨MPT_FL_ADDR, 0, 24⟩
/-- The address of MPT_FL_CMD (Table 19-9). -/
def MPT_FL_CMD : Nat := 0x50024
def MPT_FL_CMD_OP : Field := ⟨MPT_FL_CMD, 0, 3⟩
def MPT_FL_CMD_LEN_M1 : Field := ⟨MPT_FL_CMD, 8, 8⟩
/-- The address of MPT_FL_STATUS (Table 19-9). -/
def MPT_FL_STATUS : Nat := 0x50028
def MPT_FL_STATUS_BUSY : Field := ⟨MPT_FL_STATUS, 0, 1⟩
def MPT_FL_STATUS_DONE : Field := ⟨MPT_FL_STATUS, 1, 1⟩
def MPT_FL_STATUS_ERR : Field := ⟨MPT_FL_STATUS, 2, 2⟩
def MPT_FL_STATUS_SR : Field := ⟨MPT_FL_STATUS, 8, 8⟩
/-- The address of MPT_FL_BUF (Table 19-9). -/
def MPT_FL_BUF (i : Nat) : Nat := 0x50100 + 0x4 * i
def MPT_FL_BUF_DATA (i : Nat) : Field := ⟨(MPT_FL_BUF i), 0, 32⟩
/-- The address of KEP_STATUS (Table 19-9). -/
def KEP_STATUS : Nat := 0x60000
def KEP_STATUS_BUSY : Field := ⟨KEP_STATUS, 0, 1⟩
def KEP_STATUS_OP : Field := ⟨KEP_STATUS, 1, 3⟩
def KEP_STATUS_MARK_LOST : Field := ⟨KEP_STATUS, 4, 1⟩
def KEP_STATUS_COUNT_LOST : Field := ⟨KEP_STATUS, 5, 1⟩
def KEP_STATUS_UNCORR : Field := ⟨KEP_STATUS, 6, 1⟩
def KEP_STATUS_MARK_WAIT : Field := ⟨KEP_STATUS, 7, 1⟩
/-- The address of KEP_CTRL (Table 19-9). -/
def KEP_CTRL : Nat := 0x60004
def KEP_CTRL_BP : Field := ⟨KEP_CTRL, 0, 2⟩
def KEP_CTRL_COUNT_PERIOD : Field := ⟨KEP_CTRL, 4, 12⟩
/-- The address of KEP_CMD (Table 19-9). -/
def KEP_CMD : Nat := 0x60008
def KEP_CMD_ACTION : Field := ⟨KEP_CMD, 0, 2⟩
def KEP_CMD_INDEX : Field := ⟨KEP_CMD, 2, 11⟩
def KEP_CMD_CLR_ERRORS : Field := ⟨KEP_CMD, 13, 1⟩
/-- The address of KEP_RESUME (Table 19-9). -/
def KEP_RESUME : Nat := 0x6000C
def KEP_RESUME_KIND : Field := ⟨KEP_RESUME, 0, 2⟩
def KEP_RESUME_JOURNAL : Field := ⟨KEP_RESUME, 2, 2⟩
def KEP_RESUME_INFLIGHT : Field := ⟨KEP_RESUME, 16, 16⟩
/-- The address of KEP_SEQ_MARK_LO (Table 19-9). -/
def KEP_SEQ_MARK_LO : Nat := 0x60010
def KEP_SEQ_MARK_LO_MARK : Field := ⟨KEP_SEQ_MARK_LO, 0, 32⟩
/-- The address of KEP_SEQ_MARK_HI (Table 19-9). -/
def KEP_SEQ_MARK_HI : Nat := 0x60014
def KEP_SEQ_MARK_HI_MARK : Field := ⟨KEP_SEQ_MARK_HI, 0, 32⟩
/-- The address of KEP_RPOS_MARK_LO (Table 19-9). -/
def KEP_RPOS_MARK_LO : Nat := 0x60018
def KEP_RPOS_MARK_LO_MARK : Field := ⟨KEP_RPOS_MARK_LO, 0, 32⟩
/-- The address of KEP_RPOS_MARK_HI (Table 19-9). -/
def KEP_RPOS_MARK_HI : Nat := 0x6001C
def KEP_RPOS_MARK_HI_MARK : Field := ⟨KEP_RPOS_MARK_HI, 0, 32⟩
/-- The address of KEP_MPOS_LO (Table 19-9). -/
def KEP_MPOS_LO : Nat := 0x60020
def KEP_MPOS_LO_MPOS : Field := ⟨KEP_MPOS_LO, 0, 32⟩
/-- The address of KEP_MPOS_HI (Table 19-9). -/
def KEP_MPOS_HI : Nat := 0x60024
def KEP_MPOS_HI_MPOS : Field := ⟨KEP_MPOS_HI, 0, 32⟩
/-- The address of KEP_SET (Table 19-9). -/
def KEP_SET : Nat := 0x60028
def KEP_SET_GEN : Field := ⟨KEP_SET, 0, 32⟩
/-- The address of KEP_ERRORS (Table 19-9). -/
def KEP_ERRORS : Nat := 0x6002C
def KEP_ERRORS_CORRECTED : Field := ⟨KEP_ERRORS, 0, 16⟩
def KEP_ERRORS_UNCORRECTABLE : Field := ⟨KEP_ERRORS, 16, 16⟩
/-- The address of KEP_ERR_PAGE (Table 19-9). -/
def KEP_ERR_PAGE : Nat := 0x60030
def KEP_ERR_PAGE_PAGE : Field := ⟨KEP_ERR_PAGE, 0, 12⟩
def KEP_ERR_PAGE_WORD : Field := ⟨KEP_ERR_PAGE, 12, 3⟩
/-- The address of KEP_STORES (Table 19-9). -/
def KEP_STORES : Nat := 0x60034
def KEP_STORES_COUNT : Field := ⟨KEP_STORES, 0, 32⟩
/-- The address of KEP_CNT_LO (Table 19-9). -/
def KEP_CNT_LO (i : Nat) : Nat := 0x61000 + 0x8 * i
def KEP_CNT_LO_COUNT (i : Nat) : Field := ⟨(KEP_CNT_LO i), 0, 32⟩
/-- The address of KEP_CNT_HI (Table 19-9). -/
def KEP_CNT_HI (i : Nat) : Nat := 0x61004 + 0x8 * i
def KEP_CNT_HI_COUNT (i : Nat) : Field := ⟨(KEP_CNT_HI i), 0, 16⟩
/-- The address of RDO_STATUS (Table 19-9). -/
def RDO_STATUS : Nat := 0x100000
def RDO_STATUS_LINK_UP : Field := ⟨RDO_STATUS, 0, 1⟩
def RDO_STATUS_BIAS_OK : Field := ⟨RDO_STATUS, 1, 1⟩
def RDO_STATUS_SPARED : Field := ⟨RDO_STATUS, 2, 1⟩
def RDO_STATUS_UNSPARED : Field := ⟨RDO_STATUS, 3, 1⟩
def RDO_STATUS_BLIND_SPAN : Field := ⟨RDO_STATUS, 4, 1⟩
def RDO_STATUS_LINK_UNPROTECTED : Field := ⟨RDO_STATUS, 5, 1⟩
def RDO_STATUS_LINK_SINGLE : Field := ⟨RDO_STATUS, 6, 1⟩
def RDO_STATUS_LINK_LOST : Field := ⟨RDO_STATUS, 7, 1⟩
def RDO_STATUS_UNSPARED_COLS : Field := ⟨RDO_STATUS, 8, 8⟩
/-- The address of RDO_CTRL (Table 19-9). -/
def RDO_CTRL : Nat := 0x100004
def RDO_CTRL_AUTO_SPARE : Field := ⟨RDO_CTRL, 0, 1⟩
def RDO_CTRL_SINGLE_LANE_SLOW : Field := ⟨RDO_CTRL, 1, 1⟩
/-- The address of RDO_BIAS (Table 19-9). -/
def RDO_BIAS : Nat := 0x100008
def RDO_BIAS_BIAS_MV : Field := ⟨RDO_BIAS, 0, 12⟩
/-- The address of RDO_REF_TOL (Table 19-9). -/
def RDO_REF_TOL : Nat := 0x10000C
def RDO_REF_TOL_TOL : Field := ⟨RDO_REF_TOL, 0, 11⟩
def RDO_REF_TOL_FAIL_LINES : Field := ⟨RDO_REF_TOL, 16, 4⟩
/-- The address of RDO_CMD (Table 19-9). -/
def RDO_CMD : Nat := 0x100010
def RDO_CMD_CLR_COUNTERS : Field := ⟨RDO_CMD, 0, 1⟩
def RDO_CMD_GROUP : Field := ⟨RDO_CMD, 1, 7⟩
def RDO_CMD_FURROW : Field := ⟨RDO_CMD, 8, 6⟩
def RDO_CMD_ACTION : Field := ⟨RDO_CMD, 14, 2⟩
/-- The address of RDO_LINK_STATUS (Table 19-9). -/
def RDO_LINK_STATUS : Nat := 0x100014
def RDO_LINK_STATUS_DATA0_LANE : Field := ⟨RDO_LINK_STATUS, 0, 2⟩
def RDO_LINK_STATUS_DATA1_LANE : Field := ⟨RDO_LINK_STATUS, 2, 2⟩
def RDO_LINK_STATUS_PARITY_LANE : Field := ⟨RDO_LINK_STATUS, 4, 2⟩
def RDO_LINK_STATUS_PARITY_ACTIVE : Field := ⟨RDO_LINK_STATUS, 6, 1⟩
def RDO_LINK_STATUS_STANDBY_ACTIVE : Field := ⟨RDO_LINK_STATUS, 7, 1⟩
def RDO_LINK_STATUS_STANDBY_LANE : Field := ⟨RDO_LINK_STATUS, 8, 2⟩
def RDO_LINK_STATUS_FAILED : Field := ⟨RDO_LINK_STATUS, 10, 4⟩
def RDO_LINK_STATUS_MIN_PERIOD_US : Field := ⟨RDO_LINK_STATUS, 16, 16⟩
/-- The address of RDO_LINK_ERR (Table 19-9). -/
def RDO_LINK_ERR : Nat := 0x100018
def RDO_LINK_ERR_REBUILT : Field := ⟨RDO_LINK_ERR, 0, 16⟩
def RDO_LINK_ERR_LOST : Field := ⟨RDO_LINK_ERR, 16, 16⟩
/-- The address of RDO_SAT_COUNT (Table 19-9). -/
def RDO_SAT_COUNT : Nat := 0x10001C
def RDO_SAT_COUNT_COUNT : Field := ⟨RDO_SAT_COUNT, 0, 32⟩
/-- The address of RDO_THERM_STATUS (Table 19-9). -/
def RDO_THERM_STATUS : Nat := 0x100020
def RDO_THERM_STATUS_FAILED : Field := ⟨RDO_THERM_STATUS, 0, 8⟩
def RDO_THERM_STATUS_STALE : Field := ⟨RDO_THERM_STATUS, 8, 8⟩
/-- The address of RDO_GROUP (Table 19-9). -/
def RDO_GROUP (i : Nat) : Nat := 0x100100 + 0x4 * i
def RDO_GROUP_SUBST (i : Nat) : Field := ⟨(RDO_GROUP i), 0, 6⟩
def RDO_GROUP_SPARE_IN_USE (i : Nat) : Field := ⟨(RDO_GROUP i), 6, 1⟩
def RDO_GROUP_SPARE_FAILED (i : Nat) : Field := ⟨(RDO_GROUP i), 7, 1⟩
def RDO_GROUP_FAILED_COUNT (i : Nat) : Field := ⟨(RDO_GROUP i), 8, 7⟩
/-- The address of RDO_FAILMAP (Table 19-9). -/
def RDO_FAILMAP (i : Nat) : Nat := 0x101000 + 0x4 * i
def RDO_FAILMAP_FAILED (i : Nat) : Field := ⟨(RDO_FAILMAP i), 0, 32⟩
/-- The address of COR_STATUS (Table 19-9). -/
def COR_STATUS : Nat := 0x110000
def COR_STATUS_ACTIVE_BANK : Field := ⟨COR_STATUS, 0, 1⟩
def COR_STATUS_SWAP_PENDING : Field := ⟨COR_STATUS, 1, 1⟩
def COR_STATUS_TABLE_SWAP_PENDING : Field := ⟨COR_STATUS, 2, 1⟩
def COR_STATUS_ACTIVE_TABLE : Field := ⟨COR_STATUS, 3, 1⟩
def COR_STATUS_LANES_WORKING : Field := ⟨COR_STATUS, 4, 4⟩
def COR_STATUS_SPARE_FREE : Field := ⟨COR_STATUS, 8, 1⟩
def COR_STATUS_SUBSTRATE_LOST : Field := ⟨COR_STATUS, 9, 1⟩
def COR_STATUS_SLOWED : Field := ⟨COR_STATUS, 10, 1⟩
/-- The address of COR_CTRL (Table 19-9). -/
def COR_CTRL : Nat := 0x110004
def COR_CTRL_MISMATCH_LIMIT : Field := ⟨COR_CTRL, 0, 6⟩
/-- The address of COR_CMD (Table 19-9). -/
def COR_CMD : Nat := 0x110008
def COR_CMD_BANK_SWAP : Field := ⟨COR_CMD, 0, 1⟩
def COR_CMD_TABLE_SWAP : Field := ⟨COR_CMD, 1, 1⟩
def COR_CMD_CLR_COUNTERS : Field := ⟨COR_CMD, 2, 1⟩
/-- The address of COR_RAD_BASE (Table 19-9). -/
def COR_RAD_BASE : Nat := 0x11000C
def COR_RAD_BASE_BASE : Field := ⟨COR_RAD_BASE, 0, 32⟩
/-- The address of COR_RAD_STEP (Table 19-9). -/
def COR_RAD_STEP : Nat := 0x110010
def COR_RAD_STEP_STEP_LOG2 : Field := ⟨COR_RAD_STEP, 0, 5⟩
/-- The address of COR_MIN_PERIOD (Table 19-9). -/
def COR_MIN_PERIOD : Nat := 0x110014
def COR_MIN_PERIOD_MIN_PERIOD : Field := ⟨COR_MIN_PERIOD, 0, 17⟩
/-- The address of COR_HEADROOM (Table 19-9). -/
def COR_HEADROOM : Nat := 0x110018
def COR_HEADROOM_NOW_PCT : Field := ⟨COR_HEADROOM, 0, 8⟩
def COR_HEADROOM_MIN_PCT : Field := ⟨COR_HEADROOM, 8, 8⟩
def COR_HEADROOM_LANE_RATE : Field := ⟨COR_HEADROOM, 16, 16⟩
/-- The address of COR_LANE_MAP (Table 19-9). -/
def COR_LANE_MAP : Nat := 0x11001C
def COR_LANE_MAP_FAILED : Field := ⟨COR_LANE_MAP, 0, 9⟩
def COR_LANE_MAP_SPARE_LANE : Field := ⟨COR_LANE_MAP, 9, 4⟩
/-- The address of COR_MISMATCH (Table 19-9). -/
def COR_MISMATCH : Nat := 0x110020
def COR_MISMATCH_COUNT : Field := ⟨COR_MISMATCH, 0, 32⟩
/-- The address of COR_UNRESOLVED (Table 19-9). -/
def COR_UNRESOLVED : Nat := 0x110024
def COR_UNRESOLVED_COUNT : Field := ⟨COR_UNRESOLVED, 0, 32⟩
/-- The address of COR_CLAMP_COUNT (Table 19-9). -/
def COR_CLAMP_COUNT : Nat := 0x110028
def COR_CLAMP_COUNT_COUNT : Field := ⟨COR_CLAMP_COUNT, 0, 32⟩
/-- The address of COR_RANGE_COUNT (Table 19-9). -/
def COR_RANGE_COUNT : Nat := 0x11002C
def COR_RANGE_COUNT_COUNT : Field := ⟨COR_RANGE_COUNT, 0, 32⟩
/-- The address of COR_LATENCY_MAX (Table 19-9). -/
def COR_LATENCY_MAX : Nat := 0x110030
def COR_LATENCY_MAX_TRANSIT_NS : Field := ⟨COR_LATENCY_MAX, 0, 16⟩
def COR_LATENCY_MAX_LINE_LATE : Field := ⟨COR_LATENCY_MAX, 16, 16⟩
/-- The address of COR_LANE (Table 19-9). -/
def COR_LANE (i : Nat) : Nat := 0x110040 + 0x4 * i
def COR_LANE_MISMATCHES (i : Nat) : Field := ⟨(COR_LANE i), 0, 16⟩
def COR_LANE_RATE (i : Nat) : Field := ⟨(COR_LANE i), 16, 16⟩
/-- The address of COR_DTS (Table 19-9). -/
def COR_DTS (i : Nat) : Nat := 0x110080 + 0x4 * i
def COR_DTS_DTS (i : Nat) : Field := ⟨(COR_DTS i), 0, 32⟩
/-- The address of COR_LAG_DEPTH (Table 19-9). -/
def COR_LAG_DEPTH : Nat := 0x110100
def COR_LAG_DEPTH_DEPTH : Field := ⟨COR_LAG_DEPTH, 0, 9⟩
def COR_LAG_DEPTH_IN_USE : Field := ⟨COR_LAG_DEPTH, 16, 9⟩
/-- The address of COR_WALK_VEL (Table 19-9). -/
def COR_WALK_VEL : Nat := 0x110104
def COR_WALK_VEL_NOM_VEL : Field := ⟨COR_WALK_VEL, 0, 11⟩
/-- The address of COR_ROW_WT (Table 19-9). -/
def COR_ROW_WT (i : Nat) : Nat := 0x110108 + 0x4 * i
def COR_ROW_WT_W0 (i : Nat) : Field := ⟨(COR_ROW_WT i), 0, 4⟩
def COR_ROW_WT_W1 (i : Nat) : Field := ⟨(COR_ROW_WT i), 4, 4⟩
def COR_ROW_WT_W2 (i : Nat) : Field := ⟨(COR_ROW_WT i), 8, 4⟩
def COR_ROW_WT_W3 (i : Nat) : Field := ⟨(COR_ROW_WT i), 12, 4⟩
def COR_ROW_WT_W4 (i : Nat) : Field := ⟨(COR_ROW_WT i), 16, 4⟩
def COR_ROW_WT_W5 (i : Nat) : Field := ⟨(COR_ROW_WT i), 20, 4⟩
def COR_ROW_WT_W6 (i : Nat) : Field := ⟨(COR_ROW_WT i), 24, 4⟩
def COR_ROW_WT_W7 (i : Nat) : Field := ⟨(COR_ROW_WT i), 28, 4⟩
/-- The address of COR_WALK_EXCLUDE (Table 19-9). -/
def COR_WALK_EXCLUDE : Nat := 0x110114
def COR_WALK_EXCLUDE_MASK : Field := ⟨COR_WALK_EXCLUDE, 0, 12⟩
/-- The address of COR_SHEAF_WALK (Table 19-9). -/
def COR_SHEAF_WALK : Nat := 0x110118
def COR_SHEAF_WALK_MARGIN : Field := ⟨COR_SHEAF_WALK, 0, 7⟩
/-- The address of COR_WALK_STATUS (Table 19-9). -/
def COR_WALK_STATUS : Nat := 0x11011C
def COR_WALK_STATUS_EFF_VEL : Field := ⟨COR_WALK_STATUS, 0, 11⟩
def COR_WALK_STATUS_VEL_CLAMPED : Field := ⟨COR_WALK_STATUS, 11, 1⟩
def COR_WALK_STATUS_LAG_TABLE_BUSY : Field := ⟨COR_WALK_STATUS, 12, 1⟩
def COR_WALK_STATUS_LAG_SUSPENDED : Field := ⟨COR_WALK_STATUS, 13, 1⟩
def COR_WALK_STATUS_ROWS_REACH : Field := ⟨COR_WALK_STATUS, 14, 5⟩
/-- The address of COR_LAG_OFF_LINES (Table 19-9). -/
def COR_LAG_OFF_LINES : Nat := 0x110120
def COR_LAG_OFF_LINES_COUNT : Field := ⟨COR_LAG_OFF_LINES, 0, 32⟩
/-- The address of COR_WALK_FILLED (Table 19-9). -/
def COR_WALK_FILLED : Nat := 0x110124
def COR_WALK_FILLED_COUNT : Field := ⟨COR_WALK_FILLED, 0, 32⟩
/-- The address of COR_WALK_LATE (Table 19-9). -/
def COR_WALK_LATE : Nat := 0x110128
def COR_WALK_LATE_FIELD_LATE : Field := ⟨COR_WALK_LATE, 0, 16⟩
def COR_WALK_LATE_SHEAF_LATE : Field := ⟨COR_WALK_LATE, 16, 16⟩
/-- The address of COR_WALK_CMD (Table 19-9). -/
def COR_WALK_CMD : Nat := 0x11012C
def COR_WALK_CMD_CLR_COUNTERS : Field := ⟨COR_WALK_CMD, 0, 1⟩
/-- The address of CAL_STATUS (Table 19-9). -/
def CAL_STATUS : Nat := 0x120000
def CAL_STATUS_PENDING : Field := ⟨CAL_STATUS, 0, 1⟩
def CAL_STATUS_RUNNING : Field := ⟨CAL_STATUS, 1, 1⟩
def CAL_STATUS_GAP_WAIT : Field := ⟨CAL_STATUS, 2, 1⟩
def CAL_STATUS_BLIND : Field := ⟨CAL_STATUS, 3, 1⟩
def CAL_STATUS_OWN_STANDBY : Field := ⟨CAL_STATUS, 4, 1⟩
def CAL_STATUS_STALE : Field := ⟨CAL_STATUS, 5, 1⟩
def CAL_STATUS_FLAG_STUCK : Field := ⟨CAL_STATUS, 6, 1⟩
def CAL_STATUS_GLEAN_ACTIVE : Field := ⟨CAL_STATUS, 7, 1⟩
def CAL_STATUS_GLEAN_REACH : Field := ⟨CAL_STATUS, 8, 1⟩
def CAL_STATUS_GLEAN_16THS : Field := ⟨CAL_STATUS, 9, 5⟩
def CAL_STATUS_QUAL_BUSY : Field := ⟨CAL_STATUS, 14, 1⟩
def CAL_STATUS_FIRST_DONE : Field := ⟨CAL_STATUS, 15, 1⟩
/-- The address of CAL_CTRL (Table 19-9). -/
def CAL_CTRL : Nat := 0x120004
def CAL_CTRL_SHUTTER_SCRIPT : Field := ⟨CAL_CTRL, 0, 4⟩
def CAL_CTRL_GLEAN_ON : Field := ⟨CAL_CTRL, 4, 1⟩
def CAL_CTRL_DEAD_ON_REPEAT : Field := ⟨CAL_CTRL, 5, 1⟩
def CAL_CTRL_DL_REQ : Field := ⟨CAL_CTRL, 6, 1⟩
/-- The address of CAL_CMD (Table 19-9). -/
def CAL_CMD : Nat := 0x120008
def CAL_CMD_EVENT : Field := ⟨CAL_CMD, 0, 1⟩
def CAL_CMD_CANCEL : Field := ⟨CAL_CMD, 1, 1⟩
def CAL_CMD_RUN : Field := ⟨CAL_CMD, 2, 1⟩
def CAL_CMD_SCRIPT : Field := ⟨CAL_CMD, 3, 4⟩
def CAL_CMD_CLR_COUNTERS : Field := ⟨CAL_CMD, 7, 1⟩
/-- The address of CAL_TRIG (Table 19-9). -/
def CAL_TRIG : Nat := 0x12000C
def CAL_TRIG_DRIFT_TRIG : Field := ⟨CAL_TRIG, 0, 13⟩
def CAL_TRIG_MAX_INTERVAL : Field := ⟨CAL_TRIG, 16, 16⟩
/-- The address of CAL_GAP (Table 19-9). -/
def CAL_GAP : Nat := 0x120010
def CAL_GAP_QUIET_LINES : Field := ⟨CAL_GAP, 0, 10⟩
def CAL_GAP_GUARD : Field := ⟨CAL_GAP, 12, 4⟩
def CAL_GAP_GAP_TIMEOUT : Field := ⟨CAL_GAP, 16, 16⟩
/-- The address of CAL_FLAG (Table 19-9). -/
def CAL_FLAG : Nat := 0x120014
def CAL_FLAG_TRAVEL : Field := ⟨CAL_FLAG, 0, 8⟩
def CAL_FLAG_SETTLE : Field := ⟨CAL_FLAG, 8, 8⟩
def CAL_FLAG_FLAG_TOL : Field := ⟨CAL_FLAG, 16, 16⟩
/-- The address of CAL_SOLVE (Table 19-9). -/
def CAL_SOLVE : Nat := 0x120018
def CAL_SOLVE_AVG_CODE : Field := ⟨CAL_SOLVE, 0, 2⟩
def CAL_SOLVE_O_SHIFT : Field := ⟨CAL_SOLVE, 2, 4⟩
def CAL_SOLVE_G_SHIFT : Field := ⟨CAL_SOLVE, 6, 4⟩
def CAL_SOLVE_MIN_REF_DIFF : Field := ⟨CAL_SOLVE, 16, 16⟩
/-- The address of CAL_LIM_O (Table 19-9). -/
def CAL_LIM_O : Nat := 0x12001C
def CAL_LIM_O_LIM_O : Field := ⟨CAL_LIM_O, 0, 16⟩
/-- The address of CAL_LIM_G (Table 19-9). -/
def CAL_LIM_G : Nat := 0x120020
def CAL_LIM_G_LIM_G_STEP : Field := ⟨CAL_LIM_G, 0, 16⟩
/-- The address of CAL_G_MIN (Table 19-9). -/
def CAL_G_MIN : Nat := 0x120024
def CAL_G_MIN_G_MIN : Field := ⟨CAL_G_MIN, 0, 32⟩
/-- The address of CAL_G_MAX (Table 19-9). -/
def CAL_G_MAX : Nat := 0x120028
def CAL_G_MAX_G_MAX : Field := ⟨CAL_G_MAX, 0, 32⟩
/-- The address of CAL_LIM_FAIL (Table 19-9). -/
def CAL_LIM_FAIL : Nat := 0x12002C
def CAL_LIM_FAIL_FAIL_MAX : Field := ⟨CAL_LIM_FAIL, 0, 16⟩
def CAL_LIM_FAIL_LIM_NOISE : Field := ⟨CAL_LIM_FAIL, 16, 8⟩
def CAL_LIM_FAIL_HOLDOFF : Field := ⟨CAL_LIM_FAIL, 24, 8⟩
/-- The address of CAL_GLEAN (Table 19-9). -/
def CAL_GLEAN : Nat := 0x120030
def CAL_GLEAN_GLEAN_LINES : Field := ⟨CAL_GLEAN, 0, 10⟩
def CAL_GLEAN_GLEAN_SHIFT : Field := ⟨CAL_GLEAN, 10, 4⟩
def CAL_GLEAN_D_LIMIT : Field := ⟨CAL_GLEAN, 16, 16⟩
/-- The address of CAL_QUAL (Table 19-9). -/
def CAL_QUAL : Nat := 0x120034
def CAL_QUAL_QUAL_SAMPLES : Field := ⟨CAL_QUAL, 0, 16⟩
def CAL_QUAL_QUAL_TIMEOUT : Field := ⟨CAL_QUAL, 16, 16⟩
/-- The address of CAL_SETTLE (Table 19-9). -/
def CAL_SETTLE : Nat := 0x120038
def CAL_SETTLE_RATE : Field := ⟨CAL_SETTLE, 0, 8⟩
/-- The address of CAL_TRIM_TARGET (Table 19-9). -/
def CAL_TRIM_TARGET : Nat := 0x12003C
def CAL_TRIM_TARGET_CODE_TARGET : Field := ⟨CAL_TRIM_TARGET, 0, 16⟩
def CAL_TRIM_TARGET_SPAN_TARGET : Field := ⟨CAL_TRIM_TARGET, 16, 16⟩
/-- The address of CAL_RESULT (Table 19-9). -/
def CAL_RESULT : Nat := 0x120040
def CAL_RESULT_OUTCOME : Field := ⟨CAL_RESULT, 0, 3⟩
def CAL_RESULT_REASON : Field := ⟨CAL_RESULT, 8, 8⟩
def CAL_RESULT_FAILED : Field := ⟨CAL_RESULT, 16, 16⟩
/-- The address of CAL_FAIL_WHY (Table 19-9). -/
def CAL_FAIL_WHY : Nat := 0x120044
def CAL_FAIL_WHY_DATA : Field := ⟨CAL_FAIL_WHY, 0, 8⟩
def CAL_FAIL_WHY_NOISE : Field := ⟨CAL_FAIL_WHY, 8, 8⟩
def CAL_FAIL_WHY_OFFSET : Field := ⟨CAL_FAIL_WHY, 16, 8⟩
def CAL_FAIL_WHY_GAIN : Field := ⟨CAL_FAIL_WHY, 24, 8⟩
/-- The address of CAL_EVENT_LINE_LO (Table 19-9). -/
def CAL_EVENT_LINE_LO : Nat := 0x120048
def CAL_EVENT_LINE_LO_LINE : Field := ⟨CAL_EVENT_LINE_LO, 0, 32⟩
/-- The address of CAL_EVENT_LINE_HI (Table 19-9). -/
def CAL_EVENT_LINE_HI : Nat := 0x12004C
def CAL_EVENT_LINE_HI_LINE : Field := ⟨CAL_EVENT_LINE_HI, 0, 32⟩
/-- The address of CAL_QUAL_RMS (Table 19-9). -/
def CAL_QUAL_RMS : Nat := 0x120050
def CAL_QUAL_RMS_UK : Field := ⟨CAL_QUAL_RMS, 0, 32⟩
/-- The address of CAL_QUAL_PEAK (Table 19-9). -/
def CAL_QUAL_PEAK : Nat := 0x120054
def CAL_QUAL_PEAK_UK : Field := ⟨CAL_QUAL_PEAK, 0, 32⟩
/-- The address of CAL_QUAL_NOISE (Table 19-9). -/
def CAL_QUAL_NOISE : Nat := 0x120058
def CAL_QUAL_NOISE_UK : Field := ⟨CAL_QUAL_NOISE, 0, 32⟩
/-- The address of CAL_QUAL_INFO (Table 19-9). -/
def CAL_QUAL_INFO : Nat := 0x12005C
def CAL_QUAL_INFO_PIXELS : Field := ⟨CAL_QUAL_INFO, 0, 17⟩
def CAL_QUAL_INFO_PARTIAL : Field := ⟨CAL_QUAL_INFO, 17, 1⟩
/-- The address of CAL_COUNTS (Table 19-9). -/
def CAL_COUNTS : Nat := 0x120060
def CAL_COUNTS_ACCEPTED : Field := ⟨CAL_COUNTS, 0, 16⟩
def CAL_COUNTS_REFUSED : Field := ⟨CAL_COUNTS, 16, 16⟩
/-- The address of CAL_BLIND_LINES (Table 19-9). -/
def CAL_BLIND_LINES : Nat := 0x120064
def CAL_BLIND_LINES_COUNT : Field := ⟨CAL_BLIND_LINES, 0, 32⟩
/-- The address of CAL_GLEAN_UPDATES (Table 19-9). -/
def CAL_GLEAN_UPDATES : Nat := 0x120068
def CAL_GLEAN_UPDATES_COUNT : Field := ⟨CAL_GLEAN_UPDATES, 0, 32⟩
/-- The address of CAL_DRIFT_LIMITED (Table 19-9). -/
def CAL_DRIFT_LIMITED : Nat := 0x12006C
def CAL_DRIFT_LIMITED_PIXELS : Field := ⟨CAL_DRIFT_LIMITED, 0, 17⟩
/-- The address of CAL_SCRIPT_STAT (Table 19-9). -/
def CAL_SCRIPT_STAT : Nat := 0x120070
def CAL_SCRIPT_STAT_SCRIPT : Field := ⟨CAL_SCRIPT_STAT, 0, 4⟩
def CAL_SCRIPT_STAT_PC : Field := ⟨CAL_SCRIPT_STAT, 4, 8⟩
def CAL_SCRIPT_STAT_EXIT : Field := ⟨CAL_SCRIPT_STAT, 12, 8⟩
/-- The address of CAL_DAC_BIAS (Table 19-9). -/
def CAL_DAC_BIAS : Nat := 0x120100
def CAL_DAC_BIAS_CODE : Field := ⟨CAL_DAC_BIAS, 0, 12⟩
/-- The address of CAL_DAC_SKIM (Table 19-9). -/
def CAL_DAC_SKIM : Nat := 0x120104
def CAL_DAC_SKIM_CODE : Field := ⟨CAL_DAC_SKIM, 0, 12⟩
/-- The address of CAL_DAC_HL (Table 19-9). -/
def CAL_DAC_HL (i : Nat) : Nat := 0x120140 + 0x4 * i
def CAL_DAC_HL_HL0 (i : Nat) : Field := ⟨(CAL_DAC_HL i), 0, 8⟩
def CAL_DAC_HL_HL1 (i : Nat) : Field := ⟨(CAL_DAC_HL i), 8, 8⟩
def CAL_DAC_HL_HL2 (i : Nat) : Field := ⟨(CAL_DAC_HL i), 16, 8⟩
def CAL_DAC_HL_HL3 (i : Nat) : Field := ⟨(CAL_DAC_HL i), 24, 8⟩
/-- The address of CAL_FTRIM (Table 19-9). -/
def CAL_FTRIM (i : Nat) : Nat := 0x121000 + 0x4 * i
def CAL_FTRIM_SKIM0 (i : Nat) : Field := ⟨(CAL_FTRIM i), 0, 4⟩
def CAL_FTRIM_SKIM1 (i : Nat) : Field := ⟨(CAL_FTRIM i), 8, 4⟩
def CAL_FTRIM_SKIM2 (i : Nat) : Field := ⟨(CAL_FTRIM i), 16, 4⟩
def CAL_FTRIM_SKIM3 (i : Nat) : Field := ⟨(CAL_FTRIM i), 24, 4⟩
def CAL_FTRIM_CAP0 (i : Nat) : Field := ⟨(CAL_FTRIM i), 4, 3⟩
def CAL_FTRIM_CAP1 (i : Nat) : Field := ⟨(CAL_FTRIM i), 12, 3⟩
def CAL_FTRIM_CAP2 (i : Nat) : Field := ⟨(CAL_FTRIM i), 20, 3⟩
def CAL_FTRIM_CAP3 (i : Nat) : Field := ⟨(CAL_FTRIM i), 28, 3⟩
/-- The address of CAL_SCRIPT_MEM (Table 19-9). -/
def CAL_SCRIPT_MEM (i : Nat) (j : Nat) : Nat := 0x124000 + 0x400 * i + 0x4 * j
def CAL_SCRIPT_MEM_WORD (i : Nat) (j : Nat) : Field := ⟨(CAL_SCRIPT_MEM i j), 0, 32⟩
/-- The address of TRK_STATUS (Table 19-9). -/
def TRK_STATUS : Nat := 0x130000
def TRK_STATUS_ADMITTING : Field := ⟨TRK_STATUS, 0, 1⟩
def TRK_STATUS_BG_STEP : Field := ⟨TRK_STATUS, 1, 1⟩
def TRK_STATUS_COPY0_FAILED : Field := ⟨TRK_STATUS, 2, 1⟩
def TRK_STATUS_COPY1_FAILED : Field := ⟨TRK_STATUS, 3, 1⟩
/-- The address of TRK_CTRL (Table 19-9). -/
def TRK_CTRL : Nat := 0x130004
def TRK_CTRL_ADMIT_STOP : Field := ⟨TRK_CTRL, 0, 1⟩
def TRK_CTRL_DEFAULT_DISP : Field := ⟨TRK_CTRL, 1, 1⟩
def TRK_CTRL_VIEW_COPY : Field := ⟨TRK_CTRL, 2, 1⟩
def TRK_CTRL_HOT_EN : Field := ⟨TRK_CTRL, 3, 1⟩
def TRK_CTRL_COLD_EN : Field := ⟨TRK_CTRL, 4, 1⟩
/-- The address of TRK_CMD (Table 19-9). -/
def TRK_CMD : Nat := 0x130008
def TRK_CMD_CLR_COUNTERS : Field := ⟨TRK_CMD, 0, 1⟩
/-- The address of TRK_HOT (Table 19-9). -/
def TRK_HOT : Nat := 0x13000C
def TRK_HOT_HOT_TH : Field := ⟨TRK_HOT, 0, 16⟩
def TRK_HOT_HOT_EDGE : Field := ⟨TRK_HOT, 16, 16⟩
/-- The address of TRK_COLD (Table 19-9). -/
def TRK_COLD : Nat := 0x130010
def TRK_COLD_COLD_TH : Field := ⟨TRK_COLD, 0, 16⟩
def TRK_COLD_COLD_EDGE : Field := ⟨TRK_COLD, 16, 16⟩
/-- The address of TRK_SHAPE (Table 19-9). -/
def TRK_SHAPE : Nat := 0x130014
def TRK_SHAPE_MIN_CORE : Field := ⟨TRK_SHAPE, 0, 4⟩
def TRK_SHAPE_BRIDGE : Field := ⟨TRK_SHAPE, 4, 3⟩
def TRK_SHAPE_SEAL_GAP : Field := ⟨TRK_SHAPE, 8, 3⟩
def TRK_SHAPE_MAX_LINES : Field := ⟨TRK_SHAPE, 16, 9⟩
/-- The address of TRK_BG (Table 19-9). -/
def TRK_BG : Nat := 0x130018
def TRK_BG_BG_SHIFT : Field := ⟨TRK_BG, 0, 4⟩
def TRK_BG_STEP_COLS : Field := ⟨TRK_BG, 4, 12⟩
def TRK_BG_STEP_LINES : Field := ⟨TRK_BG, 16, 16⟩
/-- The address of TRK_VEL (Table 19-9). -/
def TRK_VEL : Nat := 0x13001C
def TRK_VEL_MIN_ROWS : Field := ⟨TRK_VEL, 0, 5⟩
def TRK_VEL_RES_MAX : Field := ⟨TRK_VEL, 8, 8⟩
/-- The address of TRK_ADMIT (Table 19-9). -/
def TRK_ADMIT : Nat := 0x130020
def TRK_ADMIT_ADMIT_RATE : Field := ⟨TRK_ADMIT, 0, 17⟩
/-- The address of TRK_BURST (Table 19-9). -/
def TRK_BURST : Nat := 0x130024
def TRK_BURST_BURST : Field := ⟨TRK_BURST, 0, 14⟩
def TRK_BURST_BLOCK_FLOOR : Field := ⟨TRK_BURST, 16, 15⟩
/-- The address of TRK_SEQ_NEXT_LO (Table 19-9). -/
def TRK_SEQ_NEXT_LO : Nat := 0x130028
def TRK_SEQ_NEXT_LO_SEQ : Field := ⟨TRK_SEQ_NEXT_LO, 0, 32⟩
/-- The address of TRK_SEQ_NEXT_HI (Table 19-9). -/
def TRK_SEQ_NEXT_HI : Nat := 0x13002C
def TRK_SEQ_NEXT_HI_SEQ : Field := ⟨TRK_SEQ_NEXT_HI, 0, 32⟩
/-- The address of TRK_LIVE (Table 19-9). -/
def TRK_LIVE : Nat := 0x130030
def TRK_LIVE_LIVE : Field := ⟨TRK_LIVE, 0, 14⟩
def TRK_LIVE_FREE_BLOCKS : Field := ⟨TRK_LIVE, 15, 16⟩
/-- The address of TRK_PEAK (Table 19-9). -/
def TRK_PEAK : Nat := 0x130034
def TRK_PEAK_PEAK_LIVE : Field := ⟨TRK_PEAK, 0, 14⟩
def TRK_PEAK_MIN_FREE : Field := ⟨TRK_PEAK, 15, 16⟩
/-- The address of TRK_ADMITTED_LO (Table 19-9). -/
def TRK_ADMITTED_LO : Nat := 0x130038
def TRK_ADMITTED_LO_COUNT : Field := ⟨TRK_ADMITTED_LO, 0, 32⟩
/-- The address of TRK_ADMITTED_HI (Table 19-9). -/
def TRK_ADMITTED_HI : Nat := 0x13003C
def TRK_ADMITTED_HI_COUNT : Field := ⟨TRK_ADMITTED_HI, 0, 32⟩
/-- The address of TRK_REFUSED_STOPPED (Table 19-9). -/
def TRK_REFUSED_STOPPED : Nat := 0x130040
def TRK_REFUSED_STOPPED_COUNT : Field := ⟨TRK_REFUSED_STOPPED, 0, 32⟩
/-- The address of TRK_REFUSED_RATE (Table 19-9). -/
def TRK_REFUSED_RATE : Nat := 0x130044
def TRK_REFUSED_RATE_COUNT : Field := ⟨TRK_REFUSED_RATE, 0, 32⟩
/-- The address of TRK_REFUSED_STORE (Table 19-9). -/
def TRK_REFUSED_STORE : Nat := 0x130048
def TRK_REFUSED_STORE_COUNT : Field := ⟨TRK_REFUSED_STORE, 0, 32⟩
/-- The address of TRK_REFUSED_MEMORY (Table 19-9). -/
def TRK_REFUSED_MEMORY : Nat := 0x13004C
def TRK_REFUSED_MEMORY_COUNT : Field := ⟨TRK_REFUSED_MEMORY, 0, 32⟩
/-- The address of TRK_FORCED (Table 19-9). -/
def TRK_FORCED : Nat := 0x130050
def TRK_FORCED_LONG : Field := ⟨TRK_FORCED, 0, 16⟩
def TRK_FORCED_MEM : Field := ⟨TRK_FORCED, 16, 16⟩
/-- The address of TRK_SHADOW (Table 19-9). -/
def TRK_SHADOW : Nat := 0x130054
def TRK_SHADOW_SHADOW_LIVE : Field := ⟨TRK_SHADOW, 0, 11⟩
def TRK_SHADOW_SHADOW_OVERFLOW : Field := ⟨TRK_SHADOW, 16, 16⟩
/-- The address of TRK_COPY (Table 19-9). -/
def TRK_COPY : Nat := 0x130058
def TRK_COPY_REPAIRED : Field := ⟨TRK_COPY, 0, 16⟩
def TRK_COPY_LOST : Field := ⟨TRK_COPY, 16, 16⟩
/-- The address of TRK_LIFE_MAX (Table 19-9). -/
def TRK_LIFE_MAX : Nat := 0x13005C
def TRK_LIFE_MAX_US : Field := ⟨TRK_LIFE_MAX, 0, 32⟩
/-- The address of TRK_BGC (Table 19-9). -/
def TRK_BGC (i : Nat) : Nat := 0x138000 + 0x4 * i
def TRK_BGC_BG (i : Nat) : Field := ⟨(TRK_BGC i), 0, 32⟩
/-- The address of AST_STATUS (Table 19-9). -/
def AST_STATUS : Nat := 0x140000
def AST_STATUS_WORKING : Field := ⟨AST_STATUS, 0, 5⟩
def AST_STATUS_SET_PENDING : Field := ⟨AST_STATUS, 5, 1⟩
def AST_STATUS_CHECK_BUSY : Field := ⟨AST_STATUS, 6, 1⟩
def AST_STATUS_LAST_CHECK : Field := ⟨AST_STATUS, 7, 3⟩
def AST_STATUS_FAILED : Field := ⟨AST_STATUS, 16, 16⟩
/-- The address of AST_CTRL (Table 19-9). -/
def AST_CTRL : Nat := 0x140004
def AST_CTRL_ENG_ERR_LIMIT : Field := ⟨AST_CTRL, 0, 4⟩
def AST_CTRL_RERUN_MAX : Field := ⟨AST_CTRL, 4, 2⟩
def AST_CTRL_SELFTEST_ON : Field := ⟨AST_CTRL, 6, 1⟩
/-- The address of AST_CMD (Table 19-9). -/
def AST_CMD : Nat := 0x140008
def AST_CMD_CLR_COUNTERS : Field := ⟨AST_CMD, 0, 1⟩
def AST_CMD_RESTORE : Field := ⟨AST_CMD, 1, 1⟩
def AST_CMD_ENGINE : Field := ⟨AST_CMD, 2, 4⟩
/-- The address of AST_SELECT (Table 19-9). -/
def AST_SELECT : Nat := 0x14000C
def AST_SELECT_DEFAULT_SLOT : Field := ⟨AST_SELECT, 0, 4⟩
/-- The address of AST_RULE (Table 19-9). -/
def AST_RULE (i : Nat) : Nat := 0x140010 + 0x4 * i
def AST_RULE_EN (i : Nat) : Field := ⟨(AST_RULE i), 0, 1⟩
def AST_RULE_HOT (i : Nat) : Field := ⟨(AST_RULE i), 1, 1⟩
def AST_RULE_COLD (i : Nat) : Field := ⟨(AST_RULE i), 2, 1⟩
def AST_RULE_SLOT (i : Nat) : Field := ⟨(AST_RULE i), 4, 4⟩
def AST_RULE_REQ (i : Nat) : Field := ⟨(AST_RULE i), 8, 8⟩
def AST_RULE_MIN_AREA (i : Nat) : Field := ⟨(AST_RULE i), 16, 16⟩
/-- The address of AST_QUEUE (Table 19-9). -/
def AST_QUEUE : Nat := 0x140020
def AST_QUEUE_QUEUED : Field := ⟨AST_QUEUE, 0, 14⟩
def AST_QUEUE_QUEUE_MAX : Field := ⟨AST_QUEUE, 16, 14⟩
/-- The address of AST_RUNS_LO (Table 19-9). -/
def AST_RUNS_LO : Nat := 0x140024
def AST_RUNS_LO_COUNT : Field := ⟨AST_RUNS_LO, 0, 32⟩
/-- The address of AST_RUNS_HI (Table 19-9). -/
def AST_RUNS_HI : Nat := 0x140028
def AST_RUNS_HI_COUNT : Field := ⟨AST_RUNS_HI, 0, 32⟩
/-- The address of AST_RERUNS (Table 19-9). -/
def AST_RERUNS : Nat := 0x14002C
def AST_RERUNS_COUNT : Field := ⟨AST_RERUNS, 0, 32⟩
/-- The address of AST_FAULT_PROG (Table 19-9). -/
def AST_FAULT_PROG : Nat := 0x140030
def AST_FAULT_PROG_BUDGET : Field := ⟨AST_FAULT_PROG, 0, 16⟩
def AST_FAULT_PROG_ADDR : Field := ⟨AST_FAULT_PROG, 16, 8⟩
def AST_FAULT_PROG_MEM : Field := ⟨AST_FAULT_PROG, 24, 8⟩
/-- The address of AST_FAULT_TIME (Table 19-9). -/
def AST_FAULT_TIME : Nat := 0x140034
def AST_FAULT_TIME_DEADLINE : Field := ⟨AST_FAULT_TIME, 0, 16⟩
def AST_FAULT_TIME_ENGINE : Field := ⟨AST_FAULT_TIME, 16, 8⟩
def AST_FAULT_TIME_NO_PROGRAM : Field := ⟨AST_FAULT_TIME, 24, 8⟩
/-- The address of AST_CYCLES_MAX (Table 19-9). -/
def AST_CYCLES_MAX : Nat := 0x140038
def AST_CYCLES_MAX_CYCLES : Field := ⟨AST_CYCLES_MAX, 0, 16⟩
def AST_CYCLES_MAX_SLOT : Field := ⟨AST_CYCLES_MAX, 16, 4⟩
/-- The address of AST_LATE (Table 19-9). -/
def AST_LATE : Nat := 0x14003C
def AST_LATE_US : Field := ⟨AST_LATE, 0, 32⟩
/-- The address of AST_SLOT_PROG (Table 19-9). -/
def AST_SLOT_PROG (i : Nat) : Nat := 0x140100 + 0x10 * i
def AST_SLOT_PROG_AREA (i : Nat) : Field := ⟨(AST_SLOT_PROG i), 0, 5⟩
def AST_SLOT_PROG_LEN (i : Nat) : Field := ⟨(AST_SLOT_PROG i), 8, 11⟩
/-- The address of AST_SLOT_LIM (Table 19-9). -/
def AST_SLOT_LIM (i : Nat) : Nat := 0x140104 + 0x10 * i
def AST_SLOT_LIM_BUDGET (i : Nat) : Field := ⟨(AST_SLOT_LIM i), 0, 16⟩
def AST_SLOT_LIM_DEADLINE_US (i : Nat) : Field := ⟨(AST_SLOT_LIM i), 16, 16⟩
/-- The address of AST_SLOT_DBASE (Table 19-9). -/
def AST_SLOT_DBASE (i : Nat) : Nat := 0x140108 + 0x10 * i
def AST_SLOT_DBASE_DATA_BASE (i : Nat) : Field := ⟨(AST_SLOT_DBASE i), 0, 21⟩
/-- The address of AST_SLOT_DLEN (Table 19-9). -/
def AST_SLOT_DLEN (i : Nat) : Nat := 0x14010C + 0x10 * i
def AST_SLOT_DLEN_DATA_LEN (i : Nat) : Field := ⟨(AST_SLOT_DLEN i), 0, 21⟩
/-- The address of AST_ENG (Table 19-9). -/
def AST_ENG (i : Nat) : Nat := 0x140200 + 0x4 * i
def AST_ENG_STATE (i : Nat) : Field := ⟨(AST_ENG i), 0, 2⟩
def AST_ENG_FAULTS (i : Nat) : Field := ⟨(AST_ENG i), 8, 8⟩
def AST_ENG_RATE (i : Nat) : Field := ⟨(AST_ENG i), 16, 16⟩
/-- The address of DRL_STATUS (Table 19-9). -/
def DRL_STATUS : Nat := 0x150000
def DRL_STATUS_SET_PENDING : Field := ⟨DRL_STATUS, 0, 1⟩
def DRL_STATUS_E_LOW : Field := ⟨DRL_STATUS, 1, 1⟩
def DRL_STATUS_VBOOST_STALE : Field := ⟨DRL_STATUS, 2, 1⟩
def DRL_STATUS_HOT : Field := ⟨DRL_STATUS, 3, 1⟩
def DRL_STATUS_WAITING : Field := ⟨DRL_STATUS, 4, 12⟩
/-- The address of DRL_CTRL (Table 19-9). -/
def DRL_CTRL : Nat := 0x150004
def DRL_CTRL_LEARN_ON : Field := ⟨DRL_CTRL, 0, 1⟩
/-- The address of DRL_CMD (Table 19-9). -/
def DRL_CMD : Nat := 0x150008
def DRL_CMD_CLR_COUNTERS : Field := ⟨DRL_CMD, 0, 1⟩
/-- The address of DRL_GEOM (Table 19-9). -/
def DRL_GEOM : Nat := 0x15000C
def DRL_GEOM_ROW_PITCH : Field := ⟨DRL_GEOM, 0, 21⟩
/-- The address of DRL_FLIGHT (Table 19-9). -/
def DRL_FLIGHT : Nat := 0x150010
def DRL_FLIGHT_DIST : Field := ⟨DRL_FLIGHT, 0, 11⟩
def DRL_FLIGHT_G_MMS2 : Field := ⟨DRL_FLIGHT, 16, 14⟩
/-- The address of DRL_WINDOW (Table 19-9). -/
def DRL_WINDOW : Nat := 0x150014
def DRL_WINDOW_PRE_US : Field := ⟨DRL_WINDOW, 0, 16⟩
def DRL_WINDOW_POST_US : Field := ⟨DRL_WINDOW, 16, 16⟩
/-- The address of DRL_ONTIME (Table 19-9). -/
def DRL_ONTIME : Nat := 0x150018
def DRL_ONTIME_MIN_ON : Field := ⟨DRL_ONTIME, 0, 16⟩
def DRL_ONTIME_MAX_ON : Field := ⟨DRL_ONTIME, 16, 16⟩
/-- The address of DRL_SET (Table 19-9). -/
def DRL_SET : Nat := 0x15001C
def DRL_SET_MAX_VALVES : Field := ⟨DRL_SET, 0, 4⟩
def DRL_SET_WIDE_COLS : Field := ⟨DRL_SET, 4, 8⟩
def DRL_SET_LATE_TOL : Field := ⟨DRL_SET, 16, 10⟩
/-- The address of DRL_BOOST (Table 19-9). -/
def DRL_BOOST : Nat := 0x150020
def DRL_BOOST_BOOST_LIMIT : Field := ⟨DRL_BOOST, 0, 4⟩
def DRL_BOOST_DEFER_US : Field := ⟨DRL_BOOST, 4, 12⟩
def DRL_BOOST_MERGE_GAP : Field := ⟨DRL_BOOST, 16, 16⟩
/-- The address of DRL_LEARN (Table 19-9). -/
def DRL_LEARN : Nat := 0x150024
def DRL_LEARN_LEAD_SHIFT : Field := ⟨DRL_LEARN, 0, 4⟩
def DRL_LEARN_AIR_US : Field := ⟨DRL_LEARN, 16, 16⟩
/-- The address of DRL_RESERVOIR (Table 19-9). -/
def DRL_RESERVOIR : Nat := 0x150028
def DRL_RESERVOIR_C_BOOST : Field := ⟨DRL_RESERVOIR, 0, 16⟩
def DRL_RESERVOIR_RECHARGE_MW : Field := ⟨DRL_RESERVOIR, 16, 16⟩
/-- The address of DRL_VLIMIT (Table 19-9). -/
def DRL_VLIMIT : Nat := 0x15002C
def DRL_VLIMIT_V_FLOOR : Field := ⟨DRL_VLIMIT, 0, 16⟩
def DRL_VLIMIT_V_FULL : Field := ⟨DRL_VLIMIT, 16, 16⟩
/-- The address of DRL_E_EST (Table 19-9). -/
def DRL_E_EST : Nat := 0x150030
def DRL_E_EST_E_EST : Field := ⟨DRL_E_EST, 0, 32⟩
/-- The address of DRL_CLASS_LEAD (Table 19-9). -/
def DRL_CLASS_LEAD (i : Nat) : Nat := 0x150040 + 0x10 * i
def DRL_CLASS_LEAD_LEAD_MIN (i : Nat) : Field := ⟨(DRL_CLASS_LEAD i), 0, 16⟩
def DRL_CLASS_LEAD_LEAD_MAX (i : Nat) : Field := ⟨(DRL_CLASS_LEAD i), 16, 16⟩
/-- The address of DRL_CLASS_COIL (Table 19-9). -/
def DRL_CLASS_COIL (i : Nat) : Nat := 0x150044 + 0x10 * i
def DRL_CLASS_COIL_R_COIL (i : Nat) : Field := ⟨(DRL_CLASS_COIL i), 0, 16⟩
def DRL_CLASS_COIL_K_TH (i : Nat) : Field := ⟨(DRL_CLASS_COIL i), 16, 16⟩
/-- The address of DRL_CLASS_TH (Table 19-9). -/
def DRL_CLASS_TH (i : Nat) : Nat := 0x150048 + 0x10 * i
def DRL_CLASS_TH_TAU (i : Nat) : Field := ⟨(DRL_CLASS_TH i), 0, 16⟩
def DRL_CLASS_TH_THETA_MAX (i : Nat) : Field := ⟨(DRL_CLASS_TH i), 16, 16⟩
/-- The address of DRL_CLASS_E (Table 19-9). -/
def DRL_CLASS_E (i : Nat) : Nat := 0x15004C + 0x10 * i
def DRL_CLASS_E_E_PULL (i : Nat) : Field := ⟨(DRL_CLASS_E i), 0, 24⟩
def DRL_CLASS_E_E_SHIFT (i : Nat) : Field := ⟨(DRL_CLASS_E i), 24, 4⟩
/-- The address of DRL_PLANS_LO (Table 19-9). -/
def DRL_PLANS_LO : Nat := 0x150100
def DRL_PLANS_LO_COUNT : Field := ⟨DRL_PLANS_LO, 0, 32⟩
/-- The address of DRL_PLANS_HI (Table 19-9). -/
def DRL_PLANS_HI : Nat := 0x150104
def DRL_PLANS_HI_COUNT : Field := ⟨DRL_PLANS_HI, 0, 32⟩
/-- The address of DRL_GATES_LO (Table 19-9). -/
def DRL_GATES_LO : Nat := 0x150108
def DRL_GATES_LO_COUNT : Field := ⟨DRL_GATES_LO, 0, 32⟩
/-- The address of DRL_GATES_HI (Table 19-9). -/
def DRL_GATES_HI : Nat := 0x15010C
def DRL_GATES_HI_COUNT : Field := ⟨DRL_GATES_HI, 0, 32⟩
/-- The address of DRL_DEFER (Table 19-9). -/
def DRL_DEFER : Nat := 0x150110
def DRL_DEFER_GROUP : Field := ⟨DRL_DEFER, 0, 16⟩
def DRL_DEFER_COLUMN : Field := ⟨DRL_DEFER, 16, 16⟩
/-- The address of DRL_FALLBACK (Table 19-9). -/
def DRL_FALLBACK : Nat := 0x150114
def DRL_FALLBACK_WEAK : Field := ⟨DRL_FALLBACK, 0, 16⟩
def DRL_FALLBACK_SHARED : Field := ⟨DRL_FALLBACK, 16, 16⟩
/-- The address of DRL_TIMING (Table 19-9). -/
def DRL_TIMING : Nat := 0x150118
def DRL_TIMING_LATE : Field := ⟨DRL_TIMING, 0, 16⟩
def DRL_TIMING_MISSED : Field := ⟨DRL_TIMING, 16, 16⟩
/-- The address of DRL_HEAT_CNT (Table 19-9). -/
def DRL_HEAT_CNT : Nat := 0x15011C
def DRL_HEAT_CNT_HOT_HOLD : Field := ⟨DRL_HEAT_CNT, 0, 16⟩
def DRL_HEAT_CNT_ENERGY : Field := ⟨DRL_HEAT_CNT, 16, 16⟩
/-- The address of DRL_FAST (Table 19-9). -/
def DRL_FAST : Nat := 0x150120
def DRL_FAST_COUNT : Field := ⟨DRL_FAST, 0, 24⟩
def DRL_FAST_PLAN_OVERFLOW : Field := ⟨DRL_FAST, 24, 8⟩
/-- The address of DRL_RATE_HIGH (Table 19-9). -/
def DRL_RATE_HIGH : Nat := 0x150124
def DRL_RATE_HIGH_COUNT : Field := ⟨DRL_RATE_HIGH, 0, 32⟩
/-- The address of DRL_VALVE (Table 19-9). -/
def DRL_VALVE (i : Nat) : Nat := 0x151000 + 0x4 * i
def DRL_VALVE_LEAD (i : Nat) : Field := ⟨(DRL_VALVE i), 0, 16⟩
def DRL_VALVE_CLASS (i : Nat) : Field := ⟨(DRL_VALVE i), 16, 2⟩
def DRL_VALVE_DISABLED (i : Nat) : Field := ⟨(DRL_VALVE i), 18, 1⟩
def DRL_VALVE_LEAD_LIMIT (i : Nat) : Field := ⟨(DRL_VALVE i), 19, 1⟩
/-- The address of DRL_THETA (Table 19-9). -/
def DRL_THETA (i : Nat) : Nat := 0x152000 + 0x4 * i
def DRL_THETA_THETA (i : Nat) : Field := ⟨(DRL_THETA i), 0, 32⟩
/-- The address of VLV_STATUS (Table 19-9). -/
def VLV_STATUS : Nat := 0x160000
def VLV_STATUS_ENABLED : Field := ⟨VLV_STATUS, 0, 1⟩
def VLV_STATUS_STOPPED : Field := ⟨VLV_STATUS, 1, 1⟩
def VLV_STATUS_SCAN_BUSY : Field := ⟨VLV_STATUS, 2, 1⟩
def VLV_STATUS_SET_PENDING : Field := ⟨VLV_STATUS, 3, 1⟩
def VLV_STATUS_GROUPS_DIS : Field := ⟨VLV_STATUS, 4, 5⟩
def VLV_STATUS_COLS_DIS : Field := ⟨VLV_STATUS, 9, 7⟩
def VLV_STATUS_VALVES_DIS : Field := ⟨VLV_STATUS, 16, 11⟩
/-- The address of VLV_CTRL (Table 19-9). -/
def VLV_CTRL : Nat := 0x160004
def VLV_CTRL_STUCK_STOP : Field := ⟨VLV_CTRL, 0, 1⟩
def VLV_CTRL_SCAN_ON : Field := ⟨VLV_CTRL, 1, 1⟩
def VLV_CTRL_VALVE_OPEN_N : Field := ⟨VLV_CTRL, 2, 4⟩
/-- The address of VLV_CMD (Table 19-9). -/
def VLV_CMD : Nat := 0x160008
def VLV_CMD_ACTION : Field := ⟨VLV_CMD, 0, 2⟩
def VLV_CMD_TARGET : Field := ⟨VLV_CMD, 2, 2⟩
def VLV_CMD_INDEX : Field := ⟨VLV_CMD, 4, 10⟩
/-- The address of VLV_SENSE (Table 19-9). -/
def VLV_SENSE : Nat := 0x16000C
def VLV_SENSE_SHUNT_UOHM : Field := ⟨VLV_SENSE, 0, 16⟩
/-- The address of VLV_DIAG (Table 19-9). -/
def VLV_DIAG : Nat := 0x160010
def VLV_DIAG_SC_MA : Field := ⟨VLV_DIAG, 0, 14⟩
def VLV_DIAG_LEAK_MA : Field := ⟨VLV_DIAG, 14, 10⟩
/-- The address of VLV_SCAN (Table 19-9). -/
def VLV_SCAN : Nat := 0x160014
def VLV_SCAN_SCAN_PERIOD : Field := ⟨VLV_SCAN, 0, 16⟩
def VLV_SCAN_SCAN_IDLE : Field := ⟨VLV_SCAN, 16, 8⟩
/-- The address of VLV_AUX_CMD (Table 19-9). -/
def VLV_AUX_CMD : Nat := 0x160018
def VLV_AUX_CMD_CHANNEL : Field := ⟨VLV_AUX_CMD, 0, 1⟩
def VLV_AUX_CMD_SECOND : Field := ⟨VLV_AUX_CMD, 1, 1⟩
def VLV_AUX_CMD_DURATION_MS : Field := ⟨VLV_AUX_CMD, 16, 16⟩
/-- The address of VLV_AUX_STATUS (Table 19-9). -/
def VLV_AUX_STATUS : Nat := 0x16001C
def VLV_AUX_STATUS_STATE0 : Field := ⟨VLV_AUX_STATUS, 0, 3⟩
def VLV_AUX_STATUS_AUX_FAULT0 : Field := ⟨VLV_AUX_STATUS, 3, 1⟩
def VLV_AUX_STATUS_STATE1 : Field := ⟨VLV_AUX_STATUS, 4, 3⟩
def VLV_AUX_STATUS_AUX_FAULT1 : Field := ⟨VLV_AUX_STATUS, 7, 1⟩
/-- The address of VLV_LAST_FAULT (Table 19-9). -/
def VLV_LAST_FAULT : Nat := 0x160020
def VLV_LAST_FAULT_CODE : Field := ⟨VLV_LAST_FAULT, 0, 8⟩
def VLV_LAST_FAULT_TARGET : Field := ⟨VLV_LAST_FAULT, 8, 2⟩
def VLV_LAST_FAULT_INDEX : Field := ⟨VLV_LAST_FAULT, 10, 10⟩
/-- The address of VLV_DIP_FOUND (Table 19-9). -/
def VLV_DIP_FOUND : Nat := 0x160024
def VLV_DIP_FOUND_COUNT : Field := ⟨VLV_DIP_FOUND, 0, 32⟩
/-- The address of VLV_DIP_MISS (Table 19-9). -/
def VLV_DIP_MISS : Nat := 0x160028
def VLV_DIP_MISS_COUNT : Field := ⟨VLV_DIP_MISS, 0, 32⟩
/-- The address of VLV_FAULTS (Table 19-9). -/
def VLV_FAULTS : Nat := 0x16002C
def VLV_FAULTS_FAULTS : Field := ⟨VLV_FAULTS, 0, 16⟩
def VLV_FAULTS_PEAK_TIMEOUT : Field := ⟨VLV_FAULTS, 16, 16⟩
/-- The address of VLV_SHARE_EXT (Table 19-9). -/
def VLV_SHARE_EXT : Nat := 0x160030
def VLV_SHARE_EXT_COUNT : Field := ⟨VLV_SHARE_EXT, 0, 16⟩
def VLV_SHARE_EXT_MAX_US : Field := ⟨VLV_SHARE_EXT, 16, 16⟩
/-- The address of VLV_GROUP (Table 19-9). -/
def VLV_GROUP (i : Nat) : Nat := 0x160040 + 0x4 * i
def VLV_GROUP_RAIL (i : Nat) : Field := ⟨(VLV_GROUP i), 0, 2⟩
def VLV_GROUP_DISABLED (i : Nat) : Field := ⟨(VLV_GROUP i), 2, 1⟩
def VLV_GROUP_BOOST_LOST (i : Nat) : Field := ⟨(VLV_GROUP i), 3, 1⟩
def VLV_GROUP_BOOST_STUCK (i : Nat) : Field := ⟨(VLV_GROUP i), 4, 1⟩
def VLV_GROUP_FAULT (i : Nat) : Field := ⟨(VLV_GROUP i), 8, 8⟩
def VLV_GROUP_NODE (i : Nat) : Field := ⟨(VLV_GROUP i), 16, 12⟩
/-- The address of VLV_COLUMN (Table 19-9). -/
def VLV_COLUMN (i : Nat) : Nat := 0x160100 + 0x4 * i
def VLV_COLUMN_DISABLED (i : Nat) : Field := ⟨(VLV_COLUMN i), 0, 1⟩
def VLV_COLUMN_SHARED (i : Nat) : Field := ⟨(VLV_COLUMN i), 1, 1⟩
def VLV_COLUMN_ENERGISED (i : Nat) : Field := ⟨(VLV_COLUMN i), 2, 5⟩
def VLV_COLUMN_FAULT (i : Nat) : Field := ⟨(VLV_COLUMN i), 8, 8⟩
def VLV_COLUMN_CURRENT (i : Nat) : Field := ⟨(VLV_COLUMN i), 16, 14⟩
/-- The address of VLV_PROF_0 (Table 19-9). -/
def VLV_PROF_0 (i : Nat) : Nat := 0x161000 + 0x20 * i
def VLV_PROF_0_PEAK_MA (i : Nat) : Field := ⟨(VLV_PROF_0 i), 0, 13⟩
def VLV_PROF_0_HOLD_MA (i : Nat) : Field := ⟨(VLV_PROF_0 i), 16, 13⟩
/-- The address of VLV_PROF_1 (Table 19-9). -/
def VLV_PROF_1 (i : Nat) : Nat := 0x161004 + 0x20 * i
def VLV_PROF_1_BOOST_MAX (i : Nat) : Field := ⟨(VLV_PROF_1 i), 0, 16⟩
def VLV_PROF_1_CHOP_KHZ (i : Nat) : Field := ⟨(VLV_PROF_1 i), 16, 6⟩
def VLV_PROF_1_FAST_MULT (i : Nat) : Field := ⟨(VLV_PROF_1 i), 22, 4⟩
/-- The address of VLV_PROF_2 (Table 19-9). -/
def VLV_PROF_2 (i : Nat) : Nat := 0x161008 + 0x20 * i
def VLV_PROF_2_RELEASE_MA (i : Nat) : Field := ⟨(VLV_PROF_2 i), 0, 13⟩
def VLV_PROF_2_DECAY_US (i : Nat) : Field := ⟨(VLV_PROF_2 i), 16, 16⟩
/-- The address of VLV_PROF_3 (Table 19-9). -/
def VLV_PROF_3 (i : Nat) : Nat := 0x16100C + 0x20 * i
def VLV_PROF_3_DIP_START (i : Nat) : Field := ⟨(VLV_PROF_3 i), 0, 16⟩
def VLV_PROF_3_DIP_END (i : Nat) : Field := ⟨(VLV_PROF_3 i), 16, 16⟩
/-- The address of VLV_PROF_4 (Table 19-9). -/
def VLV_PROF_4 (i : Nat) : Nat := 0x161010 + 0x20 * i
def VLV_PROF_4_DIP_DEPTH_MA (i : Nat) : Field := ⟨(VLV_PROF_4 i), 0, 10⟩
def VLV_PROF_4_DIP_EN (i : Nat) : Field := ⟨(VLV_PROF_4 i), 16, 1⟩
/-- The address of VLV_PROF_5 (Table 19-9). -/
def VLV_PROF_5 (i : Nat) : Nat := 0x161014 + 0x20 * i
def VLV_PROF_5_OPEN_MA (i : Nat) : Field := ⟨(VLV_PROF_5 i), 0, 12⟩
def VLV_PROF_5_OPEN_US (i : Nat) : Field := ⟨(VLV_PROF_5 i), 16, 12⟩
/-- The address of VLV_PROF_6 (Table 19-9). -/
def VLV_PROF_6 (i : Nat) : Nat := 0x161018 + 0x20 * i
/-- The address of VLV_PROF_7 (Table 19-9). -/
def VLV_PROF_7 (i : Nat) : Nat := 0x16101C + 0x20 * i
/-- The address of VLV_VALVE (Table 19-9). -/
def VLV_VALVE (i : Nat) : Nat := 0x162000 + 0x4 * i
def VLV_VALVE_PROFILE (i : Nat) : Field := ⟨(VLV_VALVE i), 0, 4⟩
def VLV_VALVE_STATE (i : Nat) : Field := ⟨(VLV_VALVE i), 4, 3⟩
def VLV_VALVE_SHARED (i : Nat) : Field := ⟨(VLV_VALVE i), 7, 1⟩
def VLV_VALVE_FAULT (i : Nat) : Field := ⟨(VLV_VALVE i), 8, 8⟩
def VLV_VALVE_OPEN_RUN (i : Nat) : Field := ⟨(VLV_VALVE i), 16, 4⟩
/-- The address of VLV_LAST (Table 19-9). -/
def VLV_LAST (i : Nat) : Nat := 0x163000 + 0x4 * i
def VLV_LAST_MOVE (i : Nat) : Field := ⟨(VLV_LAST i), 0, 16⟩
def VLV_LAST_BOOST_US (i : Nat) : Field := ⟨(VLV_LAST i), 16, 16⟩
/-- The address of HKC_STATUS (Table 19-9). -/
def HKC_STATUS : Nat := 0x170000
def HKC_STATUS_RUNNING : Field := ⟨HKC_STATUS, 0, 1⟩
def HKC_STATUS_CAL_BUSY : Field := ⟨HKC_STATUS, 1, 1⟩
def HKC_STATUS_EXC_BUSY : Field := ⟨HKC_STATUS, 2, 1⟩
def HKC_STATUS_SET_PENDING : Field := ⟨HKC_STATUS, 3, 1⟩
def HKC_STATUS_UNCAL : Field := ⟨HKC_STATUS, 4, 6⟩
def HKC_STATUS_ENTRY : Field := ⟨HKC_STATUS, 10, 5⟩
/-- The address of HKC_CTRL (Table 19-9). -/
def HKC_CTRL : Nat := 0x170004
def HKC_CTRL_RUN : Field := ⟨HKC_CTRL, 0, 1⟩
def HKC_CTRL_CAL_RATE : Field := ⟨HKC_CTRL, 1, 3⟩
def HKC_CTRL_PASS_GAP : Field := ⟨HKC_CTRL, 4, 12⟩
/-- The address of HKC_CMD (Table 19-9). -/
def HKC_CMD : Nat := 0x170008
def HKC_CMD_SELF_CAL : Field := ⟨HKC_CMD, 0, 1⟩
def HKC_CMD_CAL_GAIN : Field := ⟨HKC_CMD, 1, 3⟩
def HKC_CMD_EXC_CAL : Field := ⟨HKC_CMD, 4, 1⟩
/-- The address of HKC_PASS (Table 19-9). -/
def HKC_PASS : Nat := 0x17000C
def HKC_PASS_COUNT : Field := ⟨HKC_PASS, 0, 32⟩
/-- The address of HKC_IEXC (Table 19-9). -/
def HKC_IEXC (i : Nat) : Nat := 0x170010 + 0x4 * i
def HKC_IEXC_CUR (i : Nat) : Field := ⟨(HKC_IEXC i), 0, 28⟩
/-- The address of HKC_OFS (Table 19-9). -/
def HKC_OFS (i : Nat) : Nat := 0x170040 + 0x4 * i
def HKC_OFS_OFS (i : Nat) : Field := ⟨(HKC_OFS i), 0, 32⟩
/-- The address of HKC_GAIN (Table 19-9). -/
def HKC_GAIN (i : Nat) : Nat := 0x170060 + 0x4 * i
def HKC_GAIN_GAIN (i : Nat) : Field := ⟨(HKC_GAIN i), 0, 32⟩
/-- The address of HKC_TH_C0 (Table 19-9). -/
def HKC_TH_C0 (i : Nat) : Nat := 0x170100 + 0x10 * i
def HKC_TH_C0_C0 (i : Nat) : Field := ⟨(HKC_TH_C0 i), 0, 32⟩
/-- The address of HKC_TH_C1 (Table 19-9). -/
def HKC_TH_C1 (i : Nat) : Nat := 0x170104 + 0x10 * i
def HKC_TH_C1_C1 (i : Nat) : Field := ⟨(HKC_TH_C1 i), 0, 32⟩
/-- The address of HKC_TH_C2 (Table 19-9). -/
def HKC_TH_C2 (i : Nat) : Nat := 0x170108 + 0x10 * i
def HKC_TH_C2_C2 (i : Nat) : Field := ⟨(HKC_TH_C2 i), 0, 32⟩
/-- The address of HKC_SEQ (Table 19-9). -/
def HKC_SEQ (i : Nat) : Nat := 0x170200 + 0x4 * i
def HKC_SEQ_SOURCE (i : Nat) : Field := ⟨(HKC_SEQ i), 0, 5⟩
def HKC_SEQ_EN (i : Nat) : Field := ⟨(HKC_SEQ i), 5, 1⟩
def HKC_SEQ_ORDER (i : Nat) : Field := ⟨(HKC_SEQ i), 6, 3⟩
def HKC_SEQ_RATE (i : Nat) : Field := ⟨(HKC_SEQ i), 9, 3⟩
def HKC_SEQ_GAIN (i : Nat) : Field := ⟨(HKC_SEQ i), 12, 3⟩
def HKC_SEQ_EXC (i : Nat) : Field := ⟨(HKC_SEQ i), 16, 3⟩
/-- The address of HKC_RAW (Table 19-9). -/
def HKC_RAW (i : Nat) : Nat := 0x170300 + 0x8 * i
def HKC_RAW_CODE (i : Nat) : Field := ⟨(HKC_RAW i), 0, 24⟩
def HKC_RAW_OVR (i : Nat) : Field := ⟨(HKC_RAW i), 24, 1⟩
def HKC_RAW_VALID (i : Nat) : Field := ⟨(HKC_RAW i), 25, 1⟩
/-- The address of HKC_VAL (Table 19-9). -/
def HKC_VAL (i : Nat) : Nat := 0x170304 + 0x8 * i
def HKC_VAL_VALUE (i : Nat) : Field := ⟨(HKC_VAL i), 0, 32⟩
/-- The address of DMA_STATUS (Table 19-9). -/
def DMA_STATUS : Nat := 0x180000
def DMA_STATUS_RUNNING : Field := ⟨DMA_STATUS, 0, 8⟩
def DMA_STATUS_HALTED : Field := ⟨DMA_STATUS, 8, 8⟩
/-- The address of DMA_IRQ (Table 19-9). -/
def DMA_IRQ : Nat := 0x180004
def DMA_IRQ_DONE : Field := ⟨DMA_IRQ, 0, 8⟩
/-- The address of DMA_IRQ_EN (Table 19-9). -/
def DMA_IRQ_EN : Nat := 0x180008
def DMA_IRQ_EN_EN : Field := ⟨DMA_IRQ_EN, 0, 8⟩
/-- The address of DMA_CH_CTRL (Table 19-9). -/
def DMA_CH_CTRL (i : Nat) : Nat := 0x180100 + 0x40 * i
def DMA_CH_CTRL_START (i : Nat) : Field := ⟨(DMA_CH_CTRL i), 0, 1⟩
def DMA_CH_CTRL_PAUSE (i : Nat) : Field := ⟨(DMA_CH_CTRL i), 1, 1⟩
def DMA_CH_CTRL_RESUME (i : Nat) : Field := ⟨(DMA_CH_CTRL i), 2, 1⟩
def DMA_CH_CTRL_ABORT (i : Nat) : Field := ⟨(DMA_CH_CTRL i), 3, 1⟩
/-- The address of DMA_CH_STATUS (Table 19-9). -/
def DMA_CH_STATUS (i : Nat) : Nat := 0x180104 + 0x40 * i
def DMA_CH_STATUS_STATE (i : Nat) : Field := ⟨(DMA_CH_STATUS i), 0, 2⟩
def DMA_CH_STATUS_QUEUED (i : Nat) : Field := ⟨(DMA_CH_STATUS i), 2, 1⟩
def DMA_CH_STATUS_MISMATCH (i : Nat) : Field := ⟨(DMA_CH_STATUS i), 3, 1⟩
def DMA_CH_STATUS_ERR (i : Nat) : Field := ⟨(DMA_CH_STATUS i), 4, 4⟩
def DMA_CH_STATUS_FILL_PCT (i : Nat) : Field := ⟨(DMA_CH_STATUS i), 8, 8⟩
def DMA_CH_STATUS_RETRIES (i : Nat) : Field := ⟨(DMA_CH_STATUS i), 16, 3⟩
/-- The address of DMA_CH_SRC_LO (Table 19-9). -/
def DMA_CH_SRC_LO (i : Nat) : Nat := 0x180108 + 0x40 * i
def DMA_CH_SRC_LO_ADDR (i : Nat) : Field := ⟨(DMA_CH_SRC_LO i), 0, 32⟩
/-- The address of DMA_CH_SRC_HI (Table 19-9). -/
def DMA_CH_SRC_HI (i : Nat) : Nat := 0x18010C + 0x40 * i
def DMA_CH_SRC_HI_ADDR (i : Nat) : Field := ⟨(DMA_CH_SRC_HI i), 0, 32⟩
/-- The address of DMA_CH_DST_LO (Table 19-9). -/
def DMA_CH_DST_LO (i : Nat) : Nat := 0x180110 + 0x40 * i
def DMA_CH_DST_LO_ADDR (i : Nat) : Field := ⟨(DMA_CH_DST_LO i), 0, 32⟩
/-- The address of DMA_CH_DST_HI (Table 19-9). -/
def DMA_CH_DST_HI (i : Nat) : Nat := 0x180114 + 0x40 * i
def DMA_CH_DST_HI_ADDR (i : Nat) : Field := ⟨(DMA_CH_DST_HI i), 0, 32⟩
/-- The address of DMA_CH_COUNT (Table 19-9). -/
def DMA_CH_COUNT (i : Nat) : Nat := 0x180118 + 0x40 * i
def DMA_CH_COUNT_COUNT (i : Nat) : Field := ⟨(DMA_CH_COUNT i), 0, 24⟩
/-- The address of DMA_CH_MODE (Table 19-9). -/
def DMA_CH_MODE (i : Nat) : Nat := 0x18011C + 0x40 * i
def DMA_CH_MODE_OP (i : Nat) : Field := ⟨(DMA_CH_MODE i), 0, 2⟩
def DMA_CH_MODE_BARRIER (i : Nat) : Field := ⟨(DMA_CH_MODE i), 2, 1⟩
def DMA_CH_MODE_RETRY (i : Nat) : Field := ⟨(DMA_CH_MODE i), 3, 3⟩
def DMA_CH_MODE_SRC_W (i : Nat) : Field := ⟨(DMA_CH_MODE i), 6, 2⟩
def DMA_CH_MODE_DST_W (i : Nat) : Field := ⟨(DMA_CH_MODE i), 8, 2⟩
def DMA_CH_MODE_SRC_SPACE (i : Nat) : Field := ⟨(DMA_CH_MODE i), 10, 1⟩
def DMA_CH_MODE_DST_SPACE (i : Nat) : Field := ⟨(DMA_CH_MODE i), 11, 1⟩
def DMA_CH_MODE_SRC_CIRC (i : Nat) : Field := ⟨(DMA_CH_MODE i), 12, 5⟩
def DMA_CH_MODE_DST_CIRC (i : Nat) : Field := ⟨(DMA_CH_MODE i), 17, 5⟩
/-- The address of DMA_CH_FILL (Table 19-9). -/
def DMA_CH_FILL (i : Nat) : Nat := 0x180120 + 0x40 * i
def DMA_CH_FILL_FILL (i : Nat) : Field := ⟨(DMA_CH_FILL i), 0, 32⟩
/-- The address of DMA_CH_PACE (Table 19-9). -/
def DMA_CH_PACE (i : Nat) : Nat := 0x180124 + 0x40 * i
def DMA_CH_PACE_SHARE (i : Nat) : Field := ⟨(DMA_CH_PACE i), 0, 9⟩
def DMA_CH_PACE_HI_PCT (i : Nat) : Field := ⟨(DMA_CH_PACE i), 16, 7⟩
def DMA_CH_PACE_LO_PCT (i : Nat) : Field := ⟨(DMA_CH_PACE i), 24, 7⟩
/-- The address of DMA_CH_PROGRESS (Table 19-9). -/
def DMA_CH_PROGRESS (i : Nat) : Nat := 0x180128 + 0x40 * i
def DMA_CH_PROGRESS_DONE (i : Nat) : Field := ⟨(DMA_CH_PROGRESS i), 0, 24⟩
/-- The address of DMA_CH_ERROR (Table 19-9). -/
def DMA_CH_ERROR (i : Nat) : Nat := 0x18012C + 0x40 * i
def DMA_CH_ERROR_ADDR (i : Nat) : Field := ⟨(DMA_CH_ERROR i), 0, 32⟩
/-- The address of NVH_STATUS (Table 19-9). -/
def NVH_STATUS : Nat := 0x190000
def NVH_STATUS_DRIVE : Field := ⟨NVH_STATUS, 0, 3⟩
def NVH_STATUS_ARCHIVING : Field := ⟨NVH_STATUS, 3, 1⟩
def NVH_STATUS_LAYOUT_BAD : Field := ⟨NVH_STATUS, 4, 1⟩
def NVH_STATUS_LABEL_MISMATCH : Field := ⟨NVH_STATUS, 5, 1⟩
def NVH_STATUS_STAGING_FULL : Field := ⟨NVH_STATUS, 6, 1⟩
/-- The address of NVH_CTRL (Table 19-9). -/
def NVH_CTRL : Nat := 0x190004
def NVH_CTRL_ARCH_MODE : Field := ⟨NVH_CTRL, 0, 2⟩
def NVH_CTRL_FORMAT_BLANK : Field := ⟨NVH_CTRL, 2, 1⟩
def NVH_CTRL_SNAP_AUTO : Field := ⟨NVH_CTRL, 3, 1⟩
def NVH_CTRL_MAX_GEN : Field := ⟨NVH_CTRL, 4, 3⟩
/-- The address of NVH_CMD (Table 19-9). -/
def NVH_CMD : Nat := 0x190008
def NVH_CMD_FORMAT : Field := ⟨NVH_CMD, 0, 1⟩
def NVH_CMD_RESTART : Field := ⟨NVH_CMD, 1, 1⟩
def NVH_CMD_CLR_COUNTERS : Field := ⟨NVH_CMD, 2, 1⟩
/-- The address of NVH_TIMEOUT (Table 19-9). -/
def NVH_TIMEOUT : Nat := 0x19000C
def NVH_TIMEOUT_CMD_MS : Field := ⟨NVH_TIMEOUT, 0, 16⟩
def NVH_TIMEOUT_RETRIES : Field := ⟨NVH_TIMEOUT, 16, 4⟩
/-- The address of NVH_RECORD (Table 19-9). -/
def NVH_RECORD : Nat := 0x190010
def NVH_RECORD_REC_FLUSH_US : Field := ⟨NVH_RECORD, 0, 16⟩
/-- The address of NVH_SELECT (Table 19-9). -/
def NVH_SELECT : Nat := 0x190014
def NVH_SELECT_THUMB_SEL : Field := ⟨NVH_SELECT, 0, 4⟩
def NVH_SELECT_LINE_DECIM : Field := ⟨NVH_SELECT, 16, 16⟩
/-- The address of NVH_LINK (Table 19-9). -/
def NVH_LINK : Nat := 0x190018
def NVH_LINK_GEN : Field := ⟨NVH_LINK, 0, 3⟩
def NVH_LINK_WIDTH : Field := ⟨NVH_LINK, 3, 3⟩
def NVH_LINK_QUEUES : Field := ⟨NVH_LINK, 6, 3⟩
def NVH_LINK_LBA_512 : Field := ⟨NVH_LINK, 9, 1⟩
/-- The address of NVH_CAP_LO (Table 19-9). -/
def NVH_CAP_LO : Nat := 0x19001C
def NVH_CAP_LO_BLOCKS : Field := ⟨NVH_CAP_LO, 0, 32⟩
/-- The address of NVH_CAP_HI (Table 19-9). -/
def NVH_CAP_HI : Nat := 0x190020
def NVH_CAP_HI_BLOCKS : Field := ⟨NVH_CAP_HI, 0, 32⟩
/-- The address of NVH_SMART (Table 19-9). -/
def NVH_SMART : Nat := 0x190024
def NVH_SMART_WARNING : Field := ⟨NVH_SMART, 0, 8⟩
def NVH_SMART_USED_PCT : Field := ⟨NVH_SMART, 8, 8⟩
def NVH_SMART_TEMP_K : Field := ⟨NVH_SMART, 16, 16⟩
/-- The address of NVH_ARCHIVED_LO (Table 19-9). -/
def NVH_ARCHIVED_LO : Nat := 0x190028
def NVH_ARCHIVED_LO_RPOS : Field := ⟨NVH_ARCHIVED_LO, 0, 32⟩
/-- The address of NVH_ARCHIVED_HI (Table 19-9). -/
def NVH_ARCHIVED_HI : Nat := 0x19002C
def NVH_ARCHIVED_HI_RPOS : Field := ⟨NVH_ARCHIVED_HI, 0, 32⟩
/-- The address of NVH_SKIPPED (Table 19-9). -/
def NVH_SKIPPED : Nat := 0x190030
def NVH_SKIPPED_COUNT : Field := ⟨NVH_SKIPPED, 0, 32⟩
/-- The address of NVH_DROPS (Table 19-9). -/
def NVH_DROPS : Nat := 0x190034
def NVH_DROPS_THUMB_DROPPED : Field := ⟨NVH_DROPS, 0, 16⟩
def NVH_DROPS_LINES_SKIPPED : Field := ⟨NVH_DROPS, 16, 8⟩
def NVH_DROPS_SNAP_SKIPPED : Field := ⟨NVH_DROPS, 24, 8⟩
/-- The address of NVH_R_START (Table 19-9). -/
def NVH_R_START (i : Nat) : Nat := 0x190100 + 0x8 * i
def NVH_R_START_START (i : Nat) : Field := ⟨(NVH_R_START i), 0, 32⟩
/-- The address of NVH_R_SIZE (Table 19-9). -/
def NVH_R_SIZE (i : Nat) : Nat := 0x190104 + 0x8 * i
def NVH_R_SIZE_SIZE_LOG2 (i : Nat) : Field := ⟨(NVH_R_SIZE i), 0, 6⟩
/-- The address of ETH_STATUS (Table 19-9). -/
def ETH_STATUS : Nat := 0x1A0000
def ETH_STATUS_READY : Field := ⟨ETH_STATUS, 0, 4⟩
def ETH_STATUS_LINK : Field := ⟨ETH_STATUS, 4, 4⟩
def ETH_STATUS_REC_PORT : Field := ⟨ETH_STATUS, 8, 2⟩
def ETH_STATUS_FAILED_OVER : Field := ⟨ETH_STATUS, 10, 1⟩
def ETH_STATUS_WINDOW_FULL : Field := ⟨ETH_STATUS, 11, 1⟩
/-- The address of ETH_CTRL (Table 19-9). -/
def ETH_CTRL : Nat := 0x1A0004
def ETH_CTRL_BASE_PORT : Field := ⟨ETH_CTRL, 0, 16⟩
def ETH_CTRL_TTL : Field := ⟨ETH_CTRL, 16, 8⟩
/-- The address of ETH_CMD (Table 19-9). -/
def ETH_CMD : Nat := 0x1A0008
def ETH_CMD_CLR_COUNTERS : Field := ⟨ETH_CMD, 0, 1⟩
def ETH_CMD_RETURN : Field := ⟨ETH_CMD, 1, 1⟩
/-- The address of ETH_IP (Table 19-9). -/
def ETH_IP : Nat := 0x1A000C
def ETH_IP_ADDR : Field := ⟨ETH_IP, 0, 32⟩
/-- The address of ETH_MAC_LO (Table 19-9). -/
def ETH_MAC_LO : Nat := 0x1A0010
def ETH_MAC_LO_MAC : Field := ⟨ETH_MAC_LO, 0, 32⟩
/-- The address of ETH_MAC_HI (Table 19-9). -/
def ETH_MAC_HI : Nat := 0x1A0014
def ETH_MAC_HI_MAC : Field := ⟨ETH_MAC_HI, 0, 16⟩
/-- The address of ETH_VLAN (Table 19-9). -/
def ETH_VLAN : Nat := 0x1A0018
def ETH_VLAN_VID : Field := ⟨ETH_VLAN, 0, 12⟩
def ETH_VLAN_PCP : Field := ⟨ETH_VLAN, 12, 3⟩
def ETH_VLAN_EN : Field := ⟨ETH_VLAN, 15, 1⟩
/-- The address of ETH_REC (Table 19-9). -/
def ETH_REC : Nat := 0x1A001C
def ETH_REC_PER_PKT : Field := ⟨ETH_REC, 0, 6⟩
def ETH_REC_SEND_US : Field := ⟨ETH_REC, 8, 10⟩
/-- The address of ETH_REC_TIME (Table 19-9). -/
def ETH_REC_TIME : Nat := 0x1A0020
def ETH_REC_TIME_RTO_MS : Field := ⟨ETH_REC_TIME, 0, 8⟩
def ETH_REC_TIME_FAILOVER_MS : Field := ⟨ETH_REC_TIME, 8, 8⟩
def ETH_REC_TIME_ACK_DEAD_MS : Field := ⟨ETH_REC_TIME, 16, 16⟩
/-- The address of ETH_REC_ACKED_LO (Table 19-9). -/
def ETH_REC_ACKED_LO : Nat := 0x1A0024
def ETH_REC_ACKED_LO_ACKED : Field := ⟨ETH_REC_ACKED_LO, 0, 32⟩
/-- The address of ETH_REC_ACKED_HI (Table 19-9). -/
def ETH_REC_ACKED_HI : Nat := 0x1A0028
def ETH_REC_ACKED_HI_ACKED : Field := ⟨ETH_REC_ACKED_HI, 0, 32⟩
/-- The address of ETH_REC_RESENT (Table 19-9). -/
def ETH_REC_RESENT : Nat := 0x1A002C
def ETH_REC_RESENT_RESENT : Field := ⟨ETH_REC_RESENT, 0, 16⟩
def ETH_REC_RESENT_ACK_BAD : Field := ⟨ETH_REC_RESENT, 16, 16⟩
/-- The address of ETH_LOSS (Table 19-9). -/
def ETH_LOSS : Nat := 0x1A0030
def ETH_LOSS_LINE_LOST : Field := ⟨ETH_LOSS, 0, 16⟩
def ETH_LOSS_RAW_LOST : Field := ⟨ETH_LOSS, 16, 8⟩
def ETH_LOSS_EVT_LOST : Field := ⟨ETH_LOSS, 24, 8⟩
/-- The address of ETH_P_CTRL (Table 19-9). -/
def ETH_P_CTRL (i : Nat) : Nat := 0x1A0040 + 0x10 * i
def ETH_P_CTRL_MODE (i : Nat) : Field := ⟨(ETH_P_CTRL i), 0, 2⟩
def ETH_P_CTRL_FEC (i : Nat) : Field := ⟨(ETH_P_CTRL i), 2, 1⟩
def ETH_P_CTRL_JUMBO (i : Nat) : Field := ⟨(ETH_P_CTRL i), 3, 1⟩
/-- The address of ETH_P_STATUS (Table 19-9). -/
def ETH_P_STATUS (i : Nat) : Nat := 0x1A0044 + 0x10 * i
def ETH_P_STATUS_LINK (i : Nat) : Field := ⟨(ETH_P_STATUS i), 0, 1⟩
def ETH_P_STATUS_READY (i : Nat) : Field := ⟨(ETH_P_STATUS i), 1, 1⟩
def ETH_P_STATUS_LOCAL_FAULT (i : Nat) : Field := ⟨(ETH_P_STATUS i), 2, 1⟩
def ETH_P_STATUS_REMOTE_FAULT (i : Nat) : Field := ⟨(ETH_P_STATUS i), 3, 1⟩
def ETH_P_STATUS_HI_BER (i : Nat) : Field := ⟨(ETH_P_STATUS i), 4, 1⟩
def ETH_P_STATUS_LINK_DOWNS (i : Nat) : Field := ⟨(ETH_P_STATUS i), 16, 16⟩
/-- The address of ETH_P_DROP (Table 19-9). -/
def ETH_P_DROP (i : Nat) : Nat := 0x1A0048 + 0x10 * i
def ETH_P_DROP_EARLY (i : Nat) : Field := ⟨(ETH_P_DROP i), 0, 8⟩
def ETH_P_DROP_ADDR (i : Nat) : Field := ⟨(ETH_P_DROP i), 8, 8⟩
def ETH_P_DROP_FORMAT (i : Nat) : Field := ⟨(ETH_P_DROP i), 16, 8⟩
def ETH_P_DROP_OTHER (i : Nat) : Field := ⟨(ETH_P_DROP i), 24, 8⟩
/-- The address of ETH_P_FEC (Table 19-9). -/
def ETH_P_FEC (i : Nat) : Nat := 0x1A004C + 0x10 * i
def ETH_P_FEC_CORRECTED (i : Nat) : Field := ⟨(ETH_P_FEC i), 0, 16⟩
def ETH_P_FEC_UNCORRECTED (i : Nat) : Field := ⟨(ETH_P_FEC i), 16, 16⟩
/-- The address of ETH_S_CTRL (Table 19-9). -/
def ETH_S_CTRL (i : Nat) : Nat := 0x1A0100 + 0x10 * i
def ETH_S_CTRL_EN (i : Nat) : Field := ⟨(ETH_S_CTRL i), 0, 1⟩
def ETH_S_CTRL_PORT (i : Nat) : Field := ⟨(ETH_S_CTRL i), 1, 2⟩
def ETH_S_CTRL_BACKUP_EN (i : Nat) : Field := ⟨(ETH_S_CTRL i), 3, 1⟩
def ETH_S_CTRL_BACKUP (i : Nat) : Field := ⟨(ETH_S_CTRL i), 4, 2⟩
def ETH_S_CTRL_RAW_MODE (i : Nat) : Field := ⟨(ETH_S_CTRL i), 6, 1⟩
def ETH_S_CTRL_DPORT (i : Nat) : Field := ⟨(ETH_S_CTRL i), 16, 16⟩
/-- The address of ETH_S_DIP (Table 19-9). -/
def ETH_S_DIP (i : Nat) : Nat := 0x1A0104 + 0x10 * i
def ETH_S_DIP_DIP (i : Nat) : Field := ⟨(ETH_S_DIP i), 0, 32⟩
/-- The address of ETH_S_DMAC_LO (Table 19-9). -/
def ETH_S_DMAC_LO (i : Nat) : Nat := 0x1A0108 + 0x10 * i
def ETH_S_DMAC_LO_DMAC (i : Nat) : Field := ⟨(ETH_S_DMAC_LO i), 0, 32⟩
/-- The address of ETH_S_DMAC_HI (Table 19-9). -/
def ETH_S_DMAC_HI (i : Nat) : Nat := 0x1A010C + 0x10 * i
def ETH_S_DMAC_HI_DMAC (i : Nat) : Field := ⟨(ETH_S_DMAC_HI i), 0, 16⟩
/-- The address of PTP_STATUS (Table 19-9). -/
def PTP_STATUS : Nat := 0x1B0000
def PTP_STATUS_STATE : Field := ⟨PTP_STATUS, 0, 2⟩
def PTP_STATUS_SYNCED : Field := ⟨PTP_STATUS, 2, 1⟩
def PTP_STATUS_STEP_PENDING : Field := ⟨PTP_STATUS, 3, 1⟩
def PTP_STATUS_TWO_STEP : Field := ⟨PTP_STATUS, 4, 1⟩
/-- The address of PTP_CTRL (Table 19-9). -/
def PTP_CTRL : Nat := 0x1B0004
def PTP_CTRL_EN : Field := ⟨PTP_CTRL, 0, 1⟩
def PTP_CTRL_SOURCE : Field := ⟨PTP_CTRL, 1, 1⟩
def PTP_CTRL_PORT : Field := ⟨PTP_CTRL, 2, 2⟩
def PTP_CTRL_DOMAIN : Field := ⟨PTP_CTRL, 4, 8⟩
def PTP_CTRL_HOLDOVER_S : Field := ⟨PTP_CTRL, 16, 16⟩
/-- The address of PTP_SERVO (Table 19-9). -/
def PTP_SERVO : Nat := 0x1B0008
def PTP_SERVO_LOCK_NS : Field := ⟨PTP_SERVO, 0, 16⟩
def PTP_SERVO_SLEW_PPM : Field := ⟨PTP_SERVO, 16, 8⟩
def PTP_SERVO_STEP_US : Field := ⟨PTP_SERVO, 24, 8⟩
/-- The address of PTP_OFFSET (Table 19-9). -/
def PTP_OFFSET : Nat := 0x1B000C
def PTP_OFFSET_OFFSET : Field := ⟨PTP_OFFSET, 0, 32⟩
/-- The address of PTP_DELAY (Table 19-9). -/
def PTP_DELAY : Nat := 0x1B0010
def PTP_DELAY_DELAY : Field := ⟨PTP_DELAY, 0, 32⟩
/-- The address of PTP_FREQ (Table 19-9). -/
def PTP_FREQ : Nat := 0x1B0014
def PTP_FREQ_FREQ : Field := ⟨PTP_FREQ, 0, 32⟩
/-- The address of PTP_GM_LO (Table 19-9). -/
def PTP_GM_LO : Nat := 0x1B0018
def PTP_GM_LO_ID : Field := ⟨PTP_GM_LO, 0, 32⟩
/-- The address of PTP_GM_HI (Table 19-9). -/
def PTP_GM_HI : Nat := 0x1B001C
def PTP_GM_HI_ID : Field := ⟨PTP_GM_HI, 0, 32⟩
/-- The address of PTP_PPS (Table 19-9). -/
def PTP_PPS : Nat := 0x1B0020
def PTP_PPS_WIDTH_MS : Field := ⟨PTP_PPS, 0, 10⟩
/-- The address of PTP_PPS_IN_LO (Table 19-9). -/
def PTP_PPS_IN_LO : Nat := 0x1B0024
def PTP_PPS_IN_LO_TIME : Field := ⟨PTP_PPS_IN_LO, 0, 32⟩
/-- The address of PTP_PPS_IN_HI (Table 19-9). -/
def PTP_PPS_IN_HI : Nat := 0x1B0028
def PTP_PPS_IN_HI_TIME : Field := ⟨PTP_PPS_IN_HI, 0, 32⟩
/-- The address of PTP_COUNTS (Table 19-9). -/
def PTP_COUNTS : Nat := 0x1B002C
def PTP_COUNTS_SYNCS : Field := ⟨PTP_COUNTS, 0, 16⟩
def PTP_COUNTS_DROPPED : Field := ⟨PTP_COUNTS, 16, 8⟩
def PTP_COUNTS_STEPS : Field := ⟨PTP_COUNTS, 24, 8⟩

end Reg

/-! ### Rows of the index, one list per bank -/
def rowsGen : List RegRow :=
  [
   -- GEN_ID
   ⟨0x0, [], [⟨0, 32, .ro, 0x4A544096, []⟩]⟩,
   -- GEN_VERSION
   ⟨0x4, [], [⟨0, 8, .ro, 0x0, []⟩, ⟨8, 8, .ro, 0x0, []⟩, ⟨16, 2, .ro, 0x0, []⟩, ⟨24, 4, .ro, 0x1, []⟩]⟩,
   -- GEN_UID_LO
   ⟨0x8, [], [⟨0, 32, .ro, 0x0, []⟩]⟩,
   -- GEN_UID_HI
   ⟨0xC, [], [⟨0, 32, .ro, 0x0, []⟩]⟩,
   -- GEN_STATUS
   ⟨0x10, [], [⟨0, 1, .ro, 0x0, []⟩, ⟨1, 4, .ro, 0x1, []⟩, ⟨5, 1, .ro, 0x0, []⟩, ⟨6, 1, .ro, 0x0, []⟩, ⟨7, 1, .ro, 0x0, []⟩, ⟨8, 1, .ro, 0x0, []⟩, ⟨9, 1, .ro, 0x0, []⟩, ⟨10, 1, .ro, 0x0, []⟩, ⟨11, 1, .ro, 0x0, []⟩, ⟨12, 1, .ro, 0x0, []⟩, ⟨13, 1, .ro, 0x0, []⟩, ⟨14, 1, .ro, 0x0, []⟩, ⟨15, 1, .ro, 0x0, []⟩, ⟨16, 1, .ro, 0x0, []⟩, ⟨17, 1, .ro, 0x0, []⟩, ⟨18, 1, .ro, 0x0, []⟩, ⟨19, 1, .ro, 0x0, []⟩, ⟨20, 1, .ro, 0x0, []⟩]⟩,
   -- GEN_PINS
   ⟨0x14, [], [⟨0, 8, .ro, 0x0, []⟩, ⟨8, 1, .ro, 0x0, []⟩, ⟨9, 1, .ro, 0x0, []⟩, ⟨10, 1, .ro, 0x0, []⟩]⟩,
   -- GEN_EPOS_LO
   ⟨0x18, [], [⟨0, 32, .ro, 0x0, []⟩]⟩,
   -- GEN_EPOS_HI
   ⟨0x1C, [], [⟨0, 32, .ro, 0x0, []⟩]⟩,
   -- GEN_SCRATCH
   ⟨0x20, [], [⟨0, 32, .rw, 0x0, []⟩]⟩]

def rowsPwr : List RegRow :=
  [
   -- PWR_STATUS
   ⟨0x10000, [], [⟨0, 1, .ro, 0x0, []⟩, ⟨1, 1, .ro, 0x0, []⟩, ⟨2, 1, .ro, 0x0, []⟩, ⟨3, 1, .ro, 0x0, []⟩, ⟨4, 1, .ro, 0x0, []⟩, ⟨5, 1, .ro, 0x0, []⟩, ⟨6, 1, .ro, 0x0, []⟩, ⟨7, 12, .ro, 0x0, []⟩]⟩,
   -- PWR_CTRL
   ⟨0x10004, [], [⟨0, 1, .rw, 0x1, []⟩]⟩,
   -- PWR_CMD
   ⟨0x10008, [], [⟨0, 1, .wo, 0x0, []⟩]⟩,
   -- PWR_VID
   ⟨0x1000C, [], [⟨0, 5, .rw, 0x0, [(0x0, 0x1E)]⟩, ⟨8, 5, .rw, 0x1E, [(0x0, 0x1E)]⟩, ⟨16, 8, .rw, 0x8, [(0x3, 0x32)]⟩, ⟨24, 8, .rw, 0x14, [(0x0, 0x64)]⟩]⟩,
   -- PWR_VID_STATUS
   ⟨0x10010, [], [⟨0, 5, .ro, 0x14, []⟩, ⟨8, 8, .ro, 0x0, []⟩, ⟨16, 2, .ro, 0x0, []⟩]⟩,
   -- PWR_THROTTLE
   ⟨0x10014, [], [⟨0, 8, .rw, 0x5F, [(0x3C, 0x6E)]⟩, ⟨8, 8, .rw, 0x14, [(0x5, 0x64)]⟩, ⟨16, 8, .rw, 0x28, [(0xA, 0xC8)]⟩, ⟨24, 4, .rw, 0x8, [(0x1, 0xF)]⟩]⟩,
   -- PWR_THROTTLE_STATUS
   ⟨0x10018, [], [⟨0, 16, .ro, 0x0, []⟩, ⟨16, 4, .ro, 0x0, []⟩, ⟨20, 3, .ro, 0x0, []⟩, ⟨23, 9, .ro, 0x0, []⟩]⟩,
   -- PWR_TRIP
   ⟨0x1001C, [], [⟨0, 8, .rw, 0x7D, [(0x64, 0x82)]⟩, ⟨8, 8, .rw, 0x50, []⟩, ⟨16, 8, .rw, 0x32, [(0xA, 0xC8)]⟩]⟩,
   -- PWR_HOLDUP
   ⟨0x10020, [], [⟨0, 16, .ro, 0x0, []⟩, ⟨16, 12, .ro, 0x0, []⟩, ⟨28, 1, .ro, 0x0, []⟩, ⟨29, 1, .ro, 0x0, []⟩]⟩,
   -- PWR_SAVE_LAST
   ⟨0x10024, [], [⟨0, 2, .ro, 0x0, []⟩, ⟨4, 12, .ro, 0x0, []⟩, ⟨16, 16, .ro, 0x0, []⟩]⟩,
   -- PWR_REGION
   ⟨0x10040, [(0x4, 12)], [⟨0, 16, .rw, 0x0, [(0x0, 0xFA0)]⟩]⟩,
   -- PWR_TEMP
   ⟨0x10080, [(0x4, 12)], [⟨0, 32, .ro, 0x0, []⟩]⟩,
   -- PWR_LOAD
   ⟨0x100C0, [(0x4, 12)], [⟨0, 16, .ro, 0x0, []⟩, ⟨16, 15, .ro, 0x0, []⟩, ⟨31, 1, .ro, 0x0, []⟩]⟩,
   -- PWR_SENSOR
   ⟨0x10100, [(0x4, 24)], [⟨0, 16, .ro, 0x0, []⟩, ⟨16, 1, .ro, 0x0, []⟩, ⟨17, 2, .ro, 0x0, []⟩]⟩,
   -- PWR_DOM
   ⟨0x10200, [(0x4, 3)], [⟨0, 2, .ro, 0x0, []⟩, ⟨2, 2, .ro, 0x0, []⟩, ⟨4, 2, .ro, 0x0, []⟩, ⟨6, 2, .ro, 0x0, []⟩, ⟨8, 2, .ro, 0x0, []⟩, ⟨10, 2, .ro, 0x0, []⟩, ⟨12, 2, .ro, 0x0, []⟩, ⟨14, 2, .ro, 0x0, []⟩, ⟨16, 2, .ro, 0x0, []⟩, ⟨18, 2, .ro, 0x0, []⟩, ⟨20, 2, .ro, 0x0, []⟩, ⟨22, 2, .ro, 0x0, []⟩, ⟨24, 2, .ro, 0x0, []⟩, ⟨26, 2, .ro, 0x0, []⟩, ⟨28, 2, .ro, 0x0, []⟩, ⟨30, 2, .ro, 0x0, []⟩]⟩]

def rowsRst : List RegRow :=
  [
   -- RST_STATUS
   ⟨0x20000, [], [⟨0, 14, .ro, 0x0, []⟩, ⟨14, 1, .ro, 0x0, []⟩]⟩,
   -- RST_FUNC
   ⟨0x20004, [], [⟨0, 14, .wo, 0x0, []⟩]⟩,
   -- RST_AUTO
   ⟨0x20008, [], [⟨0, 14, .rw, 0x11FF, []⟩]⟩,
   -- RST_DEGRADED
   ⟨0x2000C, [], [⟨0, 7, .ro, 0x0, []⟩]⟩,
   -- RST_LAST
   ⟨0x20010, [], [⟨0, 4, .ro, 0x0, []⟩, ⟨4, 2, .ro, 0x0, []⟩, ⟨16, 16, .ro, 0x0, []⟩]⟩,
   -- RST_LAST_TIME_LO
   ⟨0x20014, [], [⟨0, 32, .ro, 0x0, []⟩]⟩,
   -- RST_LAST_TIME_HI
   ⟨0x20018, [], [⟨0, 32, .ro, 0x0, []⟩]⟩,
   -- RST_CMD
   ⟨0x2001C, [], [⟨0, 1, .wo, 0x0, []⟩]⟩,
   -- RST_COUNT
   ⟨0x20040, [(0x4, 14)], [⟨0, 16, .ro, 0x0, []⟩, ⟨16, 16, .ro, 0x0, []⟩]⟩]

def rowsTbs : List RegRow :=
  [
   -- TBS_STATUS
   ⟨0x30000, [], [⟨0, 1, .ro, 0x0, []⟩, ⟨1, 1, .ro, 0x0, []⟩, ⟨2, 1, .ro, 0x0, []⟩, ⟨3, 1, .ro, 0x0, []⟩, ⟨4, 4, .ro, 0x0, []⟩, ⟨14, 18, .ro, 0x2710, []⟩]⟩,
   -- TBS_CTRL
   ⟨0x30004, [], [⟨0, 1, .rw, 0x0, []⟩, ⟨1, 4, .rw, 0x4, [(0x2, 0xF)]⟩]⟩,
   -- TBS_PERIOD
   ⟨0x30008, [], [⟨0, 18, .rws, 0x2710, [(0x2710, 0x30D40)]⟩]⟩,
   -- TBS_FLAGS
   ⟨0x3000C, [], [⟨0, 1, .w1c, 0x0, []⟩, ⟨1, 1, .w1c, 0x0, []⟩, ⟨2, 1, .w1c, 0x0, []⟩, ⟨3, 1, .w1c, 0x0, []⟩]⟩,
   -- TBS_TIME_LO
   ⟨0x30010, [], [⟨0, 32, .ro, 0x0, []⟩]⟩,
   -- TBS_TIME_HI
   ⟨0x30014, [], [⟨0, 32, .ro, 0x0, []⟩]⟩,
   -- TBS_LINE_LO
   ⟨0x30018, [], [⟨0, 32, .ro, 0x0, []⟩]⟩,
   -- TBS_LINE_HI
   ⟨0x3001C, [], [⟨0, 32, .ro, 0x0, []⟩]⟩,
   -- TBS_LSYNC
   ⟨0x30020, [], [⟨0, 16, .ro, 0x0, []⟩, ⟨16, 16, .ro, 0x0, []⟩]⟩,
   -- TBS_FTACH
   ⟨0x30024, [], [⟨0, 16, .ro, 0x0, []⟩, ⟨16, 16, .ro, 0x0, []⟩]⟩,
   -- TBS_CMD
   ⟨0x30028, [], [⟨0, 1, .wo, 0x0, []⟩]⟩]

def rowsCfg : List RegRow :=
  [
   -- CFG_STATUS
   ⟨0x40000, [], [⟨0, 2, .ro, 0x0, []⟩, ⟨2, 2, .ro, 0x0, []⟩, ⟨4, 1, .ro, 0x0, []⟩, ⟨5, 1, .ro, 0x0, []⟩, ⟨6, 1, .ro, 0x0, []⟩, ⟨7, 1, .ro, 0x0, []⟩]⟩,
   -- CFG_REFUSE_A
   ⟨0x40004, [], [⟨0, 8, .ro, 0x0, []⟩, ⟨8, 24, .ro, 0x0, []⟩]⟩,
   -- CFG_REFUSE_B
   ⟨0x40008, [], [⟨0, 8, .ro, 0x0, []⟩, ⟨8, 24, .ro, 0x0, []⟩]⟩,
   -- CFG_GEN_A
   ⟨0x4000C, [], [⟨0, 32, .ro, 0xFFFFFFFF, []⟩]⟩,
   -- CFG_GEN_B
   ⟨0x40010, [], [⟨0, 32, .ro, 0xFFFFFFFF, []⟩]⟩,
   -- CFG_LOAD_TIME
   ⟨0x40014, [], [⟨0, 32, .ro, 0x0, []⟩]⟩,
   -- CFG_PHASE
   ⟨0x40018, [], [⟨0, 4, .ro, 0x1, []⟩]⟩,
   -- CFG_PREADMIT
   ⟨0x4001C, [], [⟨0, 32, .ro, 0x0, []⟩]⟩,
   -- CFG_CTRL
   ⟨0x40020, [], [⟨0, 1, .wo, 0x0, []⟩, ⟨1, 2, .wo, 0x0, []⟩]⟩,
   -- CFG_PIN
   ⟨0x40040, [(0x4, 8)], [⟨0, 8, .rw, 0x0, []⟩, ⟨8, 1, .rw, 0x0, []⟩]⟩,
   -- CFG_TMR
   ⟨0x40060, [(0x4, 4)], [⟨0, 8, .rw, 0x0, []⟩]⟩,
   -- CFG_AUX1
   ⟨0x40070, [], [⟨0, 8, .rw, 0x0, []⟩]⟩]

def rowsMpt : List RegRow :=
  [
   -- MPT_STATUS
   ⟨0x50000, [], [⟨0, 4, .ro, 0x0, []⟩, ⟨4, 1, .ro, 0x1, []⟩, ⟨5, 1, .ro, 0x0, []⟩]⟩,
   -- MPT_CTRL
   ⟨0x50004, [], [⟨0, 16, .rw, 0x1000, [(0x10, 0xFFFF)]⟩]⟩,
   -- MPT_ALERT
   ⟨0x50008, [], [⟨0, 1, .ro, 0x0, []⟩, ⟨1, 1, .w1c, 0x0, []⟩, ⟨2, 1, .w1c, 0x0, []⟩, ⟨3, 1, .w1c, 0x0, []⟩, ⟨4, 1, .w1c, 0x0, []⟩, ⟨5, 1, .w1c, 0x0, []⟩, ⟨6, 1, .ro, 0x0, []⟩, ⟨7, 1, .w1c, 0x0, []⟩, ⟨8, 1, .w1c, 0x0, []⟩]⟩,
   -- MPT_ALERT_EN
   ⟨0x5000C, [], [⟨0, 5, .ro, 0x1F, []⟩, ⟨5, 1, .rw, 0x0, []⟩, ⟨6, 1, .ro, 0x1, []⟩, ⟨7, 1, .rw, 0x0, []⟩, ⟨8, 1, .rw, 0x0, []⟩]⟩,
   -- MPT_ERRORS
   ⟨0x50010, [], [⟨0, 8, .ro, 0x0, []⟩, ⟨8, 8, .ro, 0x0, []⟩, ⟨16, 8, .ro, 0x0, []⟩, ⟨24, 8, .ro, 0x0, []⟩]⟩,
   -- MPT_COLLIDE
   ⟨0x50014, [], [⟨0, 16, .ro, 0x0, []⟩, ⟨16, 16, .ro, 0x0, []⟩]⟩,
   -- MPT_LAST_REFUSE
   ⟨0x50018, [], [⟨0, 32, .ro, 0x0, []⟩]⟩,
   -- MPT_CMD
   ⟨0x5001C, [], [⟨0, 1, .wo, 0x0, []⟩]⟩,
   -- MPT_FL_ADDR
   ⟨0x50020, [], [⟨0, 24, .rw, 0x0, []⟩]⟩,
   -- MPT_FL_CMD
   ⟨0x50024, [], [⟨0, 3, .wo, 0x0, []⟩, ⟨8, 8, .wo, 0x0, []⟩]⟩,
   -- MPT_FL_STATUS
   ⟨0x50028, [], [⟨0, 1, .ro, 0x0, []⟩, ⟨1, 1, .ro, 0x0, []⟩, ⟨2, 2, .ro, 0x0, []⟩, ⟨8, 8, .ro, 0x0, []⟩]⟩,
   -- MPT_FL_BUF
   ⟨0x50100, [(0x4, 64)], [⟨0, 32, .rw, 0x0, []⟩]⟩]

def rowsKep : List RegRow :=
  [
   -- KEP_STATUS
   ⟨0x60000, [], [⟨0, 1, .ro, 0x0, []⟩, ⟨1, 3, .ro, 0x0, []⟩, ⟨4, 1, .ro, 0x0, []⟩, ⟨5, 1, .ro, 0x0, []⟩, ⟨6, 1, .ro, 0x0, []⟩, ⟨7, 1, .ro, 0x0, []⟩]⟩,
   -- KEP_CTRL
   ⟨0x60004, [], [⟨0, 2, .rw, 0x0, []⟩, ⟨4, 12, .rw, 0x3C, [(0xA, 0xE10)]⟩]⟩,
   -- KEP_CMD
   ⟨0x60008, [], [⟨0, 2, .wo, 0x0, []⟩, ⟨2, 11, .wo, 0x0, []⟩, ⟨13, 1, .wo, 0x0, []⟩]⟩,
   -- KEP_RESUME
   ⟨0x6000C, [], [⟨0, 2, .ro, 0x0, []⟩, ⟨2, 2, .ro, 0x0, []⟩, ⟨16, 16, .ro, 0x0, []⟩]⟩,
   -- KEP_SEQ_MARK_LO
   ⟨0x60010, [], [⟨0, 32, .ro, 0x0, []⟩]⟩,
   -- KEP_SEQ_MARK_HI
   ⟨0x60014, [], [⟨0, 32, .ro, 0x0, []⟩]⟩,
   -- KEP_RPOS_MARK_LO
   ⟨0x60018, [], [⟨0, 32, .ro, 0x0, []⟩]⟩,
   -- KEP_RPOS_MARK_HI
   ⟨0x6001C, [], [⟨0, 32, .ro, 0x0, []⟩]⟩,
   -- KEP_MPOS_LO
   ⟨0x60020, [], [⟨0, 32, .ro, 0x0, []⟩]⟩,
   -- KEP_MPOS_HI
   ⟨0x60024, [], [⟨0, 32, .ro, 0x0, []⟩]⟩,
   -- KEP_SET
   ⟨0x60028, [], [⟨0, 32, .ro, 0x0, []⟩]⟩,
   -- KEP_ERRORS
   ⟨0x6002C, [], [⟨0, 16, .ro, 0x0, []⟩, ⟨16, 16, .ro, 0x0, []⟩]⟩,
   -- KEP_ERR_PAGE
   ⟨0x60030, [], [⟨0, 12, .ro, 0x0, []⟩, ⟨12, 3, .ro, 0x0, []⟩]⟩,
   -- KEP_STORES
   ⟨0x60034, [], [⟨0, 32, .ro, 0x0, []⟩]⟩,
   -- KEP_CNT_LO
   ⟨0x61000, [(0x8, 1056)], [⟨0, 32, .ro, 0x0, []⟩]⟩,
   -- KEP_CNT_HI
   ⟨0x61004, [(0x8, 1056)], [⟨0, 16, .ro, 0x0, []⟩]⟩]

def rowsRdo : List RegRow :=
  [
   -- RDO_STATUS
   ⟨0x100000, [], [⟨0, 1, .ro, 0x0, []⟩, ⟨1, 1, .ro, 0x0, []⟩, ⟨2, 1, .ro, 0x0, []⟩, ⟨3, 1, .ro, 0x0, []⟩, ⟨4, 1, .ro, 0x0, []⟩, ⟨5, 1, .ro, 0x0, []⟩, ⟨6, 1, .ro, 0x0, []⟩, ⟨7, 1, .ro, 0x0, []⟩, ⟨8, 8, .ro, 0x0, []⟩]⟩,
   -- RDO_CTRL
   ⟨0x100004, [], [⟨0, 1, .rw, 0x1, []⟩, ⟨1, 1, .rw, 0x1, []⟩]⟩,
   -- RDO_BIAS
   ⟨0x100008, [], [⟨0, 12, .rw, 0xA28, [(0x5DC, 0xDAC)]⟩]⟩,
   -- RDO_REF_TOL
   ⟨0x10000C, [], [⟨0, 11, .rw, 0x40, [(0x8, 0x400)]⟩, ⟨16, 4, .rw, 0x3, [(0x1, 0xF)]⟩]⟩,
   -- RDO_CMD
   ⟨0x100010, [], [⟨0, 1, .wo, 0x0, []⟩, ⟨1, 7, .wo, 0x0, []⟩, ⟨8, 6, .wo, 0x0, []⟩, ⟨14, 2, .wo, 0x0, []⟩]⟩,
   -- RDO_LINK_STATUS
   ⟨0x100014, [], [⟨0, 2, .ro, 0x0, []⟩, ⟨2, 2, .ro, 0x1, []⟩, ⟨4, 2, .ro, 0x2, []⟩, ⟨6, 1, .ro, 0x1, []⟩, ⟨7, 1, .ro, 0x1, []⟩, ⟨8, 2, .ro, 0x3, []⟩, ⟨10, 4, .ro, 0x0, []⟩, ⟨16, 16, .ro, 0x64, []⟩]⟩,
   -- RDO_LINK_ERR
   ⟨0x100018, [], [⟨0, 16, .ro, 0x0, []⟩, ⟨16, 16, .ro, 0x0, []⟩]⟩,
   -- RDO_SAT_COUNT
   ⟨0x10001C, [], [⟨0, 32, .ro, 0x0, []⟩]⟩,
   -- RDO_THERM_STATUS
   ⟨0x100020, [], [⟨0, 8, .ro, 0x0, []⟩, ⟨8, 8, .ro, 0x0, []⟩]⟩,
   -- RDO_GROUP
   ⟨0x100100, [(0x4, 65)], [⟨0, 6, .ro, 0x0, []⟩, ⟨6, 1, .ro, 0x0, []⟩, ⟨7, 1, .ro, 0x0, []⟩, ⟨8, 7, .ro, 0x0, []⟩]⟩,
   -- RDO_FAILMAP
   ⟨0x101000, [(0x4, 130)], [⟨0, 32, .ro, 0x0, []⟩]⟩]

def rowsCor : List RegRow :=
  [
   -- COR_STATUS
   ⟨0x110000, [], [⟨0, 1, .ro, 0x0, []⟩, ⟨1, 1, .ro, 0x0, []⟩, ⟨2, 1, .ro, 0x0, []⟩, ⟨3, 1, .ro, 0x0, []⟩, ⟨4, 4, .ro, 0x8, []⟩, ⟨8, 1, .ro, 0x1, []⟩, ⟨9, 1, .ro, 0x0, []⟩, ⟨10, 1, .ro, 0x0, []⟩]⟩,
   -- COR_CTRL
   ⟨0x110004, [], [⟨0, 6, .rw, 0x4, [(0x1, 0x3F)]⟩]⟩,
   -- COR_CMD
   ⟨0x110008, [], [⟨0, 1, .wo, 0x0, []⟩, ⟨1, 1, .wo, 0x0, []⟩, ⟨2, 1, .wo, 0x0, []⟩]⟩,
   -- COR_RAD_BASE
   ⟨0x11000C, [], [⟨0, 32, .rws, 0xFD9DA600, [(0x0, 0x5F5E100), (0xEFB80FD0, 0xFFFFFFFF)]⟩]⟩,
   -- COR_RAD_STEP
   ⟨0x110010, [], [⟨0, 5, .rws, 0x12, [(0xA, 0x14)]⟩]⟩,
   -- COR_MIN_PERIOD
   ⟨0x110014, [], [⟨0, 17, .ro, 0x2710, []⟩]⟩,
   -- COR_HEADROOM
   ⟨0x110018, [], [⟨0, 8, .ro, 0x0, []⟩, ⟨8, 8, .ro, 0x7F, []⟩, ⟨16, 16, .ro, 0x0, []⟩]⟩,
   -- COR_LANE_MAP
   ⟨0x11001C, [], [⟨0, 9, .ro, 0x0, []⟩, ⟨9, 4, .ro, 0x8, []⟩]⟩,
   -- COR_MISMATCH
   ⟨0x110020, [], [⟨0, 32, .ro, 0x0, []⟩]⟩,
   -- COR_UNRESOLVED
   ⟨0x110024, [], [⟨0, 32, .ro, 0x0, []⟩]⟩,
   -- COR_CLAMP_COUNT
   ⟨0x110028, [], [⟨0, 32, .ro, 0x0, []⟩]⟩,
   -- COR_RANGE_COUNT
   ⟨0x11002C, [], [⟨0, 32, .ro, 0x0, []⟩]⟩,
   -- COR_LATENCY_MAX
   ⟨0x110030, [], [⟨0, 16, .ro, 0x0, []⟩, ⟨16, 16, .ro, 0x0, []⟩]⟩,
   -- COR_LANE
   ⟨0x110040, [(0x4, 9)], [⟨0, 16, .ro, 0x0, []⟩, ⟨16, 16, .ro, 0x0, []⟩]⟩,
   -- COR_DTS
   ⟨0x110080, [(0x4, 8)], [⟨0, 32, .ro, 0x0, []⟩]⟩,
   -- COR_LAG_DEPTH
   ⟨0x110100, [], [⟨0, 9, .rws, 0x0, [(0x0, 0x100)]⟩, ⟨16, 9, .ro, 0x0, []⟩]⟩,
   -- COR_WALK_VEL
   ⟨0x110104, [], [⟨0, 11, .rws, 0x100, [(0x40, 0x400)]⟩]⟩,
   -- COR_ROW_WT
   ⟨0x110108, [(0x4, 3)], [⟨0, 4, .rws, 0x8, []⟩, ⟨4, 4, .rws, 0x8, []⟩, ⟨8, 4, .rws, 0x8, []⟩, ⟨12, 4, .rws, 0x8, []⟩, ⟨16, 4, .rws, 0x8, []⟩, ⟨20, 4, .rws, 0x8, []⟩, ⟨24, 4, .rws, 0x8, []⟩, ⟨28, 4, .rws, 0x8, []⟩]⟩,
   -- COR_WALK_EXCLUDE
   ⟨0x110114, [], [⟨0, 12, .rw, 0x9, []⟩]⟩,
   -- COR_SHEAF_WALK
   ⟨0x110118, [], [⟨0, 7, .rw, 0x8, [(0x0, 0x40)]⟩]⟩,
   -- COR_WALK_STATUS
   ⟨0x11011C, [], [⟨0, 11, .ro, 0x100, []⟩, ⟨11, 1, .ro, 0x0, []⟩, ⟨12, 1, .ro, 0x0, []⟩, ⟨13, 1, .ro, 0x0, []⟩, ⟨14, 5, .ro, 0x18, []⟩]⟩,
   -- COR_LAG_OFF_LINES
   ⟨0x110120, [], [⟨0, 32, .ro, 0x0, []⟩]⟩,
   -- COR_WALK_FILLED
   ⟨0x110124, [], [⟨0, 32, .ro, 0x0, []⟩]⟩,
   -- COR_WALK_LATE
   ⟨0x110128, [], [⟨0, 16, .ro, 0x0, []⟩, ⟨16, 16, .ro, 0x0, []⟩]⟩,
   -- COR_WALK_CMD
   ⟨0x11012C, [], [⟨0, 1, .wo, 0x0, []⟩]⟩]

def rowsCal : List RegRow :=
  [
   -- CAL_STATUS
   ⟨0x120000, [], [⟨0, 1, .ro, 0x0, []⟩, ⟨1, 1, .ro, 0x0, []⟩, ⟨2, 1, .ro, 0x0, []⟩, ⟨3, 1, .ro, 0x0, []⟩, ⟨4, 1, .ro, 0x0, []⟩, ⟨5, 1, .ro, 0x0, []⟩, ⟨6, 1, .ro, 0x0, []⟩, ⟨7, 1, .ro, 0x0, []⟩, ⟨8, 1, .ro, 0x0, []⟩, ⟨9, 5, .ro, 0x10, []⟩, ⟨14, 1, .ro, 0x0, []⟩, ⟨15, 1, .ro, 0x0, []⟩]⟩,
   -- CAL_CTRL
   ⟨0x120004, [], [⟨0, 4, .rw, 0x1, []⟩, ⟨4, 1, .rw, 0x1, []⟩, ⟨5, 1, .rw, 0x1, []⟩, ⟨6, 1, .rw, 0x1, []⟩]⟩,
   -- CAL_CMD
   ⟨0x120008, [], [⟨0, 1, .wo, 0x0, []⟩, ⟨1, 1, .wo, 0x0, []⟩, ⟨2, 1, .wo, 0x0, []⟩, ⟨3, 4, .wo, 0x0, []⟩, ⟨7, 1, .wo, 0x0, []⟩]⟩,
   -- CAL_TRIG
   ⟨0x12000C, [], [⟨0, 13, .rw, 0x3E8, [(0x64, 0x1F40)]⟩, ⟨16, 16, .rw, 0x0, []⟩]⟩,
   -- CAL_GAP
   ⟨0x120010, [], [⟨0, 10, .rw, 0x60, [(0x10, 0x3FF)]⟩, ⟨12, 4, .rw, 0x4, [(0x1, 0xF)]⟩, ⟨16, 16, .rw, 0x7D0, [(0x64, 0xEA60)]⟩]⟩,
   -- CAL_FLAG
   ⟨0x120014, [], [⟨0, 8, .rw, 0x14, [(0x5, 0xFF)]⟩, ⟨8, 8, .rw, 0x0, []⟩, ⟨16, 16, .rw, 0x3E8, [(0x64, 0x2710)]⟩]⟩,
   -- CAL_SOLVE
   ⟨0x120018, [], [⟨0, 2, .rw, 0x2, []⟩, ⟨2, 4, .rw, 0x3, [(0x0, 0x8)]⟩, ⟨6, 4, .rw, 0x5, [(0x0, 0x8)]⟩, ⟨16, 16, .rw, 0x2710, [(0x3E8, 0xEA60)]⟩]⟩,
   -- CAL_LIM_O
   ⟨0x12001C, [], [⟨0, 16, .rw, 0xC8, [(0x1, 0xFFFF)]⟩]⟩,
   -- CAL_LIM_G
   ⟨0x120020, [], [⟨0, 16, .rw, 0xC8, [(0x1, 0x2710)]⟩]⟩,
   -- CAL_G_MIN
   ⟨0x120024, [], [⟨0, 32, .rw, 0x17700000, []⟩]⟩,
   -- CAL_G_MAX
   ⟨0x120028, [], [⟨0, 32, .rw, 0x2EE00000, []⟩]⟩,
   -- CAL_LIM_FAIL
   ⟨0x12002C, [], [⟨0, 16, .rw, 0x64, []⟩, ⟨16, 8, .rw, 0x32, [(0x8, 0xFF)]⟩, ⟨24, 8, .rw, 0xA, [(0x1, 0xFF)]⟩]⟩,
   -- CAL_GLEAN
   ⟨0x120030, [], [⟨0, 10, .rw, 0x80, [(0x10, 0x3FF)]⟩, ⟨10, 4, .rw, 0x5, [(0x0, 0xC)]⟩, ⟨16, 16, .rw, 0x40, [(0x1, 0x7FFF)]⟩]⟩,
   -- CAL_QUAL
   ⟨0x120034, [], [⟨0, 16, .rw, 0x4000, [(0x100, 0xFFFF)]⟩, ⟨16, 16, .rw, 0x3C, [(0x1, 0xE10)]⟩]⟩,
   -- CAL_SETTLE
   ⟨0x120038, [], [⟨0, 8, .rw, 0xA, [(0x1, 0xFF)]⟩]⟩,
   -- CAL_TRIM_TARGET
   ⟨0x12003C, [], [⟨0, 16, .rw, 0x4E20, [(0x3E80, 0x5DC0)]⟩, ⟨16, 16, .rw, 0x4E20, [(0x3E80, 0x5DC0)]⟩]⟩,
   -- CAL_RESULT
   ⟨0x120040, [], [⟨0, 3, .ro, 0x0, []⟩, ⟨8, 8, .ro, 0x0, []⟩, ⟨16, 16, .ro, 0x0, []⟩]⟩,
   -- CAL_FAIL_WHY
   ⟨0x120044, [], [⟨0, 8, .ro, 0x0, []⟩, ⟨8, 8, .ro, 0x0, []⟩, ⟨16, 8, .ro, 0x0, []⟩, ⟨24, 8, .ro, 0x0, []⟩]⟩,
   -- CAL_EVENT_LINE_LO
   ⟨0x120048, [], [⟨0, 32, .ro, 0x0, []⟩]⟩,
   -- CAL_EVENT_LINE_HI
   ⟨0x12004C, [], [⟨0, 32, .ro, 0x0, []⟩]⟩,
   -- CAL_QUAL_RMS
   ⟨0x120050, [], [⟨0, 32, .ro, 0x0, []⟩]⟩,
   -- CAL_QUAL_PEAK
   ⟨0x120054, [], [⟨0, 32, .ro, 0x0, []⟩]⟩,
   -- CAL_QUAL_NOISE
   ⟨0x120058, [], [⟨0, 32, .ro, 0x0, []⟩]⟩,
   -- CAL_QUAL_INFO
   ⟨0x12005C, [], [⟨0, 17, .ro, 0x0, []⟩, ⟨17, 1, .ro, 0x0, []⟩]⟩,
   -- CAL_COUNTS
   ⟨0x120060, [], [⟨0, 16, .ro, 0x0, []⟩, ⟨16, 16, .ro, 0x0, []⟩]⟩,
   -- CAL_BLIND_LINES
   ⟨0x120064, [], [⟨0, 32, .ro, 0x0, []⟩]⟩,
   -- CAL_GLEAN_UPDATES
   ⟨0x120068, [], [⟨0, 32, .ro, 0x0, []⟩]⟩,
   -- CAL_DRIFT_LIMITED
   ⟨0x12006C, [], [⟨0, 17, .ro, 0x0, []⟩]⟩,
   -- CAL_SCRIPT_STAT
   ⟨0x120070, [], [⟨0, 4, .ro, 0x0, []⟩, ⟨4, 8, .ro, 0x0, []⟩, ⟨12, 8, .ro, 0x0, []⟩]⟩,
   -- CAL_DAC_BIAS
   ⟨0x120100, [], [⟨0, 12, .rw, 0x0, []⟩]⟩,
   -- CAL_DAC_SKIM
   ⟨0x120104, [], [⟨0, 12, .rw, 0x0, []⟩]⟩,
   -- CAL_DAC_HL
   ⟨0x120140, [(0x4, 16)], [⟨0, 8, .rw, 0x80, []⟩, ⟨8, 8, .rw, 0x80, []⟩, ⟨16, 8, .rw, 0x80, []⟩, ⟨24, 8, .rw, 0x80, []⟩]⟩,
   -- CAL_FTRIM
   ⟨0x121000, [(0x4, 1057)], [⟨0, 4, .rw, 0x0, []⟩, ⟨8, 4, .rw, 0x0, []⟩, ⟨16, 4, .rw, 0x0, []⟩, ⟨24, 4, .rw, 0x0, []⟩, ⟨4, 3, .rw, 0x0, []⟩, ⟨12, 3, .rw, 0x0, []⟩, ⟨20, 3, .rw, 0x0, []⟩, ⟨28, 3, .rw, 0x0, []⟩]⟩,
   -- CAL_SCRIPT_MEM
   ⟨0x124000, [(0x400, 16), (0x4, 256)], [⟨0, 32, .rw, 0x0, []⟩]⟩]

def rowsTrk : List RegRow :=
  [
   -- TRK_STATUS
   ⟨0x130000, [], [⟨0, 1, .ro, 0x0, []⟩, ⟨1, 1, .ro, 0x0, []⟩, ⟨2, 1, .ro, 0x0, []⟩, ⟨3, 1, .ro, 0x0, []⟩]⟩,
   -- TRK_CTRL
   ⟨0x130004, [], [⟨0, 1, .rw, 0x0, []⟩, ⟨1, 1, .rw, 0x0, []⟩, ⟨2, 1, .rw, 0x0, []⟩, ⟨3, 1, .rw, 0x1, []⟩, ⟨4, 1, .rw, 0x1, []⟩]⟩,
   -- TRK_CMD
   ⟨0x130008, [], [⟨0, 1, .wo, 0x0, []⟩]⟩,
   -- TRK_HOT
   ⟨0x13000C, [], [⟨0, 16, .rw, 0x1F4, [(0x32, 0x7530)]⟩, ⟨16, 16, .rw, 0x12C, [(0x19, 0xFFFF)]⟩]⟩,
   -- TRK_COLD
   ⟨0x130010, [], [⟨0, 16, .rw, 0x1F4, [(0x32, 0x7530)]⟩, ⟨16, 16, .rw, 0x12C, [(0x19, 0xFFFF)]⟩]⟩,
   -- TRK_SHAPE
   ⟨0x130014, [], [⟨0, 4, .rw, 0x2, [(0x1, 0xF)]⟩, ⟨4, 3, .rw, 0x1, []⟩, ⟨8, 3, .rw, 0x1, [(0x1, 0x7)]⟩, ⟨16, 9, .rw, 0x100, [(0x10, 0x100)]⟩]⟩,
   -- TRK_BG
   ⟨0x130018, [], [⟨0, 4, .rw, 0x8, [(0x4, 0xC)]⟩, ⟨4, 12, .rw, 0xE00, [(0x100, 0xFFF)]⟩, ⟨16, 16, .rw, 0x40, [(0x10, 0xFFFF)]⟩]⟩,
   -- TRK_VEL
   ⟨0x13001C, [], [⟨0, 5, .rw, 0xC, [(0x4, 0x18)]⟩, ⟨8, 8, .rw, 0x40, [(0x1, 0xFF)]⟩]⟩,
   -- TRK_ADMIT
   ⟨0x130020, [], [⟨0, 17, .rw, 0x186A0, [(0x3E8, 0x186A0)]⟩]⟩,
   -- TRK_BURST
   ⟨0x130024, [], [⟨0, 14, .rw, 0x400, [(0x40, 0x2000)]⟩, ⟨16, 15, .rw, 0x200, [(0x0, 0x4E20)]⟩]⟩,
   -- TRK_SEQ_NEXT_LO
   ⟨0x130028, [], [⟨0, 32, .ro, 0x0, []⟩]⟩,
   -- TRK_SEQ_NEXT_HI
   ⟨0x13002C, [], [⟨0, 32, .ro, 0x0, []⟩]⟩,
   -- TRK_LIVE
   ⟨0x130030, [], [⟨0, 14, .ro, 0x0, []⟩, ⟨15, 16, .ro, 0x5000, []⟩]⟩,
   -- TRK_PEAK
   ⟨0x130034, [], [⟨0, 14, .ro, 0x0, []⟩, ⟨15, 16, .ro, 0x5000, []⟩]⟩,
   -- TRK_ADMITTED_LO
   ⟨0x130038, [], [⟨0, 32, .ro, 0x0, []⟩]⟩,
   -- TRK_ADMITTED_HI
   ⟨0x13003C, [], [⟨0, 32, .ro, 0x0, []⟩]⟩,
   -- TRK_REFUSED_STOPPED
   ⟨0x130040, [], [⟨0, 32, .ro, 0x0, []⟩]⟩,
   -- TRK_REFUSED_RATE
   ⟨0x130044, [], [⟨0, 32, .ro, 0x0, []⟩]⟩,
   -- TRK_REFUSED_STORE
   ⟨0x130048, [], [⟨0, 32, .ro, 0x0, []⟩]⟩,
   -- TRK_REFUSED_MEMORY
   ⟨0x13004C, [], [⟨0, 32, .ro, 0x0, []⟩]⟩,
   -- TRK_FORCED
   ⟨0x130050, [], [⟨0, 16, .ro, 0x0, []⟩, ⟨16, 16, .ro, 0x0, []⟩]⟩,
   -- TRK_SHADOW
   ⟨0x130054, [], [⟨0, 11, .ro, 0x0, []⟩, ⟨16, 16, .ro, 0x0, []⟩]⟩,
   -- TRK_COPY
   ⟨0x130058, [], [⟨0, 16, .ro, 0x0, []⟩, ⟨16, 16, .ro, 0x0, []⟩]⟩,
   -- TRK_LIFE_MAX
   ⟨0x13005C, [], [⟨0, 32, .ro, 0x0, []⟩]⟩,
   -- TRK_BGC
   ⟨0x138000, [(0x4, 4096)], [⟨0, 32, .ro, 0x0, []⟩]⟩]

def rowsAst : List RegRow :=
  [
   -- AST_STATUS
   ⟨0x140000, [], [⟨0, 5, .ro, 0x10, []⟩, ⟨5, 1, .ro, 0x0, []⟩, ⟨6, 1, .ro, 0x0, []⟩, ⟨7, 3, .ro, 0x0, []⟩, ⟨16, 16, .ro, 0x0, []⟩]⟩,
   -- AST_CTRL
   ⟨0x140004, [], [⟨0, 4, .rw, 0x3, [(0x1, 0xF)]⟩, ⟨4, 2, .rw, 0x2, [(0x0, 0x2)]⟩, ⟨6, 1, .rw, 0x1, []⟩]⟩,
   -- AST_CMD
   ⟨0x140008, [], [⟨0, 1, .wo, 0x0, []⟩, ⟨1, 1, .wo, 0x0, []⟩, ⟨2, 4, .wo, 0x0, []⟩]⟩,
   -- AST_SELECT
   ⟨0x14000C, [], [⟨0, 4, .rws, 0x0, []⟩]⟩,
   -- AST_RULE
   ⟨0x140010, [(0x4, 4)], [⟨0, 1, .rws, 0x0, []⟩, ⟨1, 1, .rws, 0x1, []⟩, ⟨2, 1, .rws, 0x1, []⟩, ⟨4, 4, .rws, 0x0, []⟩, ⟨8, 8, .rws, 0x0, []⟩, ⟨16, 16, .rws, 0x0, []⟩]⟩,
   -- AST_QUEUE
   ⟨0x140020, [], [⟨0, 14, .ro, 0x0, []⟩, ⟨16, 14, .ro, 0x0, []⟩]⟩,
   -- AST_RUNS_LO
   ⟨0x140024, [], [⟨0, 32, .ro, 0x0, []⟩]⟩,
   -- AST_RUNS_HI
   ⟨0x140028, [], [⟨0, 32, .ro, 0x0, []⟩]⟩,
   -- AST_RERUNS
   ⟨0x14002C, [], [⟨0, 32, .ro, 0x0, []⟩]⟩,
   -- AST_FAULT_PROG
   ⟨0x140030, [], [⟨0, 16, .ro, 0x0, []⟩, ⟨16, 8, .ro, 0x0, []⟩, ⟨24, 8, .ro, 0x0, []⟩]⟩,
   -- AST_FAULT_TIME
   ⟨0x140034, [], [⟨0, 16, .ro, 0x0, []⟩, ⟨16, 8, .ro, 0x0, []⟩, ⟨24, 8, .ro, 0x0, []⟩]⟩,
   -- AST_CYCLES_MAX
   ⟨0x140038, [], [⟨0, 16, .ro, 0x0, []⟩, ⟨16, 4, .ro, 0x0, []⟩]⟩,
   -- AST_LATE
   ⟨0x14003C, [], [⟨0, 32, .ro, 0x0, []⟩]⟩,
   -- AST_SLOT_PROG
   ⟨0x140100, [(0x10, 16)], [⟨0, 5, .rws, 0x0, []⟩, ⟨8, 11, .rws, 0x0, [(0x0, 0x400)]⟩]⟩,
   -- AST_SLOT_LIM
   ⟨0x140104, [(0x10, 16)], [⟨0, 16, .rws, 0xFA00, [(0x10, 0xFA00)]⟩, ⟨16, 16, .rws, 0x1388, [(0x64, 0xFFFF)]⟩]⟩,
   -- AST_SLOT_DBASE
   ⟨0x140108, [(0x10, 16)], [⟨0, 21, .rws, 0x0, []⟩]⟩,
   -- AST_SLOT_DLEN
   ⟨0x14010C, [(0x10, 16)], [⟨0, 21, .rws, 0x1B0000, []⟩]⟩,
   -- AST_ENG
   ⟨0x140200, [(0x4, 16)], [⟨0, 2, .ro, 0x0, []⟩, ⟨8, 8, .ro, 0x0, []⟩, ⟨16, 16, .ro, 0x0, []⟩]⟩]

def rowsDrl : List RegRow :=
  [
   -- DRL_STATUS
   ⟨0x150000, [], [⟨0, 1, .ro, 0x0, []⟩, ⟨1, 1, .ro, 0x0, []⟩, ⟨2, 1, .ro, 0x0, []⟩, ⟨3, 1, .ro, 0x0, []⟩, ⟨4, 12, .ro, 0x0, []⟩]⟩,
   -- DRL_CTRL
   ⟨0x150004, [], [⟨0, 1, .rw, 0x1, []⟩]⟩,
   -- DRL_CMD
   ⟨0x150008, [], [⟨0, 1, .wo, 0x0, []⟩]⟩,
   -- DRL_GEOM
   ⟨0x15000C, [], [⟨0, 21, .rws, 0x47869, [(0x2710, 0x1E8480)]⟩]⟩,
   -- DRL_FLIGHT
   ⟨0x150010, [], [⟨0, 11, .rws, 0x3E8, [(0xC8, 0x5DC)]⟩, ⟨16, 14, .rws, 0x2652, [(0x0, 0x2EE0)]⟩]⟩,
   -- DRL_WINDOW
   ⟨0x150014, [], [⟨0, 16, .rws, 0x12C, [(0x0, 0x1388)]⟩, ⟨16, 16, .rws, 0x12C, [(0x0, 0x1388)]⟩]⟩,
   -- DRL_ONTIME
   ⟨0x150018, [], [⟨0, 16, .rws, 0x1F4, [(0x64, 0x2710)]⟩, ⟨16, 16, .rws, 0x4E20, []⟩]⟩,
   -- DRL_SET
   ⟨0x15001C, [], [⟨0, 4, .rws, 0x8, [(0x1, 0x8)]⟩, ⟨4, 8, .rws, 0x4, []⟩, ⟨16, 10, .rws, 0x64, [(0x0, 0x3E8)]⟩]⟩,
   -- DRL_BOOST
   ⟨0x150020, [], [⟨0, 4, .rw, 0x4, [(0x1, 0x8)]⟩, ⟨4, 12, .rw, 0xC8, [(0x0, 0xFA0)]⟩, ⟨16, 16, .rw, 0x12C, [(0x0, 0x2710)]⟩]⟩,
   -- DRL_LEARN
   ⟨0x150024, [], [⟨0, 4, .rw, 0x3, [(0x0, 0x8)]⟩, ⟨16, 16, .rw, 0x7D0, [(0x0, 0x1770)]⟩]⟩,
   -- DRL_RESERVOIR
   ⟨0x150028, [], [⟨0, 16, .rw, 0x125C, [(0x64, 0xFFFF)]⟩, ⟨16, 16, .rw, 0x0, []⟩]⟩,
   -- DRL_VLIMIT
   ⟨0x15002C, [], [⟨0, 16, .rw, 0x9C40, [(0x2710, 0xEA60)]⟩, ⟨16, 16, .rw, 0xBB80, [(0x0, 0xEA60)]⟩]⟩,
   -- DRL_E_EST
   ⟨0x150030, [], [⟨0, 32, .ro, 0x0, []⟩]⟩,
   -- DRL_CLASS_LEAD
   ⟨0x150040, [(0x10, 4)], [⟨0, 16, .rw, 0x1388, []⟩, ⟨16, 16, .rw, 0xC350, []⟩]⟩,
   -- DRL_CLASS_COIL
   ⟨0x150044, [(0x10, 4)], [⟨0, 16, .rw, 0x2EE0, [(0x64, 0xFFFF)]⟩, ⟨16, 16, .rw, 0xC8, [(0x1, 0xFFFF)]⟩]⟩,
   -- DRL_CLASS_TH
   ⟨0x150048, [(0x10, 4)], [⟨0, 16, .rw, 0x258, [(0x1, 0xFFFF)]⟩, ⟨16, 16, .rw, 0x190, [(0x1, 0x7D0)]⟩]⟩,
   -- DRL_CLASS_E
   ⟨0x15004C, [(0x10, 4)], [⟨0, 24, .rw, 0x1770, []⟩, ⟨24, 4, .rw, 0x4, [(0x0, 0x8)]⟩]⟩,
   -- DRL_PLANS_LO
   ⟨0x150100, [], [⟨0, 32, .ro, 0x0, []⟩]⟩,
   -- DRL_PLANS_HI
   ⟨0x150104, [], [⟨0, 32, .ro, 0x0, []⟩]⟩,
   -- DRL_GATES_LO
   ⟨0x150108, [], [⟨0, 32, .ro, 0x0, []⟩]⟩,
   -- DRL_GATES_HI
   ⟨0x15010C, [], [⟨0, 32, .ro, 0x0, []⟩]⟩,
   -- DRL_DEFER
   ⟨0x150110, [], [⟨0, 16, .ro, 0x0, []⟩, ⟨16, 16, .ro, 0x0, []⟩]⟩,
   -- DRL_FALLBACK
   ⟨0x150114, [], [⟨0, 16, .ro, 0x0, []⟩, ⟨16, 16, .ro, 0x0, []⟩]⟩,
   -- DRL_TIMING
   ⟨0x150118, [], [⟨0, 16, .ro, 0x0, []⟩, ⟨16, 16, .ro, 0x0, []⟩]⟩,
   -- DRL_HEAT_CNT
   ⟨0x15011C, [], [⟨0, 16, .ro, 0x0, []⟩, ⟨16, 16, .ro, 0x0, []⟩]⟩,
   -- DRL_FAST
   ⟨0x150120, [], [⟨0, 24, .ro, 0x0, []⟩, ⟨24, 8, .ro, 0x0, []⟩]⟩,
   -- DRL_RATE_HIGH
   ⟨0x150124, [], [⟨0, 32, .ro, 0x0, []⟩]⟩,
   -- DRL_VALVE
   ⟨0x151000, [(0x4, 1024)], [⟨0, 16, .rw, 0x6D60, []⟩, ⟨16, 2, .rw, 0x0, []⟩, ⟨18, 1, .ro, 0x0, []⟩, ⟨19, 1, .ro, 0x0, []⟩]⟩,
   -- DRL_THETA
   ⟨0x152000, [(0x4, 1024)], [⟨0, 32, .ro, 0x0, []⟩]⟩]

def rowsVlv : List RegRow :=
  [
   -- VLV_STATUS
   ⟨0x160000, [], [⟨0, 1, .ro, 0x0, []⟩, ⟨1, 1, .ro, 0x0, []⟩, ⟨2, 1, .ro, 0x0, []⟩, ⟨3, 1, .ro, 0x0, []⟩, ⟨4, 5, .ro, 0x0, []⟩, ⟨9, 7, .ro, 0x0, []⟩, ⟨16, 11, .ro, 0x0, []⟩]⟩,
   -- VLV_CTRL
   ⟨0x160004, [], [⟨0, 1, .rw, 0x1, []⟩, ⟨1, 1, .rw, 0x1, []⟩, ⟨2, 4, .rw, 0x3, [(0x1, 0xF)]⟩]⟩,
   -- VLV_CMD
   ⟨0x160008, [], [⟨0, 2, .wo, 0x0, []⟩, ⟨2, 2, .wo, 0x0, []⟩, ⟨4, 10, .wo, 0x0, []⟩]⟩,
   -- VLV_SENSE
   ⟨0x16000C, [], [⟨0, 16, .rw, 0x61A8, [(0x4E20, 0xC350)]⟩]⟩,
   -- VLV_DIAG
   ⟨0x160010, [], [⟨0, 14, .rw, 0x2328, [(0x3E8, 0x2710)]⟩, ⟨14, 10, .rw, 0x32, [(0xA, 0x3E8)]⟩]⟩,
   -- VLV_SCAN
   ⟨0x160014, [], [⟨0, 16, .rw, 0x3E8, [(0xA, 0xFFFF)]⟩, ⟨16, 8, .rw, 0xA, [(0x1, 0xFF)]⟩]⟩,
   -- VLV_AUX_CMD
   ⟨0x160018, [], [⟨0, 1, .wo, 0x0, []⟩, ⟨1, 1, .wo, 0x0, []⟩, ⟨16, 16, .wo, 0x0, []⟩]⟩,
   -- VLV_AUX_STATUS
   ⟨0x16001C, [], [⟨0, 3, .ro, 0x0, []⟩, ⟨3, 1, .ro, 0x0, []⟩, ⟨4, 3, .ro, 0x0, []⟩, ⟨7, 1, .ro, 0x0, []⟩]⟩,
   -- VLV_LAST_FAULT
   ⟨0x160020, [], [⟨0, 8, .ro, 0x0, []⟩, ⟨8, 2, .ro, 0x0, []⟩, ⟨10, 10, .ro, 0x0, []⟩]⟩,
   -- VLV_DIP_FOUND
   ⟨0x160024, [], [⟨0, 32, .ro, 0x0, []⟩]⟩,
   -- VLV_DIP_MISS
   ⟨0x160028, [], [⟨0, 32, .ro, 0x0, []⟩]⟩,
   -- VLV_FAULTS
   ⟨0x16002C, [], [⟨0, 16, .ro, 0x0, []⟩, ⟨16, 16, .ro, 0x0, []⟩]⟩,
   -- VLV_SHARE_EXT
   ⟨0x160030, [], [⟨0, 16, .ro, 0x0, []⟩, ⟨16, 16, .ro, 0x0, []⟩]⟩,
   -- VLV_GROUP
   ⟨0x160040, [(0x4, 16)], [⟨0, 2, .ro, 0x0, []⟩, ⟨2, 1, .ro, 0x0, []⟩, ⟨3, 1, .ro, 0x0, []⟩, ⟨4, 1, .ro, 0x0, []⟩, ⟨8, 8, .ro, 0x0, []⟩, ⟨16, 12, .ro, 0x0, []⟩]⟩,
   -- VLV_COLUMN
   ⟨0x160100, [(0x4, 64)], [⟨0, 1, .ro, 0x0, []⟩, ⟨1, 1, .ro, 0x0, []⟩, ⟨2, 5, .ro, 0x0, []⟩, ⟨8, 8, .ro, 0x0, []⟩, ⟨16, 14, .ro, 0x0, []⟩]⟩,
   -- VLV_PROF_0
   ⟨0x161000, [(0x20, 20)], [⟨0, 13, .rws, 0x7D0, [(0x0, 0xFA0)]⟩, ⟨16, 13, .rws, 0x1F4, [(0x0, 0x5DC)]⟩]⟩,
   -- VLV_PROF_1
   ⟨0x161004, [(0x20, 20)], [⟨0, 16, .rws, 0x4E20, [(0x64, 0xFFFF)]⟩, ⟨16, 6, .rws, 0x28, [(0x14, 0x3C)]⟩, ⟨22, 4, .rws, 0x2, [(0x1, 0x4)]⟩]⟩,
   -- VLV_PROF_2
   ⟨0x161008, [(0x20, 20)], [⟨0, 13, .rws, 0x64, [(0xA, 0x5DC)]⟩, ⟨16, 16, .rws, 0x5DC, [(0xA, 0xFFFF)]⟩]⟩,
   -- VLV_PROF_3
   ⟨0x16100C, [(0x20, 20)], [⟨0, 16, .rws, 0x3E8, []⟩, ⟨16, 16, .rws, 0x4E20, []⟩]⟩,
   -- VLV_PROF_4
   ⟨0x161010, [(0x20, 20)], [⟨0, 10, .rws, 0x28, [(0x5, 0x3E8)]⟩, ⟨16, 1, .rws, 0x1, []⟩]⟩,
   -- VLV_PROF_5
   ⟨0x161014, [(0x20, 20)], [⟨0, 12, .rws, 0x32, [(0xA, 0x3E8)]⟩, ⟨16, 12, .rws, 0xC8, [(0xA, 0xFA0)]⟩]⟩,
   -- VLV_PROF_6
   ⟨0x161018, [(0x20, 20)], []⟩,
   -- VLV_PROF_7
   ⟨0x16101C, [(0x20, 20)], []⟩,
   -- VLV_VALVE
   ⟨0x162000, [(0x4, 1024)], [⟨0, 4, .rw, 0x0, []⟩, ⟨4, 3, .ro, 0x0, []⟩, ⟨7, 1, .ro, 0x0, []⟩, ⟨8, 8, .ro, 0x0, []⟩, ⟨16, 4, .ro, 0x0, []⟩]⟩,
   -- VLV_LAST
   ⟨0x163000, [(0x4, 1024)], [⟨0, 16, .ro, 0xFFFF, []⟩, ⟨16, 16, .ro, 0x0, []⟩]⟩]

def rowsHkc : List RegRow :=
  [
   -- HKC_STATUS
   ⟨0x170000, [], [⟨0, 1, .ro, 0x0, []⟩, ⟨1, 1, .ro, 0x0, []⟩, ⟨2, 1, .ro, 0x0, []⟩, ⟨3, 1, .ro, 0x0, []⟩, ⟨4, 6, .ro, 0x3F, []⟩, ⟨10, 5, .ro, 0x0, []⟩]⟩,
   -- HKC_CTRL
   ⟨0x170004, [], [⟨0, 1, .rw, 0x1, []⟩, ⟨1, 3, .rw, 0x3, [(0x0, 0x4)]⟩, ⟨4, 12, .rw, 0x0, []⟩]⟩,
   -- HKC_CMD
   ⟨0x170008, [], [⟨0, 1, .wo, 0x0, []⟩, ⟨1, 3, .wo, 0x0, []⟩, ⟨4, 1, .wo, 0x0, []⟩]⟩,
   -- HKC_PASS
   ⟨0x17000C, [], [⟨0, 32, .ro, 0x0, []⟩]⟩,
   -- HKC_IEXC
   ⟨0x170010, [(0x4, 4)], [⟨0, 28, .rw, 0x0, []⟩]⟩,
   -- HKC_OFS
   ⟨0x170040, [(0x4, 6)], [⟨0, 32, .rw, 0x0, []⟩]⟩,
   -- HKC_GAIN
   ⟨0x170060, [(0x4, 6)], [⟨0, 32, .rw, 0x40000000, []⟩]⟩,
   -- HKC_TH_C0
   ⟨0x170100, [(0x10, 8)], [⟨0, 32, .rw, 0x0, []⟩]⟩,
   -- HKC_TH_C1
   ⟨0x170104, [(0x10, 8)], [⟨0, 32, .rw, 0x0, []⟩]⟩,
   -- HKC_TH_C2
   ⟨0x170108, [(0x10, 8)], [⟨0, 32, .rw, 0x0, []⟩]⟩,
   -- HKC_SEQ
   ⟨0x170200, [(0x4, 24)], [⟨0, 5, .rws, 0x0, [(0x0, 0x16)]⟩, ⟨5, 1, .rws, 0x0, []⟩, ⟨6, 3, .rws, 0x3, [(0x1, 0x5)]⟩, ⟨9, 3, .rws, 0x3, []⟩, ⟨12, 3, .rws, 0x0, [(0x0, 0x5)]⟩, ⟨16, 3, .rws, 0x0, [(0x0, 0x5)]⟩]⟩,
   -- HKC_RAW
   ⟨0x170300, [(0x8, 24)], [⟨0, 24, .ro, 0x0, []⟩, ⟨24, 1, .ro, 0x0, []⟩, ⟨25, 1, .ro, 0x0, []⟩]⟩,
   -- HKC_VAL
   ⟨0x170304, [(0x8, 24)], [⟨0, 32, .ro, 0x0, []⟩]⟩]

def rowsDma : List RegRow :=
  [
   -- DMA_STATUS
   ⟨0x180000, [], [⟨0, 8, .ro, 0x0, []⟩, ⟨8, 8, .ro, 0x0, []⟩]⟩,
   -- DMA_IRQ
   ⟨0x180004, [], [⟨0, 8, .w1c, 0x0, []⟩]⟩,
   -- DMA_IRQ_EN
   ⟨0x180008, [], [⟨0, 8, .rw, 0x0, []⟩]⟩,
   -- DMA_CH_CTRL
   ⟨0x180100, [(0x40, 8)], [⟨0, 1, .wo, 0x0, []⟩, ⟨1, 1, .wo, 0x0, []⟩, ⟨2, 1, .wo, 0x0, []⟩, ⟨3, 1, .wo, 0x0, []⟩]⟩,
   -- DMA_CH_STATUS
   ⟨0x180104, [(0x40, 8)], [⟨0, 2, .ro, 0x0, []⟩, ⟨2, 1, .ro, 0x0, []⟩, ⟨3, 1, .ro, 0x0, []⟩, ⟨4, 4, .ro, 0x0, []⟩, ⟨8, 8, .ro, 0x0, []⟩, ⟨16, 3, .ro, 0x0, []⟩]⟩,
   -- DMA_CH_SRC_LO
   ⟨0x180108, [(0x40, 8)], [⟨0, 32, .rws, 0x0, []⟩]⟩,
   -- DMA_CH_SRC_HI
   ⟨0x18010C, [(0x40, 8)], [⟨0, 32, .rws, 0x0, []⟩]⟩,
   -- DMA_CH_DST_LO
   ⟨0x180110, [(0x40, 8)], [⟨0, 32, .rws, 0x0, []⟩]⟩,
   -- DMA_CH_DST_HI
   ⟨0x180114, [(0x40, 8)], [⟨0, 32, .rws, 0x0, []⟩]⟩,
   -- DMA_CH_COUNT
   ⟨0x180118, [(0x40, 8)], [⟨0, 24, .rws, 0x1, [(0x1, 0xFFFFFF)]⟩]⟩,
   -- DMA_CH_MODE
   ⟨0x18011C, [(0x40, 8)], [⟨0, 2, .rws, 0x0, [(0x0, 0x2)]⟩, ⟨2, 1, .rws, 0x0, []⟩, ⟨3, 3, .rws, 0x3, []⟩, ⟨6, 2, .rws, 0x2, []⟩, ⟨8, 2, .rws, 0x2, []⟩, ⟨10, 1, .rws, 0x0, []⟩, ⟨11, 1, .rws, 0x0, []⟩, ⟨12, 5, .rws, 0x0, [(0x0, 0x0), (0x4, 0x1A)]⟩, ⟨17, 5, .rws, 0x0, [(0x0, 0x0), (0x4, 0x1A)]⟩]⟩,
   -- DMA_CH_FILL
   ⟨0x180120, [(0x40, 8)], [⟨0, 32, .rws, 0x0, []⟩]⟩,
   -- DMA_CH_PACE
   ⟨0x180124, [(0x40, 8)], [⟨0, 9, .rw, 0x40, [(0x1, 0x100)]⟩, ⟨16, 7, .rw, 0x4B, [(0x1, 0x64)]⟩, ⟨24, 7, .rw, 0x32, []⟩]⟩,
   -- DMA_CH_PROGRESS
   ⟨0x180128, [(0x40, 8)], [⟨0, 24, .ro, 0x0, []⟩]⟩,
   -- DMA_CH_ERROR
   ⟨0x18012C, [(0x40, 8)], [⟨0, 32, .ro, 0x0, []⟩]⟩]

def rowsNvh : List RegRow :=
  [
   -- NVH_STATUS
   ⟨0x190000, [], [⟨0, 3, .ro, 0x0, []⟩, ⟨3, 1, .ro, 0x0, []⟩, ⟨4, 1, .ro, 0x0, []⟩, ⟨5, 1, .ro, 0x0, []⟩, ⟨6, 1, .ro, 0x0, []⟩]⟩,
   -- NVH_CTRL
   ⟨0x190004, [], [⟨0, 2, .rw, 0x2, [(0x0, 0x2)]⟩, ⟨2, 1, .rw, 0x0, []⟩, ⟨3, 1, .rw, 0x1, []⟩, ⟨4, 3, .rw, 0x4, [(0x1, 0x4)]⟩]⟩,
   -- NVH_CMD
   ⟨0x190008, [], [⟨0, 1, .wo, 0x0, []⟩, ⟨1, 1, .wo, 0x0, []⟩, ⟨2, 1, .wo, 0x0, []⟩]⟩,
   -- NVH_TIMEOUT
   ⟨0x19000C, [], [⟨0, 16, .rw, 0x1F4, [(0xA, 0xEA60)]⟩, ⟨16, 4, .rw, 0x3, []⟩]⟩,
   -- NVH_RECORD
   ⟨0x190010, [], [⟨0, 16, .rw, 0x7D0, [(0x64, 0xFFFF)]⟩]⟩,
   -- NVH_SELECT
   ⟨0x190014, [], [⟨0, 4, .rw, 0x6, []⟩, ⟨16, 16, .rw, 0x0, []⟩]⟩,
   -- NVH_LINK
   ⟨0x190018, [], [⟨0, 3, .ro, 0x0, []⟩, ⟨3, 3, .ro, 0x0, []⟩, ⟨6, 3, .ro, 0x0, []⟩, ⟨9, 1, .ro, 0x0, []⟩]⟩,
   -- NVH_CAP_LO
   ⟨0x19001C, [], [⟨0, 32, .ro, 0x0, []⟩]⟩,
   -- NVH_CAP_HI
   ⟨0x190020, [], [⟨0, 32, .ro, 0x0, []⟩]⟩,
   -- NVH_SMART
   ⟨0x190024, [], [⟨0, 8, .ro, 0x0, []⟩, ⟨8, 8, .ro, 0x0, []⟩, ⟨16, 16, .ro, 0x0, []⟩]⟩,
   -- NVH_ARCHIVED_LO
   ⟨0x190028, [], [⟨0, 32, .ro, 0x0, []⟩]⟩,
   -- NVH_ARCHIVED_HI
   ⟨0x19002C, [], [⟨0, 32, .ro, 0x0, []⟩]⟩,
   -- NVH_SKIPPED
   ⟨0x190030, [], [⟨0, 32, .ro, 0x0, []⟩]⟩,
   -- NVH_DROPS
   ⟨0x190034, [], [⟨0, 16, .ro, 0x0, []⟩, ⟨16, 8, .ro, 0x0, []⟩, ⟨24, 8, .ro, 0x0, []⟩]⟩,
   -- NVH_R_START
   ⟨0x190100, [(0x8, 5)], [⟨0, 32, .rw, 0x0, []⟩]⟩,
   -- NVH_R_SIZE
   ⟨0x190104, [(0x8, 5)], [⟨0, 6, .rw, 0x0, [(0x0, 0x0), (0x2, 0x20)]⟩]⟩]

def rowsEth : List RegRow :=
  [
   -- ETH_STATUS
   ⟨0x1A0000, [], [⟨0, 4, .ro, 0x0, []⟩, ⟨4, 4, .ro, 0x0, []⟩, ⟨8, 2, .ro, 0x0, []⟩, ⟨10, 1, .ro, 0x0, []⟩, ⟨11, 1, .ro, 0x0, []⟩]⟩,
   -- ETH_CTRL
   ⟨0x1A0004, [], [⟨0, 16, .rw, 0x4A52, [(0x400, 0xFFFC)]⟩, ⟨16, 8, .rw, 0x40, [(0x1, 0xFF)]⟩]⟩,
   -- ETH_CMD
   ⟨0x1A0008, [], [⟨0, 1, .wo, 0x0, []⟩, ⟨1, 1, .wo, 0x0, []⟩]⟩,
   -- ETH_IP
   ⟨0x1A000C, [], [⟨0, 32, .rw, 0xC0A80A40, []⟩]⟩,
   -- ETH_MAC_LO
   ⟨0x1A0010, [], [⟨0, 32, .rw, 0x0, []⟩]⟩,
   -- ETH_MAC_HI
   ⟨0x1A0014, [], [⟨0, 16, .rw, 0x0, []⟩]⟩,
   -- ETH_VLAN
   ⟨0x1A0018, [], [⟨0, 12, .rw, 0x1, [(0x1, 0xFFE)]⟩, ⟨12, 3, .rw, 0x0, []⟩, ⟨15, 1, .rw, 0x0, []⟩]⟩,
   -- ETH_REC
   ⟨0x1A001C, [], [⟨0, 6, .rw, 0x5, [(0x1, 0x20)]⟩, ⟨8, 10, .rw, 0x64, [(0xA, 0x3E8)]⟩]⟩,
   -- ETH_REC_TIME
   ⟨0x1A0020, [], [⟨0, 8, .rw, 0xA, [(0x1, 0xFF)]⟩, ⟨8, 8, .rw, 0xA, [(0x1, 0xFF)]⟩, ⟨16, 16, .rw, 0x64, [(0xA, 0xFFFF)]⟩]⟩,
   -- ETH_REC_ACKED_LO
   ⟨0x1A0024, [], [⟨0, 32, .ro, 0x0, []⟩]⟩,
   -- ETH_REC_ACKED_HI
   ⟨0x1A0028, [], [⟨0, 32, .ro, 0x0, []⟩]⟩,
   -- ETH_REC_RESENT
   ⟨0x1A002C, [], [⟨0, 16, .ro, 0x0, []⟩, ⟨16, 16, .ro, 0x0, []⟩]⟩,
   -- ETH_LOSS
   ⟨0x1A0030, [], [⟨0, 16, .ro, 0x0, []⟩, ⟨16, 8, .ro, 0x0, []⟩, ⟨24, 8, .ro, 0x0, []⟩]⟩,
   -- ETH_P_CTRL
   ⟨0x1A0040, [(0x10, 4)], [⟨0, 2, .rw, 0x0, [(0x0, 0x2)]⟩, ⟨2, 1, .rw, 0x0, []⟩, ⟨3, 1, .rw, 0x0, []⟩]⟩,
   -- ETH_P_STATUS
   ⟨0x1A0044, [(0x10, 4)], [⟨0, 1, .ro, 0x0, []⟩, ⟨1, 1, .ro, 0x0, []⟩, ⟨2, 1, .ro, 0x0, []⟩, ⟨3, 1, .ro, 0x0, []⟩, ⟨4, 1, .ro, 0x0, []⟩, ⟨16, 16, .ro, 0x0, []⟩]⟩,
   -- ETH_P_DROP
   ⟨0x1A0048, [(0x10, 4)], [⟨0, 8, .ro, 0x0, []⟩, ⟨8, 8, .ro, 0x0, []⟩, ⟨16, 8, .ro, 0x0, []⟩, ⟨24, 8, .ro, 0x0, []⟩]⟩,
   -- ETH_P_FEC
   ⟨0x1A004C, [(0x10, 4)], [⟨0, 16, .ro, 0x0, []⟩, ⟨16, 16, .ro, 0x0, []⟩]⟩,
   -- ETH_S_CTRL
   ⟨0x1A0100, [(0x10, 4)], [⟨0, 1, .rw, 0x0, []⟩, ⟨1, 2, .rw, 0x0, []⟩, ⟨3, 1, .rw, 0x0, []⟩, ⟨4, 2, .rw, 0x1, []⟩, ⟨6, 1, .rw, 0x0, []⟩, ⟨16, 16, .rw, 0x4A52, []⟩]⟩,
   -- ETH_S_DIP
   ⟨0x1A0104, [(0x10, 4)], [⟨0, 32, .rw, 0x0, []⟩]⟩,
   -- ETH_S_DMAC_LO
   ⟨0x1A0108, [(0x10, 4)], [⟨0, 32, .rw, 0x0, []⟩]⟩,
   -- ETH_S_DMAC_HI
   ⟨0x1A010C, [(0x10, 4)], [⟨0, 16, .rw, 0x0, []⟩]⟩]

def rowsPtp : List RegRow :=
  [
   -- PTP_STATUS
   ⟨0x1B0000, [], [⟨0, 2, .ro, 0x0, []⟩, ⟨2, 1, .ro, 0x0, []⟩, ⟨3, 1, .ro, 0x0, []⟩, ⟨4, 1, .ro, 0x0, []⟩]⟩,
   -- PTP_CTRL
   ⟨0x1B0004, [], [⟨0, 1, .rw, 0x0, []⟩, ⟨1, 1, .rw, 0x0, []⟩, ⟨2, 2, .rw, 0x0, []⟩, ⟨4, 8, .rw, 0x0, [(0x0, 0x7F)]⟩, ⟨16, 16, .rw, 0x3C, [(0x1, 0xFFFF)]⟩]⟩,
   -- PTP_SERVO
   ⟨0x1B0008, [], [⟨0, 16, .rw, 0xC8, [(0xA, 0xFFFF)]⟩, ⟨16, 8, .rw, 0xA, [(0x1, 0xC8)]⟩, ⟨24, 8, .rw, 0x1, [(0x1, 0xFF)]⟩]⟩,
   -- PTP_OFFSET
   ⟨0x1B000C, [], [⟨0, 32, .ro, 0x0, []⟩]⟩,
   -- PTP_DELAY
   ⟨0x1B0010, [], [⟨0, 32, .ro, 0x0, []⟩]⟩,
   -- PTP_FREQ
   ⟨0x1B0014, [], [⟨0, 32, .ro, 0x0, []⟩]⟩,
   -- PTP_GM_LO
   ⟨0x1B0018, [], [⟨0, 32, .ro, 0x0, []⟩]⟩,
   -- PTP_GM_HI
   ⟨0x1B001C, [], [⟨0, 32, .ro, 0x0, []⟩]⟩,
   -- PTP_PPS
   ⟨0x1B0020, [], [⟨0, 10, .rw, 0x64, [(0x1, 0x3E7)]⟩]⟩,
   -- PTP_PPS_IN_LO
   ⟨0x1B0024, [], [⟨0, 32, .ro, 0x0, []⟩]⟩,
   -- PTP_PPS_IN_HI
   ⟨0x1B0028, [], [⟨0, 32, .ro, 0x0, []⟩]⟩,
   -- PTP_COUNTS
   ⟨0x1B002C, [], [⟨0, 16, .ro, 0x0, []⟩, ⟨16, 8, .ro, 0x0, []⟩, ⟨24, 8, .ro, 0x0, []⟩]⟩]

/-- The rows of one bank, by the upper half of the address (Table 19-1). -/
def bankRows (b : Nat) : List RegRow :=
  if b = 0x0 then rowsGen
  else if b = 0x1 then rowsPwr
  else if b = 0x2 then rowsRst
  else if b = 0x3 then rowsTbs
  else if b = 0x4 then rowsCfg
  else if b = 0x5 then rowsMpt
  else if b = 0x6 then rowsKep
  else if b = 0x10 then rowsRdo
  else if b = 0x11 then rowsCor
  else if b = 0x12 then rowsCal
  else if b = 0x13 then rowsTrk
  else if b = 0x14 then rowsAst
  else if b = 0x15 then rowsDrl
  else if b = 0x16 then rowsVlv
  else if b = 0x17 then rowsHkc
  else if b = 0x18 then rowsDma
  else if b = 0x19 then rowsNvh
  else if b = 0x1A then rowsEth
  else if b = 0x1B then rowsPtp
  else []

end Sys2Proof.Machine
end

