-- ==== Sys2Proof/Machine/State.lean ====
section
/-!
DEFINITION. The state of the JT4096 (one structure per unit, plain data), the reset values of its registers, the state after
reset, and the reasons a step can stop.
-/
namespace Sys2Proof.Machine

/-! ### Outgoing packets, events -/

/-- One event (Table 12-6). -/
structure Event where
  epos  : Nat
  time  : Nat
  code  : Nat
  sev   : Nat
  index : Nat
  arg   : Nat
  tick  : Nat
  deriving DecidableEq, Repr

/-- One transmitted frame (R321–R323): what it carries besides the constants of its protocol. `kind` is 0 for a stream packet, 1 for an ARP
reply, 2 for PTP; `payload` is the UDP payload; `df`, `ident`, `ttl` and the UDP checksum `csum` are those of its IPv4 packet. -/
structure Packet where
  kind    : Nat
  port    : Nat
  dmac    : Nat
  smac    : Nat
  sip     : Nat
  df      : Bool
  csum    : Nat
  tag     : Option Nat
  dip     : Nat
  sport   : Nat
  dport   : Nat
  ident   : Nat
  ttl     : Nat
  payload : List Byte
  deriving DecidableEq, Repr

/-! ### Timebase -/

/-- The timebase (Chapter 17). `ticks` counts 10 ns ticks since start-up step 1; `dev` is device time in units of 2⁻³² ns. -/
structure TimeState where
  ticks     : Nat
  dev       : Nat
  line      : Nat
  lines     : Bool
  lineTick  : Nat
  commitTick : Nat
  lsync     : List Nat
  ftachAt   : Nat
  ftachN    : Nat
  ftachLast : Option Nat
  ppsAt     : Nat
  ppsN      : Nat
  ppsOut    : Nat
  timers    : Map Nat
  deriving DecidableEq, Repr

/-! ### Configuration and start-up -/

/-- Where the part stands between power and power (Tables 2-8, 16-6). -/
inductive Stage where
  | off | loading | accepted | running | unconfigured | saving | held
  deriving DecidableEq, Repr

/-- A slot header that passed its checks (Table 2-2). -/
structure Header where
  length     : Nat
  generation : Nat
  count      : Nat
  bodyCrc    : Nat
  deriving DecidableEq, Repr

/-- The image load (R45, R46) and the reload (R59); `reloadNext` is the slot of a reload that waits for a flash operation (R364). -/
structure CfgState where
  stage    : Stage
  slot     : Nat
  next     : List Nat
  headA    : Option Header
  headB    : Option Header
  index    : Nat
  offset   : Nat
  crc      : Word
  regs     : List (Nat × Nat)
  records  : List ImageRecord
  force    : Nat
  erase4k  : Option Nat
  erase64k : Option Nat
  reloading : Bool
  reloadNext : Option Nat
  releasedAt : Nat
  deriving DecidableEq, Repr

/-! ### Management port -/

/-- The reply to the last frame (R344): busy bytes, whether it was aborted, lanes, leading status, data words, trailing status and CRC; none
when nothing was driven. -/
structure Reply where
  busy      : Nat
  busyAbort : Bool
  lanes     : Nat
  leading   : Nat
  data      : List Word
  trailing  : Nat
  crc       : Nat
  deriving DecidableEq, Repr

/-- What the JT4096 shifts for a flash operation: its command, a status poll, or the read-back of a program (Table 13-9). -/
inductive FlashPhase where
  | command | poll | verify
  deriving DecidableEq, Repr

/-- A running flash operation (Table 13-9), with its phase and the whole bytes received of a read (R361). -/
structure FlashRun where
  op     : Nat
  addr   : Nat
  length : Nat
  phase  : FlashPhase
  got    : Nat
  deriving DecidableEq, Repr

/-- A command on the flash's lines: opcode, address and the bytes sent after them (R359, Table 13-9). -/
structure FlashCmd where
  opcode : Nat
  addr   : Option Nat
  data   : List Byte
  deriving DecidableEq, Repr

/-- The management port (Chapter 13): what the next leading status reports, the last reply, the HI latches of each path (R356),
and the flash operation. -/
structure MptState where
  prevCounted   : Bool
  prevApplied   : Bool
  prevRefused   : Bool
  prevDiscarded : Bool
  badHeader     : Bool
  collision     : Bool
  reply         : Option Reply
  latches       : Map Word
  flash         : Option FlashRun
  abandoned     : Bool
  flashOut      : List FlashCmd
  loadAt        : Nat
  deriving DecidableEq, Repr

/-! ### Keep store -/

/-- What a store carries (Table 14-9 OP). -/
inductive StoreKind where
  | host | mark | counters | save
  deriving DecidableEq, Repr

/-- A store (R367, R368): its pages, the marks that come into force with it, and whether it has committed. -/
structure Store where
  kind      : StoreKind
  pages     : List (Nat × List Byte)
  mpos      : Nat
  seqMark   : Nat
  rposMark  : Nat
  gen       : Nat
  committed : Bool
  deriving DecidableEq, Repr

/-- The keep store (Chapter 14). The working array stands in the memory window; `shadow` is the non-volatile array. -/
structure KeepState where
  shadow  : List Host.Cell
  run     : Option Store
  queue   : List Store
  haveSet : Bool
  setTick : Option Nat
  deriving DecidableEq, Repr

/-! ### Power -/

/-- What the save sequence latched (Table 16-6) and how far it has come. -/
structure SaveState where
  cause    : Nat
  start    : Nat
  mv       : Nat
  seq      : Nat
  rpos     : Nat
  inflight : Nat
  deriving DecidableEq, Repr

/-- Power (Chapter 16): what its registers do not hold. Temperatures are K32. -/
structure PwrState where
  save      : Option SaveState
  eUsed     : Int
  vidFreeAt : Nat
  highRuns  : Nat
  readings  : List (List Int)
  pairRuns  : List Nat
  lineAcc   : Rat
  rawAcc    : Rat
  thumbAcc  : Rat
  throttlePeriod : Nat
  throttleAt : Option Nat
  coolSince : Option Nat
  chargeSwitch : Bool
  checking  : Bool
  pfi       : Bool
  arm       : Bool
  deriving DecidableEq, Repr

/-! ### Function resets -/

/-- A running function reset: the device time at which it started (ns), and what it has replayed and missed. -/
structure FuncReset where
  func     : Nat
  start    : Nat
  replayed : Nat
  missed   : Nat
  deriving DecidableEq, Repr

/-- Function resets (Chapter 18): the running ones and the ticks of the recent watchdog resets of each function. -/
structure RstState where
  running : List FuncReset
  dogs    : List (Nat × Nat)
  deriving DecidableEq, Repr

/-! ### Ethernet and PTP -/

/-- Ethernet (Chapter 12): record-stream positions, the line stream, the event buffers and the packets of the last command that
sent any. -/
structure EthState where
  first     : Nat
  nextSend  : Nat
  maxSent   : Nat
  resendTo  : Nat
  ident     : Nat
  progressAt : Nat
  lineNext  : Nat
  events    : List Event
  eventsOut : List Event
  out       : List Packet
  deriving DecidableEq, Repr

/-- A foreign master (R335). -/
structure Master where
  data  : Announce
  port  : Nat
  count : Nat
  last  : Nat
  deriving DecidableEq, Repr

/-- The PTP servo (R335–R338). -/
structure PtpState where
  masters  : List Master
  selected : Option Nat
  sync     : Option SyncMsg
  syncTick : Nat
  good     : Nat
  delayReq : Option (Nat × Int)
  lastSync : Option (Int × Int)
  delayLog : Int
  syncLog  : Int
  reqId    : Nat
  stepBy   : Int
  deriving DecidableEq, Repr

/-! ### Staging, archive engine, NVMe -/

/-- One write command waiting at the drive: channel, first archive block, contents, and (channel 0) the RPOS after its last
record. -/
structure DriveWrite where
  channel : Nat
  block   : Nat
  bytes   : List Byte
  upto    : Nat
  first   : Nat
  fua     : Bool
  due     : Option Nat
  deriving DecidableEq, Repr

/-- An NVMe command that is outstanding (Table 11-10): queue pair (0 the admin queue), opcode, its argument (CNS, feature, queue number, log
page or attribute), first LBA, count (LBAs, queue entries or the feature's value), FUA, and the tick at which CMD_MS ends (R307). -/
structure NvmeCmd where
  queue  : Nat
  opcode : Nat
  arg    : Nat
  lba    : Nat
  count  : Nat
  fua    : Bool
  due    : Nat
  deriving DecidableEq, Repr

/-- The NVMe host (Chapter 11). -/
structure NvhState where
  retries   : Nat
  labelOk   : Bool
  searched  : Bool
  outstanding : Bool
  tposNext  : Nat
  lposNext  : Nat
  sposNext  : Nat
  eposBlock : Nat
  writes    : List DriveWrite
  skipTold  : Bool
  outDrive  : List DriveWrite
  resetOut  : Bool
  cmds      : List NvmeCmd
  ccEn      : Bool
  mqes      : Nat
  payload   : Nat
  maxRead   : Nat
  aer       : Nat
  evBytes   : List Byte
  deriving DecidableEq, Repr

/-- The working copy of an archive channel: sizes and positions in force while it runs (R310, R313). -/
structure Channel where
  src     : Nat
  dst     : Nat
  left    : Nat
  srcBase : Nat
  dstBase : Nat
  held    : List Byte
  mode    : Nat
  fill    : Nat
  auto    : Bool
  bank    : Nat
  deriving DecidableEq, Repr

/-- The archive engine: the channels and the queue of maintenance channels (R309). -/
structure DmaState where
  channels : List Channel
  queue    : List Nat
  deriving DecidableEq, Repr

/-- An aggregate record waiting for its place (R288). -/
structure Aggregate where
  nextSeq : Nat
  body    : List Byte
  deriving DecidableEq, Repr

/-- Record assembly and staging (R196, R287, R296): record slots by RPOS, aggregate records waiting, the power-loss gap record
waiting, and how far the archive blocks have been handed to the drive and the slots freed. -/
structure RecState where
  nextRpos  : Nat
  nextSeq   : Nat
  slots     : Map (List Byte)
  aggregates : List Aggregate
  gap       : Option (List Byte)
  flushed   : Nat
  freed     : Nat
  timed     : Option Nat
  settled   : Nat
  ticks     : Map Nat
  deriving DecidableEq, Repr

/-! ### Housekeeping converter (Chapter 15) -/

/-- A calibration phase: offset and gain of a gain code (R392), or an excitation output (R391). -/
inductive HkcPhase where
  | offset (g : Nat) | gain (g : Nat) | exc (k : Nat)
  deriving DecidableEq, Repr

/-- What the converter does: an entry with its sequence word and the factors OFS, GAIN and CUR as at its start, or a phase. -/
inductive HkcJob where
  | entry (n word ofs gain cur : Nat)
  | phase (p : HkcPhase)
  deriving DecidableEq, Repr

/-- The housekeeping converter: job, waiting phases, whether a pass runs and its next entry, whether a phase ran last (an entry is due,
R392), the built-in sequence of R397, and the OFS that stays in use until a running gain phase ends. -/
structure HkcState where
  job     : Option HkcJob
  phases  : List HkcPhase
  inPass  : Bool
  next    : Nat
  turn    : Bool
  builtin : Bool
  heldOfs : Option (Nat × Nat)
  deriving DecidableEq, Repr

/-! ### Read-out and the sensor link (Chapter 3) -/

/-- One lane of the sensor link: its last 16 frames (true: bad), whether it holds block lock, and good idle frames counted while it
is retrained (R88, R92). -/
structure LinkLane where
  recent : List Bool
  lock   : Bool
  good   : Nat
  retraining : Bool
  deriving DecidableEq, Repr

/-- The reference averages of one furrow or spare: the last 32 codes at each level, newest first, and its consecutive failing
lines (R73, R75). `held` is LO and SPAN as they stood before the first of those lines, or before the lines that declared it failed
(R77). -/
structure FurrowRef where
  lo    : List Nat
  hi    : List Nat
  fails : Nat
  held  : Option (Int × Int)
  deriving DecidableEq, Repr

/-- One substrate thermometer: last reading and reading in effect for the line (R71, R72). -/
structure Therm where
  latest   : Option Int
  inEffect : Option Int
  deriving DecidableEq, Repr

/-- The frames of the group being received: per role none (not yet), or some none (bad), or some codes. -/
structure GroupInput where
  line  : Nat
  slot  : Nat
  group : Nat
  d0    : Option (Option (List Nat))
  d1    : Option (Option (List Nat))
  par   : Option (Option (List Nat))
  deriving DecidableEq, Repr

/-- Read-out (Chapter 3). Furrow f of group g has the key 65 × g + f, its spare 65 × g + 64. `slot` is the next row slot of the
line, 25 when the line has none left. `heads` holds the last valid headland mean of each row, `headNow` the headland codes of the
slot being received. `oldSub` (group, furrow) and `oldRoles` are the substitutions and lane roles of the line before the current one, whose last
frames arrive after its end. -/
structure RdoState where
  slot     : Nat
  biasMv   : Nat
  lanes    : List LinkLane
  moving   : List Nat
  input    : GroupInput
  refs     : Map FurrowRef
  failing  : List Nat
  declared : List Nat
  spareNow : List (Nat × Nat)
  restoreNow : List (Nat × Nat)
  spareDead : List Nat
  heads    : Map Nat
  headNow  : List Nat
  headPass : Nat
  thin     : List Nat
  therms   : List Therm
  rawCodes : List Nat
  rawReady : List (Nat × Nat × Option (List Nat))
  waitLines : Bool
  oldSub   : List (Nat × Nat)
  oldRoles : List (Option Nat)
  deriving DecidableEq, Repr

/-! ### Correction (Chapter 4) -/

/-- What is fixed for a line at its boundary (R28): bank, table copy, TFLAG of the bank, thermometer differences (none: it takes no part),
whether every pixel carries SUBSTRATE, whether lag inversion is off for the line, and the row weights of its field line (R127). -/
structure LineEnv where
  line    : Nat
  bank    : Nat
  table   : Nat
  base    : Int
  stepLog : Nat
  dts     : List (Option Int)
  lost    : Bool
  lagOff  : Bool
  depth   : Nat
  lagPeriod : Nat
  start   : Nat
  inc     : Nat
  period  : Nat
  nu      : Rat
  clamped : Bool
  plate   : Option Int
  therms  : List (Option Int)
  tflag   : Int
  weights : List Nat
  deriving DecidableEq, Repr

/-- A corrected pixel before stage 6 replaces it: value, stage-1 value u, flags, whether R83 replaces it, the τ code of its record, and
whether no two lanes agreed on it (R110). -/
structure RowPixel where
  value : Int
  u     : Int
  flags : Nat
  out   : Bool
  tau   : Nat
  unres : Bool
  deriving DecidableEq, Repr

/-- A pixel on its way: raw code, flags of read-out, whether its column is unspared or its data lost, earlier results of other
lanes, the lanes that held it, and from its first issue on what a lane without a fault makes of it: it keeps the coefficients of the bank
of its line to its last issue (R28, R105). -/
structure Pixel where
  line  : Nat
  row   : Nat
  col   : Nat
  raw   : Nat
  flags : Nat
  out   : Bool
  tries : List Int
  tried : List Nat
  exact : Option RowPixel
  deriving DecidableEq, Repr

/-- A row whose pixels are being collected. -/
structure RowWork where
  line : Nat
  row  : Nat
  h    : Option (Nat × Bool)
  got  : Nat
  px   : Map RowPixel
  deriving DecidableEq, Repr

/-- Correction (Chapter 4): the issue buffer of 32,768 pixels and what waits for room in it (R108; log entry 79), the pixels the lanes hold,
pixels to recompute, rows being collected, which TS_REF of each bank have been written, and which first readings have been (R103): flag,
plate, thermometers 0 to 7. -/
structure CorState where
  env     : List LineEnv
  buffer  : List Pixel
  waiting : List Pixel
  lanes   : List (Option Pixel)
  again   : List Pixel
  lastLane : Nat
  lineMiss : List Nat
  rows    : List RowWork
  swapLine : Option Nat
  tableLine : Option Nat
  held    : List (Option Int)
  refSet  : List (List Bool)
  firstDone : List Bool
  deriving DecidableEq, Repr

/-! ### Lag inversion and walk (Chapter 5) -/

/-- One entry of the field-line ring (Table 5-4), with the column's background as used for its line (R135, R136). -/
structure FieldPixel where
  value : Int
  flags : Nat
  rows  : Nat
  bg    : Option Int
  deriving DecidableEq, Repr

/-- Lag inversion and walk (Chapter 5). `lag` is keyed row × 4096 + column, `hist` (line × 24 + row) × 4096 + column and holds
(T16 code or 0xFFFF, flags), `ring` line × 4096 + column. A lag gain table is held as its parameters (depth, period). Lines
below `histFrom` are out of reach (R142, R154); `formed` names the field lines in the ring, newest first. -/
structure WalkState where
  lag      : Map (Int × Nat)
  hist     : Map (Nat × Nat)
  ring     : Map FieldPixel
  nextField : Nat
  lineDone : List Nat
  histFrom : Nat
  formed   : List Nat
  nu       : Rat
  building : Option (Nat × Nat)
  wanted   : Option (Nat × Nat)
  built    : Option (Nat × Nat)
  inUse    : Nat × Nat
  deriving DecidableEq, Repr

/-! ### Calibration (Chapter 6) -/

/-- One averaging line of an event: line, thermometer readings in effect, u of every pixel (key row × 4160 + physical column), and
the pixels whose sample is bad (R157). -/
structure AvgLine where
  line   : Nat
  therms : List (Option Int)
  u      : Map Int
  bad    : List Nat
  deriving DecidableEq, Repr

/-- A binary search of one DAC: the code tried, the best code so far and its distance from the target (R175). -/
structure SarChan where
  code : Nat
  best : Nat
  dist : Option Rat
  deriving DecidableEq, Repr

/-- A running trim (R174, R175). `kind`: 0 capacitor sets, 1 skim sources, 2 bias DAC, 3 skim-reference DAC, 4 headland DACs. Sums
and counts are by furrow index; `best` holds distance and choice. -/
structure TrimRun where
  kind  : Nat
  trial : Nat
  start : Nat
  lo    : Map (Nat × Nat)
  hi    : Map (Nat × Nat)
  row   : Map (Nat × Nat)
  sat   : List Nat
  best  : Map (Rat × Nat)
  sar   : List SarChan
  deriving DecidableEq, Repr

/-- What a solve found (R158–R162): the pixel records to write (address, bytes) and the failures of each check. -/
structure Solved where
  failing : Nat
  data    : Nat
  noise   : Nat
  offset  : Nat
  gain    : Nat
  offsetOnly : Bool
  deriving DecidableEq, Repr

/-- Calibration (Chapter 6). `op` is the opcode of the script instruction in progress, none when the next one may be fetched.
`closed`: CLOSE has begun in this run; `during`: steps 2 to 5 run (R163). `check` holds the lines whose view R155 compares (true: step 5).
`lens` is the number of words of each script. `due` holds the gleaned updates of D that follow the last pixel of the line before `dueLine` (R107). `blind` is the last blind span (R153): its first line, and its last once it has ended; `gleanNext` the first line not yet gleaned;
`frozen` what a running solve uses of pixels that gleaning changed after the middle flag line (R165): pixel index, D, stored flags. -/
structure CalState where
  held     : Bool
  fgap     : Bool
  fgapTick : Nat
  op       : Option Nat
  start    : Nat
  untilLine : Nat
  gapPc    : Option Nat
  shutter  : Bool
  closed   : Bool
  sawPlate : Bool
  sawFlag  : Bool
  during   : Bool
  closing  : Option (Nat × Nat)
  plateLines : Option (Nat × Nat)
  flagLines : Option (Nat × Nat)
  plate    : List AvgLine
  flag     : List AvgLine
  dropped  : List Nat
  tsRef    : List (Option Int)
  tflag    : Option Int
  tplate   : Option Int
  reason   : Nat
  solving  : Option Nat
  solved   : Option Solved
  refused  : Bool
  swapAsked : Bool
  viewSum  : Int
  viewN    : Nat
  view     : Option Rat
  check    : List (Nat × Bool)
  row0Bad  : Option Nat
  fieldBad : Option Nat
  silentUntil : Nat
  acceptedTick : Option Nat
  flagNow  : Option Int
  plateNow : Option Int
  flagLatest : Option (Int × Bool)
  plateLatest : Option (Int × Bool)
  flagOk   : Bool
  plateOk  : Bool
  trim     : Option TrimRun
  glean    : Map (Int × Nat)
  gleanAcc : Rat
  writes   : List (Nat × Int × Bool)
  due      : List (Nat × Int × Bool)
  dueLine  : Nat
  qual     : Map (Int × Int × Nat)
  lastSwap : Nat
  blind    : Option (Nat × Option Nat)
  gleanNext : Nat
  frozen   : List (Nat × Int × Nat)
  settle   : List (List (Option Int))
  lens     : List Nat
  deriving DecidableEq, Repr

/-! ### Tracking, judging, planning (Chapters 7 to 9) -/

/-- What detection follows (R184–R189): polarity, opening, box, window, extent in the last line that extended it (`ext`: the column
ranges of its runs, whose union it is), flags, walk speed
`nu` in rows per µs, and the fit: T_mean (ns) and r_mean, or those of R237 for a nominal velocity. `age` orders openings. -/
structure Ctx where
  age      : Nat
  pol      : Nat
  openLine : Nat
  openTime : Nat
  left     : Nat
  right    : Nat
  winLeft  : Nat
  ext      : List (Nat × Nat)
  lastLine : Nat
  flags    : Nat
  nu       : Rat
  walkNu   : Rat
  velClamp : Bool
  tMean    : Rat
  rMean    : Rat
  vel      : Nat
  velRes   : Nat
  velRows  : Nat
  period   : Nat
  areaSum  : Nat
  deriving DecidableEq, Repr

/-- A slot descriptor as a sheaf is bound to it (R225, R226). -/
structure Binding where
  slot  : Nat
  area  : Nat
  len   : Nat
  budget : Nat
  deadlineUs : Nat
  dbase : Nat
  dlen  : Nat
  deriving DecidableEq, Repr

/-- Where a plan entry stands: nothing to come, requested, or running. -/
inductive EntryPhase where
  | ended | requested | running
  deriving DecidableEq, Repr

/-- One valve entry of a plan (Table 9-3), its planned end, and its phase. -/
structure PlanEntry where
  valve : Nat
  flags : Nat
  gate  : Int
  stop  : Int
  delay : Option Nat
  onAct : Nat
  lead  : Nat
  move  : Option Nat
  phase : EntryPhase
  deriving DecidableEq, Repr

/-- The drill's plan of an object (Table 9-3): flight, sets fixed at seal and the drill set in force then (R236). -/
structure Plan where
  tView   : Int
  tArrive : Int
  tLeave  : Int
  latest  : Option Int
  vView   : Int
  onNs    : Nat
  flags   : Nat
  outcome : Nat
  tPlan   : Nat
  noFlight : Bool
  plain   : List Nat
  plainCut : Bool
  wide    : List Nat
  wideCut : Bool
  start   : Int
  lateTol : Nat
  minOn   : Nat
  entries : List PlanEntry
  deriving DecidableEq, Repr

/-- One admitted sheaf: its sheaf-store entry (Tables 7-7, 8-8, 9-3), its image (key line × 4096 + column of the field line: S16,
marker, flags), and what the judging and the drill hold for it. -/
structure Sheaf where
  slot    : Nat
  seq     : Nat
  prevSeq : Option Nat
  state   : Nat
  ctx     : Ctx
  lines   : Nat
  area    : Nat
  peak    : Int
  pixflags : Nat
  tiles   : List (Nat × Nat)
  dir     : Option Nat
  img     : Map (Int × Bool × Nat)
  tSeal   : Nat
  tOutcome : Nat
  rflags  : Nat
  tstat   : Nat
  engine  : Nat
  verdict : Nat
  disp    : Nat
  klass   : Nat
  status  : Nat
  runs    : Nat
  cycles  : Nat
  feats   : List Word
  bound   : Option Binding
  deadline : Option Int
  used    : List Nat
  reruns  : Nat
  plan    : Plan
  admitted : Nat
  deriving DecidableEq, Repr

/-- A shadow or silent context (R193, R194). -/
structure Shadow where
  silent : Bool
  ctx    : Ctx
  deriving DecidableEq, Repr

/-- Refusals of one millisecond of device time (R196): counts by cause, by polarity, and overflow. -/
structure Refusals where
  ms   : Nat
  stopped : Nat
  rate : Nat
  store : Nat
  memory : Nat
  hot  : Nat
  cold : Nat
  spill : Nat
  deriving DecidableEq, Repr

/-- A lost sheaf-store entry waiting for its record (R449): sequence number and body. -/
structure LostEntry where
  seq  : Nat
  body : List Byte
  deriving DecidableEq, Repr

/-- Detection and tracking (Chapter 7). `bg` holds the loaded backgrounds, `bgUsed` those
used for the last field line, `marks` the columns that disqualify gleaning by field
line, `boxes` recent closed boxes (open line, last line, left, right), `held` what each copy of the sheaf store that was declared failed
held when it was (R202; log entry 82). -/
structure TrkState where
  bg      : Map Int
  bgUsed  : Map Int
  stepRun : Nat
  sheaves : Map Sheaf
  shadows : List Shadow
  usedBlocks : List Nat
  tokens  : Rat
  tokenAt : Nat
  refused : Option Refusals
  marks   : List (Nat × List Nat)
  boxes   : List (Nat × Nat × Nat × Nat)
  nextAge : Nat
  copyErr : List Nat
  held    : List (Option (Map Sheaf))
  lostOnes : List LostEntry
  admitNext : Bool
  deriving DecidableEq, Repr

/-- An Aster engine (R210): the sheaf it runs, its registers and state, and the ticks of its recent faults. -/
structure Engine where
  sheaf  : Option Nat
  regs   : List Word
  l0     : Int
  l1     : Int
  k0     : Int
  k1     : Int
  m      : Bool
  feats  : List Word
  idx    : Nat
  cycles : Nat
  lastDone : Nat
  faults : List Nat
  deriving DecidableEq, Repr

/-- Judging (Chapter 8). -/
structure AstState where
  engines : List Engine
  deriving DecidableEq, Repr

/-- A requested pull-in, not yet gated: the plan entries that it serves (a sheaf-store slot, or 8,192 plus a fast-path plan, with the
entry's number), planned gate and end, requested gate time, the least on time, whether it waits, and the conditions (EFLAGS bits)
that were unmet when it was last looked at. Times are device time in ns. -/
structure PullIn where
  owners : List (Nat × Nat)
  valve : Nat
  gate  : Int
  req   : Int
  stop  : Int
  minOn : Nat
  waits : Bool
  unmet : Nat
  deriving DecidableEq, Repr

/-- The drill (Chapter 9): requested pull-ins, fast-path plans, heat and energy estimates, the column-to-valve map. THETA is held as
(value in mK, device time in ns), exact but for the exponential (log entry 6). -/
structure DrlState where
  pulls   : List PullIn
  fast    : Map Plan
  map     : Map Nat
  theta   : Map (Rat × Nat)
  limited : List Nat
  lastBoost : Map Nat
  lastGate : Map Nat
  eEst    : Rat
  eAt     : Nat
  vboost  : Option Nat
  deriving DecidableEq, Repr

/-- A running actuation of a valve: state (1 BOOST, 2 HOLD, 3 DECAY), its entries (owner, entry), gate edge, planned end, actual
end (`stop`, at least MIN_ON after the gate edge), the profile in force at the gate edge, whether its column carried no other valve in BOOST, charge (nC), I²t (A²·µs), the highest code of the last on
interval and whether that was shared, MOVE, whether the dip search ended, the release time, and since when it is held past its end.
`minOn` is its least on time, `opened` tells whether its gate edge asserted the column switch, `seen` up to when the column's samples have
been taken, and `shares` since when the column was shared or not, newest first. Times are device time in ns. -/
structure Act where
  valve  : Nat
  mode   : Nat
  owners : List (Nat × Nat)
  gate   : Int
  planned : Int
  stop   : Int
  minOn  : Nat
  prof   : List Word
  opened : Bool
  seen   : Int
  shares : List (Int × Bool)
  boosted : Bool
  alone  : Bool
  charge : Rat
  i2t    : Rat
  lastOn : Option Nat
  lastShared : Bool
  dip    : Option Nat
  release : Option Int
  heldPast : Bool
  deriving DecidableEq, Repr

/-- An auxiliary channel (R284): state, profile, whether its start asserted the switch, start and release time (device time, ns), and the
highest code of its last on interval. -/
structure Aux where
  mode  : Nat
  prof  : List Word
  opened : Bool
  gate  : Int
  release : Int
  lastOn : Option Nat
  deriving DecidableEq, Repr

/-- The valve matrix (Chapter 10): actuations, cross valves with their release times, valves disabled by their own fault, the group of
the last VALVE_OPEN of a column, the auxiliary channels and their last samples, the latest VHOLD result (mV), since when no valve has been energised and when
the last idle scan began (ticks), and the column that a running scan asserts next. In device time (ns): `lsc`, whether the switch of a column
(64 and 65: of a channel) is asserted and since when; `chop`, when its chopping period began; `groupAt`, when a group's command last changed. -/
structure VlvState where
  acts    : List Act
  crossRel : List (Nat × Int)
  valveDis : List Nat
  openCols : Map Nat
  aux     : List (Option Aux)
  auxCode : List Nat
  vhold   : Option Nat
  idleSince : Nat
  lastScan : Option Nat
  scanCol : Option Nat
  lsc     : Map (Bool × Int)
  chop    : Map Int
  groupAt : List Int
  deriving DecidableEq, Repr

/-! ### The reset values of registers (R11, R458) -/

/-- Whether an address is one of the registers of a row. -/
def RegRow.covers (r : RegRow) (a : Nat) : Bool :=
  decide (r.base ≤ a) &&
  (match r.dims with
   | [] => decide (a = r.base)
   | [(st, n)] => decide ((a - r.base) % st = 0 ∧ (a - r.base) / st < n)
   | [(st, n), (st', n')] =>
     decide ((a - r.base) / st < n ∧ (a - r.base) % st % st' = 0 ∧ (a - r.base) % st / st' < n')
   | _ => false)

/-- The row of an address in the register index, if the address is a register (Table 19-9). -/
def regRow (a : Nat) : Option RegRow := (bankRows (a / 65536)).find? (fun r => r.covers a)

/-- The word that the reset values of a row's fields make. -/
def RegRow.resetValue (r : RegRow) : Nat := r.fields.foldl (fun acc f => acc + f.reset * 2 ^ f.lo) 0

/-- Default SET_MW of the regions (Table 16-3). -/
def defaultSetMw : List Nat := [900, 800, 1100, 1100, 700, 600, 600, 400, 0, 0, 0, 0]

/-- Script 1, the shutter event (Table 6-8). -/
def shutterScript : List Word :=
  [0x02000000, 0x03000000, 0x04000000, 0x05000000, 0x06000000, 0x09000003, 0x07000000, 0x05000000, 0x08000000, 0x0A000000, 0]

/-- The built-in scripts (Table 6-8, R42). -/
def builtinScript (n : Nat) : List Word :=
  if n = 0 then [0x0D000000, 0x0D000001, 0x0B000000, 0x0C000000, 0x0D000002, 0]
  else if n = 1 then shutterScript
  else if n = 2 then shutterScript.set 5 0x09000001
  else if n = 3 then 0x0B000000 :: 0x0C000000 :: shutterScript
  else [0]

namespace Reg

/-- What a register holds after reset: the reset values of its fields, or the default of an L field (R11, R458). Per-part
fields are constants of Config (Table 19-5). -/
def resetWord (a : Nat) : Word :=
  if a = GEN_VERSION then
    BitVec.ofNat 32 (Config.procStep.toNat + Config.sensorStep.toNat * 256 + Config.gradeIB.toNat * 65536 + 16777216)
  else if AST_SLOT_PROG 0 ≤ a ∧ a < AST_SLOT_PROG 16 ∧ (a - AST_SLOT_PROG 0) % (AST_SLOT_PROG 1 - AST_SLOT_PROG 0) = 0 then
    BitVec.ofNat 32 ((a - AST_SLOT_PROG 0) / (AST_SLOT_PROG 1 - AST_SLOT_PROG 0) * 2 ^ (AST_SLOT_PROG_AREA 0).lo
      + ((regRow a).map RegRow.resetValue).getD 0)
  else if PWR_REGION 0 ≤ a ∧ a < PWR_REGION 12 then BitVec.ofNat 32 (defaultSetMw.getD ((a - PWR_REGION 0) / 4) 0)
  else if CAL_SCRIPT_MEM 0 0 ≤ a ∧ a < CAL_SCRIPT_MEM 16 0 then
    (builtinScript ((a - CAL_SCRIPT_MEM 0 0) / 1024)).getD ((a - CAL_SCRIPT_MEM 0 0) % 1024 / 4) 0
  else if a = CAL_DAC_BIAS then Config.biasStart.setWidth 32
  else if a = CAL_DAC_SKIM then Config.skimStart.setWidth 32
  else BitVec.ofNat 32 (((regRow a).map RegRow.resetValue).getD 0)

end Reg

/-! ### Memory windows -/

/-- The bytes of the identity page that the part carries from manufacture, but for its CRC (R366): MAGIC, LAYOUT, identifier. -/
def identityBytes : List Byte := leBytes 4 0x494B524A ++ leBytes 4 1 ++ leBytes 8 Config.uid.toNat ++ leBytes 44 0

/-- The identity page (R366). -/
def identityPage : List Byte := identityBytes ++ leBytes 4 (crc32 identityBytes).toNat

/-- Whether an address is the flags byte of a pixel record (Tables 4-4, 4-5). -/
def pixelFlagByte (a : Nat) : Bool :=
  decide (0x01000000 ≤ a ∧ a < 0x01800000 ∧ (a - 0x01000000) % 0x400000 < 0x30C000 ∧ a % 32 = 26)

/-- What a window byte reads as that nothing has written: the identity page of the keep store; the UNCAL flag of a pixel that no
pixel record covers (R42); else zero (DESIGN CHOICE, log entry 4: the manual gives on-die SRAM no contents at power-on). -/
def memDefault (a : Nat) : Byte :=
  if 0x04000000 ≤ a ∧ a < 0x04000040 then identityPage.getD (a - 0x04000000) 0
  else if pixelFlagByte a then 16
  else 0

/-- The canonical form of a memory: addresses strictly rising, no entry that equals what an unlisted address reads as. -/
def Memory.wf (m : List Host.Cell) : Bool := Map.wf memDefault m

/-- The whole block. -/
structure State where
  /-- Commands waiting, first in, first out. -/
  pending : List Instr
  /-- Register words in force, by address; an unlisted register holds its reset word. -/
  regs    : Map Word
  /-- Pending words of the shadow sets (R436), by address; only listed ones wait. -/
  shadow  : Map Word
  /-- The bytes of the coefficient store, Aster memory and the keep store's working array, by address. -/
  mem     : List Host.Cell
  /-- How many free values have been drawn (the model's own). -/
  free    : Nat
  time    : TimeState
  cfg     : CfgState
  mpt     : MptState
  keep    : KeepState
  pwr     : PwrState
  rst     : RstState
  eth     : EthState
  ptp     : PtpState
  nvh     : NvhState
  dma     : DmaState
  stg     : RecState
  hkc     : HkcState
  rdo     : RdoState
  cor     : CorState
  walk    : WalkState
  cal     : CalState
  trk     : TrkState
  ast     : AstState
  drl     : DrlState
  vlv     : VlvState
  deriving DecidableEq, Repr

/-- Reasons a step stops with a fault. -/
inductive Fault where
  /-- A command names a part that the JT4096 does not have (a port above 3, an engine above 15, …). Raised by the meanings of
  commands with such an operand; safe: no such command exists. -/
  | noSuchPart
  deriving DecidableEq, Repr

/-- Reasons a step is refused by the model. -/
inductive Refusal where
  /-- The command's meaning is not written yet; raised by `exec`'s arm for it; safe. -/
  | notModelled (mnemonic : String)
  deriving DecidableEq, Repr

def TimeState.reset : TimeState :=
  { ticks := 0, dev := 0, line := 0, lines := false, lineTick := 0, commitTick := 0, lsync := [], ftachAt := 0, ftachN := 0,
    ftachLast := none, ppsAt := 0, ppsN := 0, ppsOut := 0, timers := [] }

def CfgState.reset : CfgState :=
  { stage := .off, slot := 0, next := [], headA := none, headB := none, index := 0, offset := 0, crc := 0, regs := [],
    records := [], force := 0, erase4k := none, erase64k := none, reloading := false, reloadNext := none, releasedAt := 0 }

def MptState.reset : MptState :=
  { prevCounted := false, prevApplied := false, prevRefused := false, prevDiscarded := false, badHeader := false,
    collision := false, reply := none, latches := [], flash := none, abandoned := false, flashOut := [], loadAt := 0 }

def KeepState.reset : KeepState := { shadow := [], run := none, queue := [], haveSet := false, setTick := none }

def PwrState.reset : PwrState :=
  { save := none, eUsed := 0, vidFreeAt := 0, highRuns := 0, readings := List.replicate 24 [], pairRuns := List.replicate 12 0,
    lineAcc := 0, rawAcc := 0, thumbAcc := 0, throttlePeriod := 0, throttleAt := none,
    coolSince := none, chargeSwitch := false, checking := false, pfi := false, arm := false }

def RstState.reset : RstState := { running := [], dogs := [] }

def EthState.reset : EthState :=
  { first := 0, nextSend := 0, maxSent := 0, resendTo := 0, ident := 0, progressAt := 0, lineNext := 0, events := [],
    eventsOut := [], out := [] }

def PtpState.reset : PtpState :=
  { masters := [], selected := none, sync := none, syncTick := 0, good := 0, delayReq := none, lastSync := none, delayLog := 0,
    syncLog := 0, reqId := 0, stepBy := 0 }

def NvhState.reset : NvhState :=
  { retries := 0, labelOk := false, searched := false, outstanding := false, tposNext := 0, lposNext := 0,
    sposNext := 0, eposBlock := 0, writes := [], skipTold := false, outDrive := [], resetOut := false, cmds := [], ccEn := false, mqes := 0,
    payload := 0, maxRead := 0, aer := 0, evBytes := [] }

def Channel.reset : Channel :=
  { src := 0, dst := 0, left := 0, srcBase := 0, dstBase := 0, held := [], mode := 0, fill := 0, auto := false, bank := 0 }

def DmaState.reset : DmaState := { channels := List.replicate 8 Channel.reset, queue := [] }

def RecState.reset : RecState :=
  { nextRpos := 0, nextSeq := 0, slots := [], aggregates := [], gap := none, flushed := 0, freed := 0, timed := none, settled := 0, ticks := [] }

def HkcState.reset : HkcState :=
  { job := none, phases := [], inPass := false, next := 0, turn := false, builtin := true, heldOfs := none }

def LinkLane.reset : LinkLane := { recent := [], lock := false, good := 0, retraining := false }

def RdoState.reset : RdoState :=
  { slot := 25, biasMv := 0, lanes := List.replicate 4 LinkLane.reset, moving := [], input := ⟨0, 0, 0, none, none, none⟩,
    refs := [], failing := [], declared := [], spareNow := [], restoreNow := [], spareDead := [], heads := [], headNow := [], headPass := 0, thin := [],
    therms := List.replicate 8 ⟨none, none⟩, rawCodes := [], rawReady := [], waitLines := false, oldSub := [], oldRoles := [] }

def CorState.reset : CorState :=
  { env := [], buffer := [], waiting := [], lanes := List.replicate 9 none, again := [], lastLane := 8, lineMiss := List.replicate 9 0, rows := [],
    swapLine := none, tableLine := none, held := List.replicate 8 none, refSet := List.replicate 2 (List.replicate 8 false),
    firstDone := List.replicate 10 false }

def WalkState.reset : WalkState :=
  { lag := [], hist := [], ring := [], nextField := 0, lineDone := [], histFrom := 0, formed := [], nu := 1 / 100,
    building := none, wanted := none, built := none, inUse := (0, 10000) }

def CalState.reset : CalState :=
  { held := false, fgap := false, fgapTick := 0, op := none, start := 0, untilLine := 0, gapPc := none, shutter := false, closed := false,
    sawPlate := false, sawFlag := false, during := false, closing := none, plateLines := none, flagLines := none, plate := [], flag := [],
    dropped := [], tsRef := List.replicate 8 none, tflag := none, tplate := none, reason := 0, solving := none, solved := none,
    refused := false, swapAsked := false, viewSum := 0, viewN := 0, view := none, check := [], row0Bad := none, fieldBad := none,
    silentUntil := 0, acceptedTick := none, flagNow := none, plateNow := none, flagLatest := none, plateLatest := none,
    flagOk := true, plateOk := true, trim := none, glean := [], gleanAcc := 0, writes := [], due := [], dueLine := 0, qual := [], lastSwap := 0,
    blind := none, gleanNext := 0, frozen := [], settle := [],
    lens := (List.range 16).map (fun n => (builtinScript n).length) }

def TrkState.reset : TrkState :=
  { bg := [], bgUsed := [], stepRun := 0, sheaves := [], shadows := [], usedBlocks := [], tokens := 0, tokenAt := 0,
    refused := none, marks := [], boxes := [], nextAge := 0, copyErr := [0, 0], held := [none, none], lostOnes := [],
    admitNext := false }

def Engine.reset : Engine :=
  { sheaf := none, regs := List.replicate 32 0, l0 := 0, l1 := 0, k0 := 0, k1 := 0, m := false, feats := List.replicate 4 0, idx := 0,
    cycles := 0, lastDone := 0, faults := [] }

def AstState.reset : AstState := { engines := List.replicate 16 Engine.reset }

def DrlState.reset : DrlState :=
  { pulls := [], fast := [], map := [], theta := [], limited := [], lastBoost := [], lastGate := [], eEst := 0, eAt := 0,
    vboost := none }

def VlvState.reset : VlvState :=
  { acts := [], crossRel := [], valveDis := [], openCols := [], aux := [none, none], auxCode := [0, 0], vhold := none,
    idleSince := 0, lastScan := none,
    scanCol := none, lsc := [], chop := [], groupAt := List.replicate 16 0 }

/-- The machine right after reset: every register at its reset value, nothing running, nothing waiting. -/
def State.reset : State :=
  { pending := [], regs := [], shadow := [], mem := [], free := 0, time := TimeState.reset, cfg := CfgState.reset,
    mpt := MptState.reset, keep := KeepState.reset, pwr := PwrState.reset, rst := RstState.reset, eth := EthState.reset,
    ptp := PtpState.reset, nvh := NvhState.reset, dma := DmaState.reset, stg := RecState.reset,
    hkc := HkcState.reset, rdo := RdoState.reset, cor := CorState.reset, walk := WalkState.reset, cal := CalState.reset,
    trk := TrkState.reset, ast := AstState.reset, drl := DrlState.reset, vlv := VlvState.reset }

end Sys2Proof.Machine
end

