-- ==== Sys2Proof/Machine/Ops.lean ====
section
/-!
DEFINITION. The named operations over registers, shadow sets, memory windows, time, timers, events and power domains that
every meaning is written with.
-/
namespace Sys2Proof.Machine

/-! ### Registers -/

/-- The word in force of a register. -/
def State.word (s : State) (a : Nat) : Word := Map.read Reg.resetWord s.regs a

/-- Put a whole register word. -/
def State.setWord (s : State) (a : Nat) (w : Word) : State := { s with regs := Map.write Reg.resetWord s.regs a w }

/-- A field of a word. -/
def Field.of (f : Field) (w : Word) : Nat := bits w.toNat f.lo f.width

/-- A word with one field replaced (the value is cut to the field's width). -/
def Field.into (f : Field) (w : Word) (v : Nat) : Word :=
  BitVec.ofNat 32 (w.toNat - f.of w * 2 ^ f.lo + v % 2 ^ f.width * 2 ^ f.lo)

/-- The value in force of a register field. -/
def State.get (s : State) (f : Field) : Nat := f.of (s.word f.addr)

/-- Whether a one-bit field is set. -/
def State.flag (s : State) (f : Field) : Bool := decide (s.get f ≠ 0)

/-- Put a register field. -/
def State.put (s : State) (f : Field) (v : Nat) : State := s.setWord f.addr (f.into (s.word f.addr) v)

/-- Set a one-bit field to a truth value. -/
def State.putFlag (s : State) (f : Field) (b : Bool) : State := s.put f (if b then 1 else 0)

/-- Add to a counter field that saturates. -/
def State.bump (s : State) (f : Field) (n : Nat) : State := s.put f (Nat.min (s.get f + n) (2 ^ f.width - 1))

/-- Add to a counter field that wraps. -/
def State.wrapAdd (s : State) (f : Field) (n : Nat) : State := s.put f (s.get f + n)

/-- A signed field. -/
def State.getS (s : State) (f : Field) : Int :=
  let v := s.get f
  if v < 2 ^ (f.width - 1) then (v : Int) else (v : Int) - 2 ^ f.width

/-- Put a signed value into a field, saturating at its range. -/
def State.putS (s : State) (f : Field) (x : Int) : State :=
  let h : Int := 2 ^ (f.width - 1)
  let y := clampI (-h) (h - 1) x
  s.put f (if 0 ≤ y then y.toNat else (y + 2 ^ f.width).toNat)

/-- Put an unsigned value into a field, saturating at its range. -/
def State.putSat (s : State) (f : Field) (v : Nat) : State := s.put f (Nat.min v (2 ^ f.width - 1))

/-- A 64-bit value held in a LO and a HI register. -/
def State.pair (s : State) (lo : Nat) : Nat := (s.word lo).toNat + (s.word (lo + 4)).toNat * 2 ^ 32

/-- Put a 64-bit value into a LO and a HI register. -/
def State.setPair (s : State) (lo v : Nat) : State :=
  (s.setWord lo (BitVec.ofNat 32 v)).setWord (lo + 4) (BitVec.ofNat 32 (v / 2 ^ 32))

/-! ### Shadow sets (R436, Table 17-5) -/

/-- What an RWS register reads: the pending word, else the word in force (R9). -/
def State.pendingWord (s : State) (a : Nat) : Word := (Map.find s.shadow a).getD (s.word a)

/-- Move the pending words of the addresses that pass a test into force at once (R436). -/
def State.transfer (s : State) (p : Nat → Bool) : State :=
  let moved := s.shadow.filter (fun e => p e.1)
  moved.foldl (fun t e => t.setWord e.1 e.2) { s with shadow := s.shadow.filter (fun e => !p e.1) }

/-- Whether any word of a set waits. -/
def State.setWaits (s : State) (p : Nat → Bool) : Bool := s.shadow.any (fun e => p e.1)

/-- The timebase set of Table 17-5. -/
def inSetTbs (a : Nat) : Bool := decide (a = Reg.TBS_PERIOD)

/-- The correction set of Table 17-5. -/
def inSetCor (a : Nat) : Bool :=
  decide (a = Reg.COR_RAD_BASE ∨ a = Reg.COR_RAD_STEP ∨ a = Reg.COR_LAG_DEPTH ∨ a = Reg.COR_WALK_VEL ∨ a = Reg.COR_ROW_WT 0 ∨
    a = Reg.COR_ROW_WT 1 ∨ a = Reg.COR_ROW_WT 2)

/-- The Aster set of Table 17-5 (every RWS register of the AST bank). -/
def inSetAst (a : Nat) : Bool := decide (a / 65536 = 0x14)

/-- The drill set of Table 17-5 (every RWS register of the DRL bank). -/
def inSetDrl (a : Nat) : Bool := decide (a / 65536 = 0x15)

/-- The Lupin set of Table 17-5 (every RWS register of the VLV bank). -/
def inSetVlv (a : Nat) : Bool := decide (a / 65536 = 0x16)

/-- The set of archive channel n (Table 17-5). -/
def inSetDma (n a : Nat) : Bool := decide (Reg.DMA_CH_CTRL n ≤ a ∧ a < Reg.DMA_CH_CTRL n + 0x40)

/-- The housekeeping set of Table 17-5. -/
def inSetHkc (a : Nat) : Bool := decide (a / 65536 = 0x17)

/-! ### Field rules (R9, R10, R483) -/

/-- Whether a value is one that a field's description allows. -/
def FieldSpec.allows (f : FieldSpec) (v : Nat) : Bool := f.ranges.isEmpty || f.ranges.any (fun r => decide (r.1 ≤ v ∧ v ≤ r.2))

/-- Whether every field of a written word is in range (R483). -/
def RegRow.allows (r : RegRow) (w : Nat) : Bool :=
  r.fields.all (fun f => decide (f.acc = .ro ∨ f.acc = .w1c) || f.allows (bits w f.lo f.width))

/-- A word after a write: RW and RWS fields take the written value, other bits keep theirs (R9, R10). -/
def RegRow.merge (r : RegRow) (old new : Nat) : Nat :=
  r.fields.foldl (fun acc f => if f.acc = .rw ∨ f.acc = .rws then
    acc - bits acc f.lo f.width * 2 ^ f.lo + bits new f.lo f.width * 2 ^ f.lo else acc) old

/-- SET_PENDING of the function whose set a register is in (R436). -/
def setFlagOf (a : Nat) : Option Field :=
  if a = Reg.TBS_PERIOD then some Reg.TBS_STATUS_SET_PENDING
  else if a / 65536 = 0x14 then some Reg.AST_STATUS_SET_PENDING
  else if a / 65536 = 0x15 then some Reg.DRL_STATUS_SET_PENDING
  else if a / 65536 = 0x16 then some Reg.VLV_STATUS_SET_PENDING
  else if a / 65536 = 0x17 then some Reg.HKC_STATUS_SET_PENDING
  else none

/-- Write the pending word of an RWS register (R436). -/
def State.pend (s : State) (a w : Nat) : State :=
  let m := ((regRow a).map (fun r => r.merge (s.pendingWord a).toNat w)).getD w
  let s := { s with shadow := Map.insert s.shadow a (BitVec.ofNat 32 m) }
  match setFlagOf a with
  | some f => s.put f 1
  | none => s

/-- A pending field. -/
def State.pendGet (s : State) (f : Field) : Nat := f.of (s.pendingWord f.addr)

/-! ### Memory windows -/

/-- One byte of a window. -/
def State.byte (s : State) (a : Nat) : Byte := Map.read memDefault s.mem a

/-- Write one byte of a window. -/
def State.setByte (s : State) (a : Nat) (b : Byte) : State := { s with mem := Map.write memDefault s.mem a b }

/-- The little-endian word at a window address (R8). -/
def State.memWord (s : State) (a : Nat) : Word :=
  BitVec.ofNat 32 ((s.byte a).toNat + (s.byte (a + 1)).toNat * 256 + (s.byte (a + 2)).toNat * 65536 +
    (s.byte (a + 3)).toNat * 16777216)

/-- Write a run of bytes from an address upward. -/
def Memory.writeBytes : List Host.Cell → Nat → List Byte → List Host.Cell
  | m, _, [] => m
  | m, a, b :: bs => Memory.writeBytes (Map.write memDefault m a b) (a + 1) bs

/-- Write the little-endian word at a window address (R8). -/
def State.setMemWord (s : State) (a : Nat) (w : Word) : State :=
  { s with mem := Memory.writeBytes s.mem a (leBytes 4 w.toNat) }

/-- A run of n bytes from an address. -/
def Memory.bytes (m : List Host.Cell) (a : Nat) : Nat → List Byte
  | 0 => []
  | n + 1 => Map.read memDefault m a :: Memory.bytes m (a + 1) n

/-! ### Free values -/

/-- Draw the next free value (log entry 5). -/
def State.drawn (s : State) : Word := Config.freeValue s.free

/-- The state after a free value was drawn. -/
def State.draw (s : State) : State := { s with free := s.free + 1 }

/-! ### Time and timers (R425) -/

/-- Device time in whole nanoseconds. -/
def State.now (s : State) : Nat := s.time.dev / 2 ^ 32

/-- What one tick adds to device time: 10 ns × (1 + FREQ × 10⁻⁹) in units of 2⁻³² ns, rounded down. -/
def State.tickInc (s : State) : Nat := ((10 * 2 ^ 32 : Int) * (1000000000 + s.getS Reg.PTP_FREQ_FREQ) / 1000000000).toNat

/-- Let n timebase ticks pass. Device time counts from PLL lock (R425). -/
def State.elapse (s : State) (n : Nat) : State :=
  { s with time := { s.time with
      ticks := s.time.ticks + n
      dev := s.time.dev + (if s.flag Reg.TBS_STATUS_PLL_LOCK then n * s.tickInc else 0) } }

/-- Let time pass until a tick, if it lies ahead. -/
def State.elapseTo (s : State) (t : Nat) : State := if s.time.ticks < t then s.elapse (t - s.time.ticks) else s

/-- Let time pass until device time reaches t ns, if it lies ahead. -/
def State.elapseDev (s : State) (t : Int) : State :=
  let n := ceilDiv ((t * 4294967296).toNat - s.time.dev) s.tickInc
  if n = 0 then s else s.elapse n

/-- Timers: the tick at which something falls due, by a key of its kind and the part it belongs to. -/
def timerKey (kind part : Nat) : Nat := kind * 65536 + part

namespace Timer
def gapTimeout : Nat := timerKey 1 0
def interval : Nat := timerKey 2 0
def flagRetry : Nat := timerKey 3 0
def qual : Nat := timerKey 4 0
def settling : Nat := timerKey 5 0
def recFlush : Nat := timerKey 6 0
def eventWrite : Nat := timerKey 7 0
def driveRetry : Nat := timerKey 8 0
def capTo : Nat := timerKey 9 0
def smart : Nat := timerKey 10 0
def ptpHold : Nat := timerKey 13 0
def ptpFree : Nat := timerKey 14 0
def delayReq : Nat := timerKey 15 0
def countPeriod : Nat := timerKey 16 0
def minute : Nat := timerKey 17 0
def hkcPass : Nat := timerKey 18 0
def hkcEntry : Nat := timerKey 19 0
def hkcPhase : Nat := timerKey 20 0
def vcore : Nat := timerKey 21 0
def throttle : Nat := timerKey 22 0
def aggregate : Nat := timerKey 23 0
def reload : Nat := timerKey 24 0
def flash : Nat := timerKey 25 0
def flashPoll : Nat := timerKey 26 0
def trip : Nat := timerKey 27 0
def held : Nat := timerKey 28 0
def boostStale : Nat := timerKey 29 0
def idleScan : Nat := timerKey 30 0
def pps : Nat := timerKey 31 0
def noRecord : Nat := timerKey 32 0
def rto : Nat := timerKey 33 0
def selftest (e : Nat) : Nat := timerKey 34 e
def ballast : Nat := timerKey 35 0
def drift : Nat := timerKey 36 0
def maintIo : Nat := timerKey 37 0
def portReady (p : Nat) : Nat := timerKey 40 p
def failover (p : Nat) : Nat := timerKey 41 p
def deadline (i : Nat) : Nat := timerKey 42 i
def auxEnd (c : Nat) : Nat := timerKey 43 c
def thermStale (i : Nat) : Nat := timerKey 44 i
end Timer

/-- When a timer falls due, if it runs. -/
def State.due (s : State) (k : Nat) : Option Nat := Map.find s.time.timers k

/-- Start a timer that falls due n ticks from now. -/
def State.arm (s : State) (k n : Nat) : State :=
  { s with time := { s.time with timers := Map.insert (Map.erase s.time.timers k) k (s.time.ticks + n) } }

/-- Start a timer that falls due at a device time (ns). -/
def State.armDev (s : State) (k : Nat) (t : Int) : State := s.arm k (ceilDiv ((t * 4294967296).toNat - s.time.dev) s.tickInc)

/-- Stop a timer. -/
def State.disarm (s : State) (k : Nat) : State := { s with time := { s.time with timers := Map.erase s.time.timers k } }

/-- The moment of a timer comes: time passes until it is due and it stops; none when it does not run. A command that stands for
the end of a stated time IS the passing of that time (DESIGN CHOICE, log entry 3). -/
def State.fire (s : State) (k : Nat) : Option State :=
  match s.due k with
  | none => none
  | some t => some ((s.elapseTo t).disarm k)

/-- Ticks in a number of microseconds and milliseconds. -/
def usTicks (n : Nat) : Nat := 100 * n
def msTicks (n : Nat) : Nat := 100000 * n

/-! ### Events (R333, R451, Table 18-8) -/

/-- The severity of an event code (Table 18-8). -/
def severity (code : Nat) : Nat :=
  if code ∈ [0x0108, 0x0109, 0x0201, 0x0203, 0x0303, 0x0403, 0x0602, 0x0702, 0x0705, 0x0901, 0x0905, 0x0906, 0x0B03] then 2
  else if code ∈ [0x0103, 0x0305, 0x0306, 0x0307, 0x0601, 0x0603, 0x0704, 0x0B02] then 0
  else 1

/-- Two's complement of an integer in 64 bits. -/
def u64OfInt (x : Int) : Nat := (x % 18446744073709551616).toNat

/-- Whether the event buffers are full: they hold at least one whole packet of 32 events (DEDUCED, log entry 7), and otherwise
what the part holds. -/
def eventsFull (n : Nat) : Bool := decide (32 ≤ n) && decide (Config.eventCapacity ≤ n)

/-- Whether the event stream runs (R324). -/
def State.eventStreamOn (s : State) : Bool := s.flag (Reg.ETH_S_CTRL_EN 3)

/-- The time for which a port has lacked READY runs while it carries records (R331). -/
def State.watchPort (s : State) (p : Nat) : State :=
  if s.flag (Reg.ETH_P_STATUS_READY p) || (s.due (Timer.failover p)).isSome then s
  else s.arm (Timer.failover p) (msTicks (s.get Reg.ETH_REC_TIME_FAILOVER_MS))

/-- Whether region 4 of the archive is in use (R298). -/
def State.eventRegionOn (s : State) : Bool := s.flag (Reg.NVH_R_SIZE_SIZE_LOG2 4)

/-- Whether events of region 4 are written: archiving, with channel 3 neither paused nor halted (R309). -/
def State.eventsArchive (s : State) : Bool :=
  s.eventRegionOn && s.flag Reg.NVH_STATUS_ARCHIVING && decide (s.get (Reg.DMA_CH_STATUS_STATE 3) < 2)

/-- Emit an event: it takes the next EPOS, sets FAULT or WARN in MPT_ALERT by its severity (R451), and joins the event stream
and the archive's event data, or is lost and counted when the buffers are full (R334). -/
def State.emit (s : State) (code index arg : Nat) : State :=
  let e : Event := ⟨s.pair Reg.GEN_EPOS_LO, s.now, code, severity code, index, arg, s.time.ticks⟩
  let s := s.setPair Reg.GEN_EPOS_LO (s.pair Reg.GEN_EPOS_LO + 1)
  let s := if e.sev = 2 then s.put Reg.MPT_ALERT_FAULT 1 else if e.sev = 1 then s.put Reg.MPT_ALERT_WARN 1 else s
  if eventsFull (Nat.max s.eth.events.length s.eth.eventsOut.length) then s.bump Reg.ETH_LOSS_EVT_LOST 1
  else
    let s := if s.eventsArchive && s.eth.eventsOut.isEmpty then s.arm Timer.eventWrite (msTicks (s.get Reg.NVH_TIMEOUT_CMD_MS)) else s
    { s with eth := { s.eth with
        events := if s.eventStreamOn then s.eth.events ++ [e] else s.eth.events
        eventsOut := if s.eventRegionOn then s.eth.eventsOut ++ [e] else s.eth.eventsOut } }

/-! ### Power domains (R403, Table 16-2) -/

/-- The state of switched domain d: 0 FALLOW, 1 waking, 2 ON, 3 RETAIN. -/
def domField (d : Nat) : Field := ⟨Reg.PWR_DOM (d / 16), 2 * (d % 16), 2⟩

def State.domain (s : State) (d : Nat) : Nat := s.get (domField d)
def State.setDomain (s : State) (d v : Nat) : State := s.put (domField d) v

/-- Switch a list of domains. -/
def State.setDomains (s : State) (ds : List Nat) (v : Nat) : State := ds.foldl (fun t d => t.setDomain d v) s

/-! ### Degradation (R442) -/

/-- Set a class bit of RST_DEGRADED and emit DEGRADED once for it. -/
def State.degrade (s : State) (b : Nat) : State :=
  if bit (s.get Reg.RST_DEGRADED_CLASS) b then s
  else ((s.put Reg.RST_DEGRADED_CLASS (s.get Reg.RST_DEGRADED_CLASS + 2 ^ b)).put Reg.RST_STATUS_DEGRADED 1).emit 0x0B03 b 0

/-! ### Pin and timer ownership (R43, R44, Table 2-6) -/

/-- The multipurpose pin that a function owns. -/
def State.pinOf (s : State) (fn : Nat) : Option Nat := (List.range 8).find? (fun n => s.get (Reg.CFG_PIN_FUNCTION n) = fn)

/-- Whether a function owns a pulse timer. -/
def State.hasTimer (s : State) (fn : Nat) : Bool := (List.range 4).any (fun n => s.get (Reg.CFG_TMR_FUNCTION n) = fn)

/-- Whether a function owns all that Table 2-6 requires of it (R44). -/
def State.ownsAll (s : State) (fn : Nat) : Bool :=
  if fn = 8 then decide (s.get Reg.CFG_AUX1_FUNCTION = 8)
  else (s.pinOf fn).isSome && (if 3 ≤ fn ∧ fn ≤ 5 then s.hasTimer fn else true)

/-! ### Function resets (R443) -/

/-- Whether the reset of a function runs. -/
def State.resetting (s : State) (f : Nat) : Bool := s.rst.running.any (fun r => decide (r.func = f))

/-! ### Wear counters (R377) -/

/-- Add to a 48-bit counter, saturating. -/
def State.bumpCounter (s : State) (i n : Nat) : State :=
  s.setPair (Reg.KEP_CNT_LO i) (Nat.min (s.pair (Reg.KEP_CNT_LO i) + n) (2 ^ 48 - 1))

/-! ### Host actions (R53, R54, R351, R357, R459) -/

/-- Whether an address is served: from step 6 on all are, in the unconfigured state only the GEN, CFG, MPT and KEP banks, and
before step 6 none (R53, R459). -/
def State.reaches (s : State) (a : Nat) : Bool :=
  match s.cfg.stage with
  | .running | .saving | .held => true
  | .unconfigured => decide (a / 65536 = 0 ∨ a / 65536 = 4 ∨ a / 65536 = 5 ∨ a / 65536 = 6)
  | _ => false

/-- Whether the part masters the flash: it loads an image or carries out an operation (R359). -/
def State.masters (s : State) : Bool := decide (s.cfg.stage = .loading) || s.mpt.flash.isSome

/-- A REFUSED word: the next leading status shows it, and MPT_LAST_REFUSE names it (R351, Table 13-13). -/
def State.refuse (s : State) (a : Nat) : State :=
  ({ s with mpt := { s.mpt with prevCounted := true, prevApplied := false, prevRefused := true, prevDiscarded := false } }.bump
    Reg.MPT_COLLIDE_REFUSED 1).setWord Reg.MPT_LAST_REFUSE (BitVec.ofNat 32 a)

/-- A word that was applied (R351). -/
def State.applied (s : State) : State :=
  { s with mpt := { s.mpt with prevCounted := true, prevApplied := true, prevRefused := false, prevDiscarded := false } }

/-- A judged word as a state and whether it was REFUSED: a word that is REFUSED changes nothing. -/
def State.judged (s : State) : Option State → State × Bool
  | some t => (t, false)
  | none => (s, true)

/-- One more action of a WO word that commands separate actions: a REFUSED one is not taken, the others are, and the word counts as
REFUSED (R357). -/
def thenAct (r : State × Bool) (c : Bool) (f : State → Option State) : State × Bool :=
  if c then (match f r.1 with
    | some t => (t, r.2)
    | none => (r.1, true))
  else r

/-- The effect of a command that is one word of a WRITE frame: the word is applied, or REFUSED and shown so (DESIGN CHOICE, log
entry 8: such a command stands for a counted frame of one word). -/
def State.hostDone (s : State) (a : Nat) (r : State × Bool) : State :=
  if s.reaches a then (if r.2 then r.1.refuse a else r.1.applied) else s

/-- The same for a word with one action. -/
def State.host (s : State) (a : Nat) (r : Option State) : State := s.hostDone a (s.judged r)

/-- The words of one frame in ascending order, each applied or REFUSED; the address of the first REFUSED one (R357). -/
def applyWords (f : State → Nat → Word → State × Bool) : State → Nat → List Word → State × Option Nat
  | s, _, [] => (s, none)
  | s, a, w :: ws =>
    let r := f s a w
    let t := applyWords f r.1 (a + 4) ws
    (t.1, if r.2 then some a else t.2)

/-- The end of a frame whose words were applied: MPT_LAST_REFUSE names the first REFUSED word (R351). -/
def State.wordsDone (s : State) (first : Option Nat) : State :=
  match first with
  | some a => s.refuse a
  | none => s.applied

/-- A command that is one WRITE frame of several words (log entry 8). -/
def State.hostFrame (s : State) (a : Nat) (f : State → Nat → Word → Option State) (ws : List Word) : State :=
  if s.reaches a then
    let r := applyWords (fun t b w => t.judged (f t b w)) s a ws
    r.1.wordsDone r.2
  else s

/-- REFUSED unless a condition holds. -/
def allow (c : Bool) (s : State) : Option State := if c then some s else none

end Sys2Proof.Machine
end

