-- ==== Sys2Proof/Machine/Staging.lean ====
section
/-!
DEFINITION. The record slots of staging and when they are freed (spec/11_records_archive.md R296, R297, Table 11-6).
-/
namespace Sys2Proof.Machine

/-- The record stream is enabled. -/
def State.recordStreamOn (s : State) : Bool := s.flag (Reg.ETH_S_CTRL_EN 2)

/-- ACKED in force: ACKED, but not below the first RPOS of this run (DEDUCED, log entry 11). -/
def State.acked (s : State) : Nat := Nat.max (s.pair Reg.ETH_REC_ACKED_LO) s.eth.first

/-- ARCHIVED: the lowest RPOS not yet committed (R303). -/
def State.archived (s : State) : Nat := s.pair Reg.NVH_ARCHIVED_LO

/-- The drive is out: absent, failed or unsupported. It takes no thumbnails or lines either. -/
def State.driveOut (s : State) : Bool :=
  decide (s.get Reg.NVH_STATUS_DRIVE = 0 ∨ s.get Reg.NVH_STATUS_DRIVE = 4 ∨ s.get Reg.NVH_STATUS_DRIVE = 5)

/-- The drive cannot take records: it is out, or channel 0 is halted (Table 11-6). -/
def State.driveCannot (s : State) : Bool := s.driveOut || decide (s.get (Reg.DMA_CH_STATUS_STATE 0) = 3)

/-- An outage ends when the drive can take records again: the next one is told anew (Table 11-6). -/
def State.outageOver (s : State) : State := if s.driveCannot then s else { s with nvh := { s.nvh with skipTold := false } }

/-- The drive cannot take records: it is out, or region 0 is unused (log entry 25). -/
def State.recordsIdle (s : State) : Bool := s.driveCannot || decide (s.get (Reg.NVH_R_SIZE_SIZE_LOG2 0) = 0)

/-- The RPOS below which every whole archive block that was written is committed (R296). -/
def State.committedBelow (s : State) : Nat := s.stg.settled / 16 * 16

/-- The RPOS below which the archive condition holds (Table 11-6). -/
def State.archiveBelow (s : State) : Nat :=
  let mode := s.get Reg.NVH_CTRL_ARCH_MODE
  if mode = 0 then s.stg.nextRpos
  else if mode = 1 ∧ s.recordsIdle then s.stg.nextRpos
  else s.committedBelow

/-- The RPOS below which the acknowledgement condition holds (R296, R328). -/
def State.ackBelow (s : State) : Nat := if s.recordStreamOn then s.acked else s.stg.nextRpos

/-- Free every record slot whose conditions hold; records that the drive cannot take are counted as skipped, and the first of an
outage is told (R296, Table 11-6). -/
def State.freeSlots (s : State) : State :=
  let upto := Nat.max s.stg.freed (Nat.min s.stg.nextRpos (Nat.min s.archiveBelow s.ackBelow))
  let lo := Nat.max s.stg.freed s.stg.settled
  let skipped := if s.get Reg.NVH_CTRL_ARCH_MODE = 1 ∧ s.recordsIdle then upto - lo else 0
  let s := { s with
    stg := { s.stg with freed := upto, slots := Map.keep (fun r => decide (upto ≤ r)) s.stg.slots, ticks := Map.keep (fun r => decide (upto ≤ r)) s.stg.ticks }
    eth := { s.eth with nextSend := Nat.max s.eth.nextSend upto } }
  if skipped = 0 then s
  else
    let s := s.bump ⟨Reg.NVH_SKIPPED, 0, 32⟩ skipped
    if s.nvh.skipTold then s else ({ s with nvh := { s.nvh with skipTold := true } }).emit 0x0701 0 lo

/-- Whether a record slot is free: the ring holds 32,768 (R296). -/
def State.slotFree (s : State) : Bool := decide (s.stg.nextRpos < s.stg.freed + 32768)

/-- Whether every record slot is free. -/
def State.stagingEmpty (s : State) : Bool := decide (s.stg.freed = s.stg.nextRpos)

end Sys2Proof.Machine
end

