-- ==== Sys2Proof/Machine/Archive.lean ====
section
/-!
DEFINITION. The archive drive: layout, label, bring-up, faults and completed commands (spec/11_records_archive.md R298–R307).
-/
namespace Sys2Proof.Machine

/-! ### Layout and label (R298–R301) -/

def State.regionLog (s : State) (k : Nat) : Nat := s.get (Reg.NVH_R_SIZE_SIZE_LOG2 k)
def State.regionUsed (s : State) (k : Nat) : Bool := decide (s.regionLog k ≠ 0)
def State.regionStart (s : State) (k : Nat) : Nat := s.get (Reg.NVH_R_START_START k)
def State.regionEnd (s : State) (k : Nat) : Nat := s.regionStart k + 2 ^ s.regionLog k

/-- The least SIZE_LOG2 of a used region (R299). -/
def minLog (k : Nat) : Nat := [4, 2, 2, 10, 4].getD k 0

/-- Whether the configured layout is bad (R299); the capacity is known once a drive was identified. -/
def State.layoutBad (s : State) : Bool :=
  let cap := s.pair Reg.NVH_CAP_LO
  (List.range 5).any (fun k => s.regionUsed k &&
    (decide (s.regionStart k = 0) || decide (s.regionLog k < minLog k) || (decide (cap ≠ 0) && decide (cap < s.regionEnd k)) ||
      (List.range 5).any (fun j => decide (j ≠ k) && s.regionUsed j && decide (s.regionStart j < s.regionEnd k) &&
        decide (s.regionStart k < s.regionEnd j))))

/-- LAYOUT_BAD follows the configured layout and the capacity (R299). -/
def State.layoutUpdate (s : State) : State := s.putFlag Reg.NVH_STATUS_LAYOUT_BAD s.layoutBad

/-- The label that the configured layout makes (Table 11-7). -/
def State.labelBytes (s : State) : List Byte :=
  let b := leBytes 4 0x4C41524A ++ leBytes 4 1 ++ leBytes 4 0x4A544096 ++ leBytes 4 0 ++
    (List.range 5).flatMap (fun k => leBytes 8 (s.regionStart k) ++ leBytes 4 (s.regionLog k) ++ leBytes 4 0)
  b ++ leBytes 4 (crc32 b).toNat ++ List.replicate 3996 0

/-- Whether block 0 holds a valid label. -/
def labelValid (b : List Byte) : Bool :=
  decide (leNat (b.take 4) = 0x4C41524A) && decide (leNat ((b.drop 4).take 4) = 1) &&
    decide (leNat ((b.drop 0x60).take 4) = (crc32 (b.take 0x60)).toNat)

/-- The archive block of entry e of a region of n-block entries (R301). -/
def State.entryBlock (s : State) (k n e : Nat) : Nat :=
  let m := n * (2 ^ s.regionLog k / n)
  s.regionStart k + (if m = 0 then 0 else n * e % m)

/-- The archive block of a record (R301). -/
def State.recordBlock (s : State) (rpos : Nat) : Nat := s.regionStart 0 + rpos / 16 % 2 ^ s.regionLog 0

/-! ### Channel completion bits (R312) -/

/-- A channel sets its DMA_IRQ bit, and emits DMA_DONE where the bit is enabled. -/
def State.channelDone (s : State) (n units : Nat) : State :=
  let s := s.put Reg.DMA_IRQ_DONE (s.get Reg.DMA_IRQ_DONE ||| 2 ^ n)
  if bit (s.get Reg.DMA_IRQ_EN_EN) n then s.emit 0x0704 n units else s

/-! ### Commands to the drive (R305–R307) -/

/-- The tick at which CMD_MS ends for a command issued now (R307). -/
def State.cmdDue (s : State) : Nat := s.time.ticks + msTicks (s.get Reg.NVH_TIMEOUT_CMD_MS)

/-- A number of blocks in LBAs of the drive's format (R298). -/
def State.lbas (s : State) (blocks : Nat) : Nat := if s.flag Reg.NVH_LINK_LBA_512 then 8 * blocks else blocks

/-- The queue pair that serves a channel (R306). -/
def State.pairOf (s : State) (ch : Nat) : Nat :=
  let q := s.get Reg.NVH_LINK_QUEUES
  if ch = 0 ∨ q ≤ 1 then 1
  else if ch ≤ 2 ∨ q = 2 then 2
  else if ch = 3 ∨ q = 3 then 3
  else 4

/-- The commands of a phase of bring-up replace those of the phase before. -/
def State.sendAll (s : State) (cmds : List NvmeCmd) : State := { s with nvh := { s.nvh with cmds := cmds } }

/-- Identify, controller and namespace 1. -/
def State.identifyCmds (s : State) : List NvmeCmd := [⟨0, 0x06, 1, 0, 0, false, s.cmdDue⟩, ⟨0, 0x06, 0, 1, 0, false, s.cmdDue⟩]
/-- Set Features: four queue pairs requested, volatile write cache enabled. -/
def State.featureCmds (s : State) : List NvmeCmd := [⟨0, 0x09, 7, 0, 0x00030003, false, s.cmdDue⟩, ⟨0, 0x09, 6, 0, 1, false, s.cmdDue⟩]
/-- Create I/O CQ and SQ of each pair, with min(64, MQES + 1) entries. -/
def State.createCmds (s : State) (n : Nat) : List NvmeCmd :=
  (List.range n).flatMap (fun q => [0x05, 0x01].map (fun op => ⟨0, op, q + 1, 0, Nat.min 64 (s.nvh.mqes + 1), false, s.cmdDue⟩))
/-- The deletion of the queues. -/
def State.deleteCmds (s : State) : List NvmeCmd :=
  (List.range (s.get Reg.NVH_LINK_QUEUES)).flatMap (fun q => [0x04, 0x00].map (fun op => ⟨0, op, q + 1, 0, 0, false, s.cmdDue⟩))
/-- Read and Write of block 0, the Write with FUA (R300). -/
def State.labelCmd (s : State) (op : Nat) : NvmeCmd := ⟨1, op, 0, 0, s.lbas 1, decide (op = 1), s.cmdDue⟩
/-- Dataset Management with AD over every used region (R300). -/
def State.trimCmds (s : State) : List NvmeCmd :=
  ((List.range 5).filter s.regionUsed).map (fun k => ⟨1, 0x09, 4, s.lbas (s.regionStart k), s.lbas (2 ^ s.regionLog k), false, s.cmdDue⟩)

/-! ### Writes waiting at the drive (R303, R309) -/

/-- An archive write of a channel: FUA with BARRIER and in region 0 (Table 11-10). -/
def State.archiveWrite (s : State) (ch block : Nat) (bytes : List Byte) : DriveWrite :=
  ⟨ch, block, bytes, 0, 0, decide (ch = 0) || s.flag (Reg.DMA_CH_MODE_BARRIER ch), none⟩

/-- The label as it is written (R300). -/
def State.labelWrite (s : State) : DriveWrite := ⟨8, 0, s.labelBytes, 0, 0, true, none⟩

/-- While archiving, the writes that wait are commands, and the events that wait make one: a channel that is paused or halted issues none
(R309). Otherwise nothing is outstanding, and what waits is sent again later (R307). -/
def State.issue (s : State) : State :=
  if s.flag Reg.NVH_STATUS_ARCHIVING then
    let s := { s with nvh := { s.nvh with writes := s.nvh.writes.map (fun w =>
      { w with due := if s.get (Reg.DMA_CH_STATUS_STATE w.channel) < 2 then some (w.due.getD s.cmdDue) else none }) } }
    if !s.eventsArchive ∨ s.eth.eventsOut.isEmpty then s.disarm Timer.eventWrite
    else if (s.due Timer.eventWrite).isSome then s
    else s.arm Timer.eventWrite (msTicks (s.get Reg.NVH_TIMEOUT_CMD_MS))
  else
    { (s.disarm Timer.eventWrite) with nvh := { s.nvh with writes := s.nvh.writes.map (fun w => { w with due := none }) } }

/-- Queue a write at the drive. -/
def State.queueWrite (s : State) (w : DriveWrite) : State := ({ s with nvh := { s.nvh with writes := s.nvh.writes ++ [w] } }).issue

/-- The first tick at which an outstanding command meets CMD_MS: an admin or label command, an archive write, an event write, a transfer of
a maintenance channel, and the SMART poll from its minute on (R307). -/
def State.nvmeDue (s : State) : Option Nat :=
  (s.nvh.cmds.map (fun c => c.due) ++ s.nvh.writes.filterMap (fun w => w.due) ++ [Timer.eventWrite, Timer.maintIo].filterMap s.due ++
    (s.due Timer.smart).toList.map (fun t => t + msTicks (s.get Reg.NVH_TIMEOUT_CMD_MS))).min?

/-- One whole block of region 0, its 16 slots as released so far (R303). -/
def State.blockBytes (s : State) (blk upto : Nat) : List Byte :=
  (List.range 16).flatMap (fun k =>
    let r := blk * 16 + k
    if r < upto then (Map.find s.stg.slots r).getD (List.replicate 256 0) else List.replicate 256 0)

/-- Hand the record block of the last released record to the drive: whole when it has filled, partial at REC_FLUSH_US (R303). In
best-effort mode records are skipped while the drive cannot take them (Table 11-6). -/
def State.writeBlock (s : State) : State :=
  let upto := s.stg.nextRpos
  if s.get Reg.NVH_CTRL_ARCH_MODE = 0 ∨ (s.get Reg.NVH_CTRL_ARCH_MODE = 1 ∧ s.driveCannot) ∨ !s.regionUsed 0 ∨ upto = 0 then s
  else
    let blk := (upto - 1) / 16
    let gone := (List.range 16).filter (fun k => decide (blk * 16 + k < upto) && (Map.find s.stg.slots (blk * 16 + k)).isNone)
    let first := blk * 16 + gone.foldl (fun m k => Nat.max m (k + 1)) 0
    ({ s with stg := { s.stg with flushed := upto } }).queueWrite
      { s.archiveWrite 0 (s.recordBlock (upto - 1)) (s.blockBytes blk upto) with upto := upto, first := first }

/-- REC_FLUSH_TIMEOUT (R303). -/
def execRecFlushTimeout (s : State) : Host.Outcome State Fault Refusal :=
  .next (match s.fire Timer.recFlush with
    | none => s
    | some s => if s.stg.flushed < s.stg.nextRpos then s.writeBlock else s)

/-- Thumbnails and lines are freed without writing while the drive is out, and records that it cannot take are skipped unless ARCH_MODE
is 2 (Table 11-6). -/
def State.dropWrites (s : State) : State :=
  { s with nvh := { s.nvh with writes := s.nvh.writes.filter (fun w =>
    if w.channel = 0 then !s.driveCannot || decide (s.get Reg.NVH_CTRL_ARCH_MODE = 2) else !s.driveOut) } }

/-- How many staging slots of a channel's kind are in use. -/
def State.slotsUsed (s : State) (ch : Nat) : Nat := (s.nvh.writes.filter (fun w => decide (w.channel = ch))).length

/-- One event block's share of the waiting events: entries never span two blocks (R301). -/
def State.eventBatch (s : State) : Nat := Nat.min s.eth.eventsOut.length (128 - s.nvh.eposBlock % 128)

/-- ARCHIVING, and NVME_READY with it (Table 11-17). -/
def State.archiving (s : State) (b : Bool) : State := (s.putFlag Reg.NVH_STATUS_ARCHIVING b).putFlag Reg.CFG_STATUS_NVME_READY b

/-- ARCHIVING holds while the drive is ready with a good label and layout and ARCH_MODE is not 0; writes flow while it does. -/
def State.archiveUpdate (s : State) : State :=
  (s.archiving (decide (s.get Reg.NVH_STATUS_DRIVE = 3) && s.nvh.labelOk && !s.flag Reg.NVH_STATUS_LAYOUT_BAD &&
    decide (s.get Reg.NVH_CTRL_ARCH_MODE ≠ 0))).issue

/-! ### Bring-up and faults (R305–R307, Table 11-11) -/

/-- Before a controller reset the queues are deleted and CC.EN is cleared (R307, Table 11-10). -/
def State.dropQueues (s : State) : State :=
  { s with nvh := { s.nvh with cmds := if s.nvh.ccEn then s.deleteCmds else [], ccEn := false } }

/-- DRIVE_BRINGUP: the PCIe reset output is released (Table 11-11 step 1). -/
def State.bringUp (s : State) : State :=
  let s := ((s.dropQueues).setDomain 29 2).put Reg.NVH_STATUS_DRIVE 1
  let s := (((s.disarm Timer.driveRetry).disarm Timer.capTo).disarm Timer.maintIo).disarm Timer.smart
  ({ s with nvh := { s.nvh with labelOk := false, searched := false, outstanding := false, resetOut := true } }).archiveUpdate

/-- The drive is out of use: DRIVE 4, nothing outstanding, and no write flows. -/
def State.driveDown (s : State) : State :=
  let s := ((((s.put Reg.NVH_STATUS_DRIVE 4).disarm Timer.maintIo).disarm Timer.capTo).disarm Timer.smart).dropQueues
  ({ s with nvh := { s.nvh with outstanding := false, labelOk := false } }).archiveUpdate

/-- Bring-up restarts up to RETRIES times, 1 s apart; after that the port is switched off until RESTART. -/
def State.driveAgain (s : State) : State :=
  if s.nvh.retries < s.get Reg.NVH_TIMEOUT_RETRIES then
    ({ s with nvh := { s.nvh with retries := s.nvh.retries + 1 } }).arm Timer.driveRetry (msTicks 1000)
  else s.setDomain 29 3

/-- The drive fails (R307): cause 1 timeout, 2 link, 3 CSTS.CFS. -/
def State.driveFail (s : State) (cause : Nat) : State :=
  let d := s.get Reg.NVH_STATUS_DRIVE
  if d = 0 ∨ 4 ≤ d then s
  else (((s.driveDown.emit 0x0702 0 cause).driveAgain).dropWrites).freeSlots

/-- NVME_TIMEOUT: a command not completed within CMD_MS (R307). -/
def execNvmeTimeout (s : State) : Host.Outcome State Fault Refusal :=
  .next (match s.nvmeDue with
    | none => s
    | some t => (s.elapseTo t).driveFail 1)

/-- PCIE_LINK_LOSS (R307). -/
def execPcieLinkLoss (s : State) : Host.Outcome State Fault Refusal :=
  .next (((s.put Reg.NVH_LINK_GEN 0).put Reg.NVH_LINK_WIDTH 0).driveFail 2)

/-- CONTROLLER_FATAL: CSTS.CFS (R307). -/
def execControllerFatal (s : State) : Host.Outcome State Fault Refusal := .next (s.driveFail 3)

/-- CAP_TO_EXPIRY: the wait for CSTS.RDY ends, and the drive has failed by timeout (R306; log entry 14). -/
def execCapToExpiry (s : State) : Host.Outcome State Fault Refusal :=
  .next (match s.fire Timer.capTo with
    | none => s
    | some s => s.driveFail 1)

/-- DRIVE_RETRY: bring-up restarts 1 s after the failure (R307). -/
def execDriveRetry (s : State) : Host.Outcome State Fault Refusal :=
  .next (match s.fire Timer.driveRetry with
    | none => s
    | some s => s.bringUp)

/-- RESTART in NVH_CMD: bring-up restarts, with its retries anew (R307). -/
def State.hostRestart (s : State) : State := ({ s with nvh := { s.nvh with retries := 0 } }).bringUp

/-- RESTART (R307). -/
def execNvhRestart (s : State) : Host.Outcome State Fault Refusal := .next (s.host Reg.NVH_CMD (some s.hostRestart))

/-- What the root port supports: one endpoint with an NVMe function 0, on one, two or four lanes; it refuses everything else (Table 11-9). -/
def supportedEnd (gen width : Nat) (e : Endpoint) : Bool :=
  e.single && decide (e.function = 0 ∧ e.classCode = 0x010802 ∧ 1 ≤ gen ∧ (width = 1 ∨ width = 2 ∨ width = 4))

/-- The link is up with a supported endpoint: its generation is capped by MAX_GEN, its payload and read sizes are set and AER is read
(Table 11-9); CC.EN is set, and CAP.TO bounds the wait for CSTS.RDY by 30 s (R306). -/
def State.linkUp (s : State) (gen width : Nat) (e : Endpoint) : State :=
  let s := ((s.put Reg.NVH_LINK_GEN (Nat.min gen (s.get Reg.NVH_CTRL_MAX_GEN))).put Reg.NVH_LINK_WIDTH width).put Reg.NVH_STATUS_DRIVE 2
  let s := { s with nvh := { s.nvh with
    cmds := [], ccEn := true, mqes := e.mqes, payload := Nat.min 256 e.payload, maxRead := 512, aer := e.aer } }
  s.arm Timer.capTo (Nat.min (msTicks (500 * e.capTo)) (msTicks 30000))

/-- PCIE_LINK_UP (R304, R306): bring-up goes no further with anything else on the link (log entry 88). -/
def execPcieLinkUp (gen width : Nat) (e : Endpoint) (s : State) : Host.Outcome State Fault Refusal :=
  .next (if s.get Reg.NVH_STATUS_DRIVE = 1 ∧ supportedEnd gen width e then s.linkUp gen width e else s)

/-- CONTROLLER_READY: the admin commands follow (R306). -/
def execControllerReady (s : State) : Host.Outcome State Fault Refusal :=
  .next (if s.get Reg.NVH_STATUS_DRIVE = 2 then
      ({ (s.disarm Timer.capTo) with nvh := { s.nvh with outstanding := true } }).sendAll s.identifyCmds
    else s)

/-- The drive is ready (Table 11-11 step 5). -/
def State.driveReady (s : State) : State :=
  let s := (s.put Reg.NVH_STATUS_DRIVE 3).arm Timer.smart (msTicks 60000)
  let s := { s with nvh := { s.nvh with outstanding := false, retries := 0, cmds := [] } }
  (s.outageOver).archiveUpdate

/-- A label of the configured layout stands on the drive. -/
def State.goodLabel (s : State) : State := { s.put Reg.NVH_STATUS_LABEL_MISMATCH 0 with nvh := { s.nvh with labelOk := true } }

/-- LABEL_CHECK (R300). -/
def State.labelCheck (s : State) (b : List Byte) : State :=
  let s := s.layoutUpdate
  if s.layoutBad then s.driveReady
  else if b.take 0x64 = s.labelBytes.take 0x64 then s.goodLabel.sendAll []
  else if !labelValid b ∧ s.flag Reg.NVH_CTRL_FORMAT_BLANK then
    ({ s.goodLabel with nvh := { s.goodLabel.nvh with outDrive := [s.labelWrite] } }).sendAll [s.labelCmd 1]
  else (s.put Reg.NVH_STATUS_LABEL_MISMATCH 1).driveReady

/-- A unit of a data channel has succeeded: PROGRESS counts its words, and the retries were those of that unit (R314). -/
def State.dataMoved (s : State) (ch words : Nat) : State :=
  (s.put (Reg.DMA_CH_PROGRESS_DONE ch) (s.get (Reg.DMA_CH_PROGRESS_DONE ch) + words)).put (Reg.DMA_CH_STATUS_RETRIES ch) 0

/-- Records up to a write's mark are committed: ARCHIVED is the lowest RPOS not yet committed, and stays where a record before it was never
written (R303; log entry 89). -/
def State.commitRecords (s : State) (w : DriveWrite) : State :=
  let s := if w.first ≤ Nat.max s.archived s.eth.first then s.setPair Reg.NVH_ARCHIVED_LO (Nat.max s.archived w.upto) else s
  ({ s with stg := { s.stg with settled := Nat.max s.stg.settled w.upto } }).freeSlots

/-- Whether a write is the last of its region before the region wraps: the last whole entry, or the last block once it is full (R301). -/
def State.wraps (s : State) (w : DriveWrite) : Bool :=
  if w.channel = 0 then decide (w.block + 1 = s.regionEnd 0) && decide (w.upto % 16 = 0)
  else decide (w.block + 3 = s.regionStart w.channel + 3 * (2 ^ s.regionLog w.channel / 3))

/-- An archive write is complete: records are committed, other slots are freed; a data channel that wraps its region sets its DMA_IRQ bit
(R303, R312). -/
def State.writeDone (s : State) (w : DriveWrite) : State :=
  let s := ({ s with nvh := { s.nvh with outDrive := [w] } }).dataMoved w.channel (w.bytes.length / 4)
  let s := if w.channel = 0 then s.commitRecords w else s
  if s.wraps w then s.channelDone w.channel (w.bytes.length / 4) else s

/-- Take the oldest write of a channel out of the queue. -/
def takeWrite (ch : Nat) : List DriveWrite → Option (DriveWrite × List DriveWrite)
  | [] => none
  | w :: ws => if w.channel = ch then some (w, ws) else (takeWrite ch ws).map (fun r => (r.1, w :: r.2))

/-- The block of region 4 that the next events go to. -/
def State.eventBlock (s : State) : Nat := s.entryBlock 4 1 (s.nvh.eposBlock / 128)

/-- The events that go to region 4 with one write: the whole block, with those it held before and zeros after (R301). -/
def State.writeEvents (s : State) (bytes : List Byte) : State :=
  let n := s.eventBatch
  let blk := s.eventBlock
  let full := decide ((s.nvh.eposBlock + n) % 128 = 0)
  let held := s.nvh.evBytes ++ bytes
  let w := s.archiveWrite 3 blk (held ++ List.replicate (4096 - held.length) 0)
  let s := { s with eth := { s.eth with eventsOut := s.eth.eventsOut.drop n },
                    nvh := { s.nvh with eposBlock := s.nvh.eposBlock + n, evBytes := if full then [] else held, outDrive := [w] } }
  let s := s.dataMoved 3 (8 * n)
  if full ∧ blk + 1 = s.regionEnd 4 then s.channelDone 3 (8 * n) else s

/-- CLR_COUNTERS in NVH_CMD (Table 11-17). -/
def State.clearNvhCounters (s : State) : State := (s.setWord Reg.NVH_SKIPPED 0).setWord Reg.NVH_DROPS 0

/-- NVH_CLR_COUNTERS (R297). -/
def execNvhClrCounters (s : State) : Host.Outcome State Fault Refusal := .next (s.host Reg.NVH_CMD (some s.clearNvhCounters))

/-- FORMAT in NVH_CMD: REFUSED while ARCHIVING; it writes the label, deallocates every used region, and archiving starts (R300). -/
def State.hostFormat (s : State) : Option State :=
  if s.flag Reg.NVH_STATUS_ARCHIVING then none
  else
    let s := s.layoutUpdate
    if s.get Reg.NVH_STATUS_DRIVE ≠ 3 ∨ s.layoutBad then some s
    else
      let g := s.goodLabel
      some ({ g with nvh := { g.nvh with
        searched := true, tposNext := 0, lposNext := 0, sposNext := 0, eposBlock := 0, evBytes := [], outDrive := [s.labelWrite],
        cmds := s.labelCmd 1 :: s.trimCmds } }).archiveUpdate

/-- FORMAT (R300). -/
def execNvhFormat (s : State) : Host.Outcome State Fault Refusal := .next (s.host Reg.NVH_CMD s.hostFormat)

/-- SMART_POLL: every 60 s; a changed critical warning other than zero emits DRIVE_WARN (R307). -/
def execSmartPoll (warning used kelvin : Nat) (s : State) : Host.Outcome State Fault Refusal :=
  .next (match s.fire Timer.smart with
    | none => s
    | some s =>
      let old := s.get Reg.NVH_SMART_WARNING
      let s := (((s.put Reg.NVH_SMART_WARNING warning).put Reg.NVH_SMART_USED_PCT used).put Reg.NVH_SMART_TEMP_K kelvin).arm
        Timer.smart (msTicks 60000)
      if s.get Reg.NVH_SMART_WARNING ≠ old ∧ s.get Reg.NVH_SMART_WARNING ≠ 0 then s.emit 0x0703 0 (s.get Reg.NVH_SMART_WARNING) else s)

end Sys2Proof.Machine
end

