-- ==== Sys2Proof/Machine/Operands.lean ====
section
/-!
DEFINITION. Operand forms: the instruction words of the Aster programs (spec/08_aster_classifier.md R212, Table 8-2) and of the
Crocus scripts (spec/06_calibration.md Table 6-7), taken apart, and the programs' check (R223).
-/
namespace Sys2Proof.Machine

/-! ### Aster words (Table 8-2) -/

def wordOp (w : Nat) : Nat := bits w 26 6
def wordD (w : Nat) : Nat := bits w 21 5
def wordA (w : Nat) : Nat := bits w 16 5
def wordB (w : Nat) : Nat := bits w 11 5
def wordFn (w : Nat) : Nat := bits w 0 11
def wordImm (w : Nat) : Nat := bits w 0 16
def wordCond (w : Nat) : Nat := bits w 23 3
def wordTarget (w : Nat) : Nat := bits w 0 10

/-- A word of format R with its operands. -/
def isR (op d a b fn w : Nat) : Bool := decide (wordOp w = op ∧ wordD w = d ∧ wordA w = a ∧ wordB w = b ∧ wordFn w = fn)

/-- A word of format I with its operands. -/
def isI (op d a imm w : Nat) : Bool := decide (wordOp w = op ∧ wordD w = d ∧ wordA w = a ∧ wordImm w = imm)

/-- A branch with its operands. -/
def isB (cond a b target w : Nat) : Bool :=
  decide (wordOp w = 0x30 ∧ wordCond w = cond ∧ bits w 21 2 = 0 ∧ wordA w = a ∧ wordB w = b ∧ bits w 10 1 = 0 ∧ wordTarget w = target)

/-- A VERD with its operands: `sel` takes the class from register a. -/
def isV (verdict a sel cls w : Nat) : Bool :=
  decide (wordOp w = 0x33 ∧ bits w 24 2 = verdict ∧ bits w 21 3 = 0 ∧ wordA w = a ∧ bits w 9 7 = 0 ∧ bits w 8 1 = sel ∧ bits w 0 8 = cls)

/-- imm16, sign-extended (R212). -/
def immS (imm : Nat) : Int := if imm < 32768 then (imm : Int) else (imm : Int) - 65536

/-- Whether a word passes code 2 of R223: opcode defined, reserved bits zero, modes defined, no class 0xFF. A register field that the
condition or the mode does not use is reserved (R212; log entry 83). -/
def wordLegal (w : Nat) : Bool :=
  let op := wordOp w
  let d := wordD w
  let a := wordA w
  let b := wordB w
  let fn := wordFn w
  if op ∈ [0x01, 0x02, 0x03, 0x05, 0x06, 0x07, 0x08, 0x09, 0x0A, 0x0D, 0x0E, 0x0F, 0x21] then decide (fn = 0)
  else if op = 0x04 then decide (fn < 32)
  else if op = 0x0B ∨ op = 0x0C then decide (b = 0 ∧ fn = 0)
  else if op ∈ [0x10, 0x13, 0x14, 0x18, 0x19, 0x1A, 0x1B] then true
  else if op = 0x11 ∨ op = 0x12 then decide (a = 0)
  else if op = 0x15 ∨ op = 0x16 then decide (wordImm w < 32)
  else if op = 0x20 then decide (d = 0 ∧ fn < 3 ∧ (fn = 2 → a = 0 ∧ b = 0))
  else if op = 0x22 then decide (b = 0 ∧ fn < 12 ∧ (fn ∈ [0, 3, 4, 5, 6] → a = 0))
  else if op = 0x23 then decide (d = 0 ∧ fn = 0)
  else if op = 0x30 then decide (bits w 21 2 = 0 ∧ bits w 10 1 = 0 ∧ (wordCond w = 0 ∨ wordCond w = 7 → a = 0 ∧ b = 0))
  else if op = 0x32 then decide (d = 0 ∧ b = 0 ∧ fn < 4)
  else if op = 0x33 then
    decide (bits w 21 3 = 0 ∧ bits w 9 7 = 0 ∧ (bits w 8 1 = 0 → a = 0 ∧ bits w 0 8 ≠ 0xFF) ∧ (bits w 8 1 = 1 → bits w 0 8 = 0))
  else false

/-- The check of a program (R223): 0 when it passes, else the lowest failing code. -/
def programCheck (len : Nat) (ws : List Nat) : Nat :=
  if len = 0 ∨ 1024 < len then 1
  else if !(ws.all wordLegal) then 2
  else if ws.any (fun w => decide (wordOp w = 0x30 ∧ len ≤ wordTarget w)) then 3
  else match ws.getLast? with
    | some w => if wordOp w = 0x33 ∨ (wordOp w = 0x30 ∧ wordCond w = 0) then 0 else 4
    | none => 4

/-! ### Crocus words (Table 6-7) -/

/-- Opcode and operand of a script word. -/
def scriptOp (w : Nat) : Nat := bits w 24 8
def scriptArg (w : Nat) : Nat := bits w 0 24

end Sys2Proof.Machine
end

