-- ==== Sys2Proof/Machine/Flags.lean ====
section
/-!
DEFINITION. Flag and condition computations: the branch conditions of Table 8-4 (spec/08_aster_classifier.md), and the saturation that
marks a clipped value (R16). Pixel flags stand in Machine/Lag.lean, plan and entry flags in Machine/Flight.lean.
-/
namespace Sys2Proof.Machine

/-- Whether a branch condition holds (Table 8-4), signed; 7 is the marker flag M. -/
def condHolds (cond : Nat) (a b : Int) (m : Bool) : Bool :=
  if cond = 0 then true
  else if cond = 1 then decide (a = b)
  else if cond = 2 then decide (a ≠ b)
  else if cond = 3 then decide (a < b)
  else if cond = 4 then decide (b ≤ a)
  else if cond = 5 then decide (b < a)
  else if cond = 6 then decide (a ≤ b)
  else m

end Sys2Proof.Machine
end

