-- ==== Sys2Proof/Machine/Keep.lean ====
section
/-!
DEFINITION. The keep store and the wear counters (spec/14_keep_store.md): stores, marks, counter sets, recovery, and the
meanings of its commands.
-/
namespace Sys2Proof.Machine

/-- The window address of a keep-store page (R366). -/
def keepPage (p : Nat) : Nat := 0x04000000 + 64 * p

/-- Table 14-9: the OP code of a store. -/
def StoreKind.code : StoreKind → Nat
  | .host => 1 | .mark => 2 | .counters => 3 | .save => 4

/-- The place of a pending store: lower starts first (R369). -/
def StoreKind.rank : StoreKind → Nat
  | .save => 0 | .mark => 1 | .host => 2 | .counters => 3

/-- Put a pending store behind those that start before it (R369). -/
def enqueueStore : List Store → Store → List Store
  | [], st => [st]
  | x :: xs, st => if st.kind.rank < x.kind.rank then st :: x :: xs else x :: enqueueStore xs st

/-- The 6,336 counter bytes of a set (R378). -/
def counterBytes (s : State) : List Byte := (List.range 1056).flatMap (fun i => leBytes 6 (s.pair (Reg.KEP_CNT_LO i)))

/-- A list cut into pages of 64 bytes with their page numbers. -/
def pagesFrom : Nat → Nat → List Byte → List (Nat × List Byte)
  | 0, _, _ => []
  | n + 1, p, bs => (p, bs.take 64) :: pagesFrom n (p + 1) (bs.drop 64)

/-- The generation that the next set store takes (R381; log entry 9 for a part that holds no valid set). -/
def State.nextGen (s : State) : Nat := if s.keep.haveSet then s.get Reg.KEP_SET_GEN + 1 else 0

/-- The 100 pages of the next counter set: a snapshot of the live counters and the header (R378, R379). -/
def counterPages (s : State) (gen : Nat) : List (Nat × List Byte) :=
  let body := counterBytes s
  let head := leBytes 4 0x434B524A ++ leBytes 4 gen ++ leBytes 8 s.now ++ leBytes 44 0
  pagesFrom 100 (272 + 100 * (gen % 8)) (body ++ head ++ leBytes 4 (crc32 (body ++ head)).toNat)

/-- One mark entry (Table 14-3). -/
def markEntry (flags mpos seqMark rposMark seqExact rposExact inflight : Nat) : List Byte :=
  let b := leBytes 4 0x4D4B524A ++ leBytes 2 flags ++ leBytes 2 0 ++ leBytes 8 mpos ++ leBytes 8 seqMark ++ leBytes 8 rposMark ++
    leBytes 8 seqExact ++ leBytes 8 rposExact ++ leBytes 4 inflight ++ leBytes 8 0
  b ++ leBytes 4 (crc32 b).toNat

/-- The page of a mark entry (R375). -/
def markPage (mpos : Nat) : Nat := 16 + mpos % 256

/-- Begin a store: a counter-set store takes its snapshot now (R379). -/
def State.beginStore (s : State) (st : Store) : State :=
  let st := if st.kind = .counters then { st with gen := s.nextGen, pages := counterPages s s.nextGen } else st
  let s := { s with keep := { s.keep with run := some st } }
  let s := if st.kind = .counters ∨ st.kind = .save then { s with keep := { s.keep with setTick := some s.time.ticks } } else s
  (s.put Reg.KEP_STATUS_BUSY 1).put Reg.KEP_STATUS_OP st.kind.code

/-- Ask for a store: it starts at once when none runs, else waits in its place (R367, R369). -/
def State.startStore (s : State) (st : Store) : State :=
  match s.keep.run with
  | none => s.beginStore st
  | some _ => { s with keep := { s.keep with queue := enqueueStore s.keep.queue st } }

/-- Write the pages of a store into an array. -/
def putPages (m : List Host.Cell) (ps : List (Nat × List Byte)) : List Host.Cell :=
  ps.foldl (fun acc p => Memory.writeBytes acc (keepPage p.1) p.2) m

/-- Whether a mark store runs or waits. -/
def State.markStoring (s : State) : Bool :=
  (match s.keep.run with
   | some st => decide (st.kind = .mark) && !st.committed
   | none => false) || s.keep.queue.any (fun st => decide (st.kind = .mark))

/-- The marks in force. -/
def State.seqMark (s : State) : Nat := s.pair Reg.KEP_SEQ_MARK_LO
def State.rposMark (s : State) : Nat := s.pair Reg.KEP_RPOS_MARK_LO

/-- The next sequence number (R197). -/
def State.seqNext (s : State) : Nat := s.pair Reg.TRK_SEQ_NEXT_LO

/-- MARK_STORE_TRIGGER (R376): a count that has come within 8,192 of its mark starts a mark store that raises it by 65,536; a
mark whose count has not is kept. -/
def State.markCheck (s : State) : State :=
  let sq := decide (s.seqMark ≤ s.seqNext + 8192)
  let rp := decide (s.rposMark ≤ s.stg.nextRpos + 8192)
  if (sq || rp) && !s.markStoring then
    let mpos := s.pair Reg.KEP_MPOS_LO + 1
    let sm := if sq then s.seqMark + 65536 else s.seqMark
    let rm := if rp then s.rposMark + 65536 else s.rposMark
    s.startStore ⟨.mark, [(markPage mpos, markEntry 0 mpos sm rm 0 0 0)], mpos, sm, rm, 0, false⟩
  else s

/-- Whether admission waits for a mark store (R376). -/
def State.seqWaits (s : State) : Bool := decide (s.seqMark ≤ s.seqNext)

/-- Start-up step 9 is complete. -/
def State.step9 (s : State) : Bool := decide (s.get Reg.CFG_PHASE_PHASE = 6)

/-- Condition 1 of Table 7-5, a wait for a mark store (R376) included: what ADMITTING in TRK_STATUS shows. -/
def State.admitting (s : State) : Bool :=
  s.step9 && !s.flag Reg.TRK_CTRL_ADMIT_STOP && !s.cfg.reloading && s.pwr.save.isNone && !s.flag Reg.RDO_STATUS_LINK_LOST && !s.seqWaits

/-- Whether release waits for a mark store (R376). -/
def State.rposWaits (s : State) : Bool := decide (s.rposMark ≤ s.stg.nextRpos)

/-- MARK_WAIT follows its conditions (Table 14-9). -/
def State.markWait (s : State) : State := s.putFlag Reg.KEP_STATUS_MARK_WAIT (s.seqWaits || s.rposWaits)

/-- The commit of the running store: from now its pages read their new values, and its marks or generation are the newest
(R368, R376). -/
def State.commitStore (s : State) : State :=
  match s.keep.run with
  | none => s
  | some st =>
    if st.committed then s
    else
      let s := { s with mem := putPages s.mem st.pages, keep := { s.keep with run := some { st with committed := true } } }
      match st.kind with
      | .host => s
      | .mark =>
        ((((s.setPair Reg.KEP_SEQ_MARK_LO st.seqMark).setPair Reg.KEP_RPOS_MARK_LO st.rposMark).setPair Reg.KEP_MPOS_LO
          st.mpos).markWait).markCheck
      | .counters => { s.put Reg.KEP_SET_GEN st.gen with keep := { s.keep with haveSet := true, run := some { st with committed := true } } }
      | .save =>
        { (((s.put Reg.KEP_SET_GEN st.gen).setPair Reg.KEP_SEQ_MARK_LO st.seqMark).setPair Reg.KEP_RPOS_MARK_LO
            st.rposMark).setPair Reg.KEP_MPOS_LO st.mpos with
          keep := { s.keep with haveSet := true, run := some { st with committed := true } } }

/-- Whether the running store is the bulk store of the save sequence, whose end is a command of its own (R417). -/
def State.bulkRuns (s : State) : Bool := (s.keep.run.map (fun st => decide (st.kind = .save))).getD false

/-- STORE_COMMIT (R368). -/
def execStoreCommit (s : State) : Host.Outcome State Fault Refusal := .next (if s.bulkRuns then s else s.commitStore)

/-- The end of a committed store: the shadow array holds its pages, KEP_STORES counts them, and the next pending store starts
(R368, R369). -/
def State.completeStore (s : State) : State :=
  match s.keep.run with
  | none => s
  | some st =>
    if !st.committed then s
    else
      let s := { s with keep := { s.keep with shadow := putPages s.keep.shadow st.pages, run := none } }
      let s := ((s.bump ⟨Reg.KEP_STORES, 0, 32⟩ st.pages.length).put Reg.KEP_STATUS_BUSY 0).put Reg.KEP_STATUS_OP 0
      match s.keep.queue with
      | [] => s
      | n :: q => ({ s with keep := { s.keep with queue := q } }).beginStore n

/-- Complete the running store and the n that wait. -/
def State.finishStores (s : State) : Nat → State
  | 0 => s
  | n + 1 => ((s.commitStore).completeStore).finishStores n

/-- What comes to the keep-store window has waited for the stores that ran or were pending (R374); the bulk store of the save sequence is not
waited for (log entry 92). -/
def State.storesOver (s : State) : State := if s.bulkRuns then s else s.finishStores (s.keep.queue.length + 2)

/-- STORE_COMPLETE (R368). -/
def execStoreComplete (s : State) : Host.Outcome State Fault Refusal := .next (if s.bulkRuns then s else s.completeStore)

/-- The counter-set store of R379. -/
def State.storeCounters (s : State) : State := s.startStore ⟨.counters, [], 0, 0, 0, 0, false⟩

/-- COUNT_PERIOD_STORE (R379). -/
def execCountPeriodStore (s : State) : Host.Outcome State Fault Refusal :=
  .next (match s.fire Timer.countPeriod with
    | none => s
    | some s => (s.arm Timer.countPeriod (msTicks (1000 * s.get Reg.KEP_CTRL_COUNT_PERIOD))).storeCounters)

/-- STORE in KEP_CMD: REFUSED within 10 s of the previous set store (R379). -/
def State.hostStore (s : State) : Option State :=
  match s.keep.setTick with
  | some t => allow (decide (t + msTicks 10000 ≤ s.time.ticks)) s.storeCounters
  | none => some s.storeCounters

/-- STORE (R379). -/
def execKeepStore (s : State) : Host.Outcome State Fault Refusal := .next (s.host Reg.KEP_CMD s.hostStore)

/-- Increment a host counter (Table 14-9 ACTION 2). -/
def State.hostIncrement (s : State) (i : Nat) : Option State := allow (decide (1032 ≤ i ∧ i ≤ 1055)) (s.bumpCounter i 1)

/-- COUNTER_INCREMENT (R377). -/
def execCounterIncrement (i : Nat) (s : State) : Host.Outcome State Fault Refusal := .next (s.host Reg.KEP_CMD (s.hostIncrement i))

/-- Clear a valve or host counter (Table 14-9 ACTION 3). -/
def State.hostClear (s : State) (i : Nat) : Option State :=
  allow (decide (i ≤ 1023 ∨ 1032 ≤ i ∧ i ≤ 1055)) (s.setPair (Reg.KEP_CNT_LO i) 0)

/-- COUNTER_CLEAR (R377). -/
def execCounterClear (i : Nat) (s : State) : Host.Outcome State Fault Refusal := .next (s.host Reg.KEP_CMD (s.hostClear i))

/-- CLR_ERRORS in KEP_CMD (Table 14-9). -/
def State.clearKeepErrors (s : State) : State :=
  ((s.setWord Reg.KEP_ERRORS 0).setWord Reg.KEP_ERR_PAGE 0).put Reg.KEP_STATUS_UNCORR 0

/-- KEP_CLR_ERRORS (R383). -/
def execKepClrErrors (s : State) : Host.Outcome State Fault Refusal := .next (s.host Reg.KEP_CMD (some s.clearKeepErrors))

/-- OPERATION_MINUTE: each minute after step 6 adds one to G5 (R377). -/
def execOperationMinute (s : State) : Host.Outcome State Fault Refusal :=
  .next (match s.fire Timer.minute with
    | none => s
    | some s => (s.arm Timer.minute (msTicks 60000)).bumpCounter 1029 1)

/-! ### Host page writes (R372, R373) -/

/-- Whether a page lies in the host region (Table 14-1). -/
def hostPage (p : Nat) : Bool := decide (1280 ≤ p ∧ p ≤ 4095)

/-- Whether block protect covers a page (Table 14-2). -/
def protectedPage (bp p : Nat) : Bool :=
  decide ((bp = 1 ∧ 3072 ≤ p) ∨ (bp = 2 ∧ 2048 ≤ p) ∨ (bp = 3 ∧ 1280 ≤ p))

/-- The newest contents of a page: of a store that still waits or runs, else of the working array. -/
def State.pageNow (s : State) (p : Nat) : List Byte :=
  let stores := (match s.keep.run with
    | some st => [st]
    | none => []) ++ s.keep.queue
  match (stores.flatMap (fun st => st.pages)).reverse.find? (fun e => e.1 = p) with
  | some e => e.2
  | none => Memory.bytes s.mem (keepPage p) 64

/-- Put the words of a frame into a page: word i goes to word (first + i) mod 16 (R372). -/
def overlayPage : List Byte → Nat → List Word → List Byte
  | pg, _, [] => pg
  | pg, k, w :: ws => overlayPage (pg.take (4 * (k % 16)) ++ leBytes 4 w.toNat ++ pg.drop (4 * (k % 16) + 4)) (k + 1) ws

/-- The page store of a write (R372). -/
def State.storePage (s : State) (addr : Nat) (words : List Word) : State :=
  let p := (addr - 0x04000000) / 64
  s.startStore ⟨.host, [(p, overlayPage (s.pageNow p) (addr / 4) words)], 0, 0, 0, 0, false⟩

/-- A WRITE frame to the keep-store window: one page write, REFUSED outside the host region and on a protected page (R372,
R373). -/
def State.hostPageWrite (s : State) (addr : Nat) (words : List Word) : Option State :=
  let p := (addr - 0x04000000) / 64
  allow (decide (0x04000000 ≤ addr) && hostPage p && !protectedPage (s.get Reg.KEP_CTRL_BP) p) (s.storePage addr words)

/-- KEEP_PAGE_WRITE (R372): its frame is answered once no store runs (R374). -/
def execKeepPageWrite (addr : Nat) (words : List Word) (s : State) : Host.Outcome State Fault Refusal :=
  .next (if s.reaches addr then s.storesOver.host addr (s.storesOver.hostPageWrite addr words) else s)

/-! ### Recovery (R380–R383) -/

/-- Zero the words of an array that cannot be corrected (R383). -/
def dropWords (m : List Host.Cell) (ws : List Nat) : List Host.Cell :=
  ws.foldl (fun acc w => Memory.writeBytes acc (0x04000000 + 8 * w) (leBytes 8 0)) m

/-- Count an uncorrectable keep-store word (R383, Table 14-10). -/
def State.keepUncorr (s : State) (w : Nat) : State :=
  (((s.bump Reg.KEP_ERRORS_UNCORRECTABLE 1).put Reg.KEP_STATUS_UNCORR 1).put Reg.KEP_ERR_PAGE_PAGE (w / 8)).put
    Reg.KEP_ERR_PAGE_WORD (w % 8)

/-- A mark entry's fields, when it is valid (Table 14-3). -/
def parseMark (b : List Byte) : Option (Nat × Nat × Nat × Nat × Nat × Nat × Nat) :=
  let f := leNat ((b.drop 4).take 2)
  if leNat (b.take 4) = 0x4D4B524A && decide (f ≤ 2) && leNat ((b.drop 0x3C).take 4) == (crc32 (b.take 0x3C)).toNat then
    some (leNat ((b.drop 8).take 8), f, leNat ((b.drop 0x10).take 8), leNat ((b.drop 0x18).take 8), leNat ((b.drop 0x20).take 8),
      leNat ((b.drop 0x28).take 8), leNat ((b.drop 0x30).take 4))
  else none

/-- Whether pages p to p + n − 1 hold a word that cannot be corrected. -/
def badPages (bad : List Nat) (p n : Nat) : Bool := bad.any (fun w => decide (p ≤ w / 8 ∧ w / 8 < p + n))

/-- The valid mark entry with the highest MPOS (R382); one that holds a word that cannot be corrected is not valid (R383). -/
def newestMark (m : List Host.Cell) (bad : List Nat) : Option (Nat × Nat × Nat × Nat × Nat × Nat × Nat) :=
  ((List.range 256).filterMap (fun k => if badPages bad (16 + k) 1 then none else parseMark (Memory.bytes m (keepPage (16 + k)) 64))).foldl
    (fun best e => match best with
      | none => some e
      | some b => if b.1 < e.1 then some e else some b) none

/-- The generation and counters of set k, when MAGIC and CRC are valid (R378, R381). -/
def parseSet (m : List Host.Cell) (k : Nat) : Option (Nat × List Byte) :=
  let base := keepPage (272 + 100 * k)
  let head := Memory.bytes m (base + 6336) 64
  if leNat (head.take 4) = 0x434B524A then
    let body := Memory.bytes m base 6336
    if leNat ((head.drop 0x3C).take 4) = (crc32 (body ++ head.take 0x3C)).toNat then some (leNat ((head.drop 4).take 4), body)
    else none
  else none

/-- The valid counter set with the highest GEN (R381, R383). -/
def newestSet (m : List Host.Cell) (bad : List Nat) : Option (Nat × List Byte) :=
  ((List.range 8).filterMap (fun k => if badPages bad (272 + 100 * k) 100 then none else parseSet m k)).foldl
    (fun best e => match best with
      | none => some e
      | some b => if b.1 < e.1 then some e else some b) none

/-- Recall the counters from a set's bytes. -/
def State.recallCounters (s : State) (body : List Byte) : State :=
  (List.range 1056).foldl (fun t i => t.setPair (Reg.KEP_CNT_LO i) (leNat ((body.drop (6 * i)).take 6))) s

/-- The least multiple of 65,536 at least 8,192 above a number (R382). -/
def markAbove (n : Nat) : Nat := ceilDiv (n + 8192) 65536 * 65536

/-- KEEP_STORE_RECOVERY and RESUME_MARK_STORE (R380–R382): journal, working array, counters, marks, and the new mark entry. The
result carries KIND, and what the power-loss gap record needs: INFLIGHT, the recalled marks and MPOS, and the exact counts. -/
def State.recover (s : State) (old : KeepState) (k : KeepFacts) : State × (Nat × Nat × Nat × Nat × Nat × Nat × Nat) :=
  let journal := match old.run with
    | none => 0
    | some st => if st.committed then 1 else 2
  let shadow := match old.run with
    | some st => if st.committed then putPages old.shadow st.pages else old.shadow
    | none => old.shadow
  let work := dropWords shadow k.uncorrectable
  let s := { s with mem := work, keep := { KeepState.reset with shadow := shadow } }
  let s := k.uncorrectable.foldl State.keepUncorr s
  let s := (s.bump Reg.KEP_ERRORS_CORRECTED k.corrected).put Reg.KEP_RESUME_JOURNAL journal
  let s := match newestSet work k.uncorrectable with
    | some (g, body) => { (s.recallCounters body).put Reg.KEP_SET_GEN g with keep := { s.keep with haveSet := true } }
    | none => s.put Reg.KEP_STATUS_COUNT_LOST 1
  let mark := newestMark work k.uncorrectable
  let r : Nat × Nat × Nat × Nat × Nat × Nat × Nat := match mark with
    | some (mpos, f, sm, rm, se, re, infl) =>
      if f = 1 then (1, se, re, 0, sm, rm, mpos)
      else if f = 2 then (2, se, re, infl, sm, rm, mpos)
      else (3, sm + 65536, rm + 65536, 0, sm, rm, mpos)
    | none => (0, 0, 0, 0, 0, 0, 0)
  let next := match mark with
    | some (mpos, _) => mpos + 1
    | none => 0
  let sm := markAbove r.2.1
  let rm := markAbove r.2.2.1
  let page := [(markPage next, markEntry 0 next sm rm 0 0 0)]
  let s := { s with mem := putPages s.mem page, keep := { s.keep with shadow := putPages s.keep.shadow page } }
  let s := (((s.setPair Reg.KEP_SEQ_MARK_LO sm).setPair Reg.KEP_RPOS_MARK_LO rm).setPair Reg.KEP_MPOS_LO next).bump
    ⟨Reg.KEP_STORES, 0, 32⟩ 1
  let s := (s.put Reg.KEP_RESUME_KIND r.1).putSat Reg.KEP_RESUME_INFLIGHT r.2.2.2.1
  let s := (s.setPair Reg.TRK_SEQ_NEXT_LO r.2.1).bumpCounter 1024 1
  let s := if r.1 = 3 then s.bumpCounter 1025 1 else s
  let s := if journal = 0 then s else s.bumpCounter 1030 1
  let s := { s with stg := { s.stg with nextRpos := r.2.2.1, nextSeq := r.2.1 } }
  let s := if r.1 = 0 then (s.put Reg.KEP_STATUS_MARK_LOST 1).emit 0x0901 0 0 else s
  (s, r)

end Sys2Proof.Machine
end

