-- ==== Sys2Proof/Machine/Power.lean ====
section
/-!
DEFINITION. Core voltage, temperature sensing, ballast, throttling and the hold-up check (spec/16_power_thermal.md), but for
the save sequence.
-/
namespace Sys2Proof.Machine

/-! ### Throttle stages (R412, R413, R414) -/

/-- T_THROTTLE as K32. -/
def State.tThrottle (s : State) : Int := 1000000 * (s.get Reg.PWR_THROTTLE_T_THROTTLE : Int)

/-- T_TRIP as K32. -/
def State.tTrip (s : State) : Int := 1000000 * (s.get Reg.PWR_TRIP_T_TRIP : Int)

/-- The span of stages 1 to 4 and of stage 5, µK (Table 16-4). -/
def State.span14 (s : State) : Int := 100000 * (s.get Reg.PWR_THROTTLE_SPAN14 : Int)
def State.span5 (s : State) : Int := 100000 * (s.get Reg.PWR_THROTTLE_SPAN5 : Int)

/-- A level between 0 and 1. -/
def level (used start span : Int) : Rat := if span ≤ 0 then 0 else max 0 (min 1 (((used - start : Int) : Rat) / (span : Int)))

/-- The level fk of stage k from E_used alone (R413). -/
def State.stageLevel (s : State) (k : Nat) : Rat :=
  if k = 5 then level s.pwr.eUsed (4 * s.span14) s.span5 else level s.pwr.eUsed (((k : Int) - 1) * s.span14) s.span14

/-- The level of stage 5, raised while VID_AT_MAX is set (R402; by how much is the part's, log entry 10). -/
def State.f5 (s : State) : Rat :=
  if s.flag Reg.PWR_STATUS_VID_AT_MAX then min 1 (s.stageLevel 5 + (Config.stage5Raise : Rat) / 256) else s.stageLevel 5

/-- The highest stage with a level above 0, 0 for none. -/
def State.stage (s : State) : Nat :=
  (List.range 6).foldl (fun best k => if 0 < k ∧ 0 < (if k = 5 then s.f5 else s.stageLevel k) then k else best) 0

/-- The throttle period of R414 in ticks, for the configured period: P × (1 + f5 × STRETCH / 8), rounded up, at most 2 ms. -/
def State.throttlePeriod (s : State) (p : Nat) : Nat :=
  let q : Rat := (p : Rat) * (1 + s.f5 * (s.get Reg.PWR_THROTTLE_STRETCH : Rat) / 8)
  Nat.min 200000 q.ceil.toNat

/-- FSLOW_N (R414): stage 5, a single lane below whose 160 µs the configured period lies (R89), the short lanes of R113, or VID_AT_MAX. -/
def State.fslowWanted (s : State) : Bool :=
  decide (0 < s.f5) || (s.flag Reg.RDO_STATUS_LINK_SINGLE && decide (s.get Reg.TBS_PERIOD_PERIOD < 16000)) || s.flag Reg.COR_STATUS_SLOWED ||
    s.flag Reg.PWR_STATUS_VID_AT_MAX

def State.fslowUpdate (s : State) : State := s.putFlag Reg.PWR_STATUS_FSLOW s.fslowWanted

/-! ### Core voltage (R402) -/

/-- Working correction lanes and engines. -/
def State.laneFailed (s : State) (n : Nat) : Bool := bit (s.get Reg.COR_LANE_MAP_FAILED) n
def State.laneWorks (s : State) (n : Nat) : Bool :=
  !s.laneFailed n && !(s.flag Reg.COR_STATUS_SPARE_FREE && decide (s.get Reg.COR_LANE_MAP_SPARE_LANE = n))
def State.workingLanes (s : State) : List Nat := (List.range 9).filter s.laneWorks
def State.engineFailed (s : State) (e : Nat) : Bool := decide (s.get (Reg.AST_ENG_STATE e) = 3)
def State.workingEngines (s : State) : List Nat := (List.range 16).filter (fun e => !s.engineFailed e)

/-- The least of a list, for a list that is not empty. -/
def minOr (d : Nat) (l : List Nat) : Nat := l.foldl Nat.min (l.headD d)

/-- Correction headroom in whole percent (R115): (slowest − required) / required with required = 99,840 / (P × L). -/
def headroom (slowest period lanes : Nat) : Int :=
  ((slowest : Int) * period * lanes * 100) / (99840 * 100) - 100

/-- Enter the measured lane rates (R115). -/
def State.measureLanes (s : State) (rates : List Nat) : State :=
  let s := (List.range 9).foldl (fun t n => t.putSat (Reg.COR_LANE_RATE n)
    (if t.laneFailed n then 0 else rates.getD n 0)) s
  let w := s.workingLanes
  let slow := minOr 0 (w.map (fun n => rates.getD n 0))
  let h := headroom slow (s.get Reg.TBS_STATUS_PERIOD_NOW) w.length
  let s := (s.putS Reg.COR_HEADROOM_NOW_PCT h).putSat Reg.COR_HEADROOM_LANE_RATE slow
  if s.getS Reg.COR_HEADROOM_NOW_PCT < s.getS Reg.COR_HEADROOM_MIN_PCT then
    s.putS Reg.COR_HEADROOM_MIN_PCT (s.getS Reg.COR_HEADROOM_NOW_PCT)
  else s

/-- Enter the measured engine rates (Table 8-17). -/
def State.measureEngines (s : State) (rates : List Nat) : State :=
  (List.range 16).foldl (fun t e => t.putSat (Reg.AST_ENG_RATE e)
    (if t.engineFailed e then 0 else rates.getD e 0)) s

/-- One evaluation of the headroom H and of the VID code (R402). -/
def State.vcoreStep (s : State) (lanes : List Nat) (walk : Int) (engines : List Nat) : State :=
  let s := (s.measureLanes lanes).measureEngines engines
  let a := s.getS Reg.COR_HEADROOM_NOW_PCT
  let slow := minOr 400 (s.workingEngines.map (fun e => engines.getD e 0))
  let c := ((slow : Int) - 400) * 100 / 400
  let h := min a (min walk c)
  let lim := if h = a then 0 else if h = walk then 1 else 2
  let s := (s.putS Reg.PWR_VID_STATUS_HEADROOM h).put Reg.PWR_VID_STATUS_LIMITER lim
  let code := s.get Reg.PWR_VID_STATUS_CODE
  let free := decide (s.pwr.vidFreeAt ≤ s.time.ticks)
  let runs := if (s.get Reg.PWR_VID_HR_HIGH : Int) < h then s.pwr.highRuns + 1 else 0
  let s := { s with pwr := { s.pwr with highRuns := runs } }
  let s :=
    if h < (s.get Reg.PWR_VID_HR_LOW : Int) ∧ code < s.get Reg.PWR_VID_VID_MAX ∧ free then
      { s.put Reg.PWR_VID_STATUS_CODE (code + 1) with pwr := { s.pwr with vidFreeAt := s.time.ticks + usTicks 200 } }
    else if 100 ≤ runs ∧ s.get Reg.PWR_VID_VID_MIN < code ∧ free then
      { s.put Reg.PWR_VID_STATUS_CODE (code - 1) with pwr := { s.pwr with highRuns := 0 } }
    else s
  let s :=
    if h < 2 ∧ code = s.get Reg.PWR_VID_VID_MAX then
      if s.flag Reg.PWR_STATUS_VID_AT_MAX then s
      else (s.put Reg.PWR_STATUS_VID_AT_MAX 1).emit 0x0902 code (u64OfInt h)
    else if 2 ≤ h then s.put Reg.PWR_STATUS_VID_AT_MAX 0
    else s
  s.fslowUpdate

/-- VCORE_EVALUATION (R402). -/
def execVcoreEvaluation (lanes : List Nat) (walk : Int) (engines : List Nat) (s : State) : Host.Outcome State Fault Refusal :=
  .next (match s.fire Timer.vcore with
    | none => s
    | some s => (s.arm Timer.vcore (msTicks 1)).vcoreStep lanes walk engines)

/-! ### Temperature sensing (R406–R408) -/

def State.broken (s : State) (k : Nat) : Bool := s.flag (Reg.PWR_SENSOR_BROKEN k)

/-- A sensor is broken (R407). -/
def State.breakSensor (s : State) (k why : Nat) : State :=
  if s.broken k then s
  else ((s.put (Reg.PWR_SENSOR_BROKEN k) 1).put (Reg.PWR_SENSOR_WHY k) why).emit 0x0903 k why

/-- Whether region z has a healthy sensor. -/
def State.sighted (s : State) (z : Nat) : Bool := !s.broken (2 * z) || !s.broken (2 * z + 1)

/-- The mean of a list of ten conversions, exact to a rounding (R406). -/
def meanOf (l : List Int) : Int := rhe (sumI l) (Nat.max 1 l.length : Nat)

/-- One region after its sensors' readings were renewed: the checks of R407, then its temperature (R408). -/
def State.renewRegion (s : State) (reading : Nat → Int) (z : Nat) : State :=
  let a := 2 * z
  let b := 2 * z + 1
  let out := fun (x : Int) => decide (x < -50000000 ∨ 150000000 < x)
  let s := if out (reading a) then s.breakSensor a 1 else s
  let s := if out (reading b) then s.breakSensor b 1 else s
  let s := if s.broken a then s else s.putS (Reg.PWR_SENSOR_TEMP a) (rhe (reading a) 100000)
  let s := if s.broken b then s else s.putS (Reg.PWR_SENSOR_TEMP b) (rhe (reading b) 100000)
  let diff := reading a - reading b
  let tol : Int := 100000 * (s.get Reg.PWR_TRIP_PAIR_TOL : Int)
  let apart := !s.broken a && !s.broken b && decide (tol < diff ∨ tol < -diff)
  let runs := if apart then s.pwr.pairRuns.getD z 0 + 1 else 0
  let s := { s with pwr := { s.pwr with pairRuns := s.pwr.pairRuns.set z runs } }
  let s := if 10 ≤ runs then s.breakSensor (if diff < 0 then a else b) 2 else s
  if s.sighted z then
    let t := if s.broken a then reading b else if s.broken b then reading a else max (reading a) (reading b)
    s.putS (Reg.PWR_TEMP_TEMP z) t
  else
    let t := s.tThrottle + 100000 * (s.get Reg.PWR_TRIP_BROKEN_EXCESS : Int)
    let s := s.putS (Reg.PWR_TEMP_TEMP z) t
    if bit (s.get Reg.PWR_STATUS_BLIND) z then s
    else ((s.put Reg.PWR_STATUS_BLIND (s.get Reg.PWR_STATUS_BLIND + 2 ^ z)).emit 0x0904 z 0).degrade 4

/-- The regions with a healthy sensor that are at or above a temperature. -/
def State.regionsAt (s : State) (t : Int) : List Nat :=
  (List.range 12).filter (fun z => s.sighted z && decide (t ≤ s.getS (Reg.PWR_TEMP_TEMP z)))

/-- Since when every region with a healthy sensor has stayed below T_TRIP − 20 K (R415). -/
def State.coolUpdate (s : State) : State :=
  let hot := !(s.regionsAt (s.tTrip - 20000000)).isEmpty
  { s with pwr := { s.pwr with coolSince := if hot then none else (match s.pwr.coolSince with
    | none => some s.time.ticks
    | some t => some t) } }

/-- One conversion of every sensor: those outside their band break; after ten the readings are renewed (R406, R407). -/
def State.convertSensors (s : State) (cs : List (Bool × Int)) : State :=
  let s := (List.range 24).foldl (fun t k => if (cs.getD k (true, 0)).1 then t else t.breakSensor k 1) s
  let acc := (List.range 24).map (fun k => s.pwr.readings.getD k [] ++ [(cs.getD k (true, 0)).2])
  if (acc.headD []).length < 10 then { s with pwr := { s.pwr with readings := acc } }
  else
    let s := { s with pwr := { s.pwr with readings := List.replicate 24 [] } }
    let s := (List.range 12).foldl (fun t z => t.renewRegion (fun k => meanOf (acc.getD k [])) z) s
    s.coolUpdate

/-- TEMP_SENSOR_CONVERT (R406): one conversion of the 24 sensors, whether each is within its band and its temperature (K32). -/
def execTempSensorConvert (cs : List (Bool × Int)) (s : State) : Host.Outcome State Fault Refusal :=
  .next (if s.cfg.stage = .off then s else s.convertSensors cs)

/-! ### Ballast (R409) -/

/-- The ballast of a held region: SET_MW − work, at least 0, at most what its sources dissipate, scaled by 1 − f1 (R409). -/
def State.ballast (s : State) (z work : Nat) : Nat :=
  let set := s.get (Reg.PWR_REGION_SET_MW z)
  if 8 ≤ z ∨ set = 0 ∨ !s.flag Reg.PWR_CTRL_BALLAST_ON ∨ 2 ≤ s.stage ∨ set ≤ work then 0
  else
    let full := Nat.min (set - work) (Config.ballastMax z)
    (rheQ ((full : Rat) * (1 - s.stageLevel 1))).toNat

/-- One region's estimate of work and its ballast. -/
def State.loadRegion (s : State) (works : List Nat) (z : Nat) : State :=
  let w := works.getD z 0
  let set := s.get (Reg.PWR_REGION_SET_MW z)
  ((s.putSat (Reg.PWR_LOAD_WORK_MW z) w).putSat (Reg.PWR_LOAD_BALLAST_MW z) (s.ballast z w)).putFlag (Reg.PWR_LOAD_OVER z)
    (decide (z < 8 ∧ 0 < set ∧ set < w))

/-- BALLAST_UPDATE (R409): the work estimate of each region, mW; from commit onward. -/
def execBallastUpdate (works : List Nat) (s : State) : Host.Outcome State Fault Refusal :=
  .next (match s.fire Timer.ballast with
    | none => s
    | some s => (List.range 12).foldl (fun t z => t.loadRegion works z) (s.arm Timer.ballast (usTicks 100)))

/-! ### Throttling (R412, R413) -/

/-- The hottest region (the lowest of several) and its temperature. -/
def State.hottest (s : State) : Nat × Int :=
  (List.range 12).foldl (fun b z => if b.2 < s.getS (Reg.PWR_TEMP_TEMP z) then (z, s.getS (Reg.PWR_TEMP_TEMP z)) else b)
    (0, s.getS (Reg.PWR_TEMP_TEMP 0))

/-- E_used after one evaluation (R412). -/
def usedNext (used e : Int) : Int := if used < e then e else if e < used - 500000 then e + 500000 else used

/-- The throttle registers and levels of one evaluation (R412, R413, R168). -/
def State.throttleStep (s : State) : State :=
  let h := s.hottest
  let e := max 0 (h.2 - s.tThrottle)
  let used := usedNext s.pwr.eUsed e
  let s := { s with pwr := { s.pwr with eUsed := used } }
  let k := s.stage
  let lv : Rat := if k = 0 then 0 else if k = 5 then s.f5 else s.stageLevel k
  let s := (((s.putSat Reg.PWR_THROTTLE_STATUS_EXCESS (rhe used 10000).toNat).put Reg.PWR_THROTTLE_STATUS_HOTTEST h.1).put
    Reg.PWR_THROTTLE_STATUS_STAGE k).putSat Reg.PWR_THROTTLE_STATUS_LEVEL (rheQ (lv * 256)).toNat
  let s := s.putFlag Reg.PWR_STATUS_THROTTLING (decide (0 < used))
  let s := s.put Reg.CAL_STATUS_GLEAN_16THS (16 - (rheQ (12 * s.stageLevel 4)).toNat)
  s.fslowUpdate

/-! ### Evenly dropped work (R413) -/

/-- One more item is due at a level f: the accumulator after it, and whether it is dropped. Over any run of n items the number
dropped differs from n × f by less than 1 (R413). -/
def dropStep (acc f : Rat) : Rat × Bool := if 1 ≤ acc + f then (acc + f - 1, true) else (acc + f, false)

/-! ### The hold-up check (R422) -/

/-- The result of a hold-up check: C and ESR from V0, V1, V2 (µV), LOW when the capacitor fails (R422). -/
def State.holdupResult (s : State) (h : HoldupFacts) : State :=
  let fall := h.v1 - h.v2
  let step := h.v0 - h.v1
  let c := if fall = 0 then 65535 else (rhe 199000000 fall).toNat
  let esr := (rhe (5 * step) 1000).toNat
  let low := decide (199000000 < 1500 * fall ∨ 200000 < 5 * step)
  let s := (((s.putSat Reg.PWR_HOLDUP_C_UF c).putSat Reg.PWR_HOLDUP_ESR_MOHM esr).put Reg.PWR_HOLDUP_CHECKED 1).putFlag
    Reg.PWR_HOLDUP_LOW low
  let s := s.putFlag Reg.PWR_STATUS_HOLDUP_LOW low
  if low then s.emit 0x0906 0 (Nat.min c 65535 + Nat.min esr 4095 * 2 ^ 32) else s

/-- HOLDUP_CHECK in PWR_CMD: REFUSED while ADMITTING is 1 (R422). The charge switch opens for the check. -/
def State.hostHoldup (s : State) : Option State :=
  allow (!s.admitting) { s with pwr := { s.pwr with checking := true, chargeSwitch := false } }

/-- HOLDUP_CHECK (R422). -/
def execHoldupCheck (s : State) : Host.Outcome State Fault Refusal := .next (s.host Reg.PWR_CMD s.hostHoldup)

/-- HOLDUP_CHECK_DONE (R422). -/
def execHoldupCheckDone (h : HoldupFacts) (s : State) : Host.Outcome State Fault Refusal :=
  .next (if s.pwr.checking then
      ({ s with pwr := { s.pwr with checking := false, chargeSwitch := true } }).holdupResult h
    else s)

/-- VKIN_CHARGE_THRESHOLD (R399): the switch follows VKIN at 11.0 V, but stays open in a check and from the save sequence on. Before a start VKEEP
is above its threshold again once the switch charges it (DEDUCED, log entry 93). -/
def execVkinChargeThreshold (above : Bool) (s : State) : Host.Outcome State Fault Refusal :=
  .next (if s.pwr.checking ∨ s.pwr.save.isSome then s
    else
      let s := if above ∧ s.cfg.stage = .off then s.put Reg.PWR_STATUS_VKEEP_LOW 0 else s
      { s with pwr := { s.pwr with chargeSwitch := above } })

end Sys2Proof.Machine
end

