-- ==== Sys2Proof/Machine/Store.lean ====
section
/-!
DEFINITION. The coefficient store (spec/04_pixel_correction.md R102, Tables 4-4 to 4-6): where pixel records, bank headers and
the radiometric table copies lie in the window at 0x0100_0000, and their fields.
-/
namespace Sys2Proof.Machine

/-- The window address of a bank (Table 4-4). -/
def bankBase (b : Nat) : Nat := 0x01000000 + 0x400000 * b

/-- The window address of the pixel record of a row and physical column (R102). -/
def pixelAddr (b row p : Nat) : Nat := bankBase b + 32 * (row * 4160 + p)

/-- The window address of a bank's header. -/
def headerAddr (b : Nat) : Nat := bankBase b + 0x30C000

/-- The window address of a table copy. -/
def tableAddr (t : Nat) : Nat := 0x017F0000 + 0x1000 * t

/-- A signed and an unsigned 32-bit field, and a u16 field of the window. -/
def State.memS (s : State) (a : Nat) : Int := (s.memWord a).toInt
def State.memU (s : State) (a : Nat) : Nat := (s.memWord a).toNat
def State.memH (s : State) (a : Nat) : Nat := (s.byte a).toNat + 256 * (s.byte (a + 1)).toNat

/-- The stored pixel flags, bits [7:4] (Table 4-5). -/
def State.storedFlags (s : State) (a : Nat) : Nat := bits (s.memH (a + 26)) 4 4 * 16

/-- Whether a pixel record carries DEAD, UNCAL, CAL_KEPT (Table 4-2). -/
def State.deadAt (s : State) (a : Nat) : Bool := bit (s.storedFlags a) 5
def State.uncalAt (s : State) (a : Nat) : Bool := bit (s.storedFlags a) 4
def State.keptAt (s : State) (a : Nat) : Bool := bit (s.storedFlags a) 6

/-- The active coefficient bank and table copy (Table 4-9). -/
def State.activeBank (s : State) : Nat := s.get Reg.COR_STATUS_ACTIVE_BANK
def State.activeTable (s : State) : Nat := s.get Reg.COR_STATUS_ACTIVE_TABLE
def State.standbyBank (s : State) : Nat := 1 - s.activeBank

/-- Entry i of a table copy. -/
def State.tableEntry (s : State) (t i : Nat) : Int := s.memS (tableAddr t + 4 * i)

/-- Write a run of window bytes. -/
def State.putBytes (s : State) (a : Nat) (bs : List Byte) : State := { s with mem := Memory.writeBytes s.mem a bs }

/-- Two's-complement bytes of a signed 32-bit field. -/
def sBytes (x : Int) : List Byte := leBytes 4 (x % 4294967296).toNat

/-- The physical column of an image column, and whether a physical column is an image column (R60). -/
def physOf (c : Nat) : Nat := c + 32
def isImage (p : Nat) : Bool := decide (32 ≤ p ∧ p < 4128)

/-- The positions of the thermometers (R70). -/
def thermPos (k : Nat) : Int := 260 + 520 * (k : Int)

/-- The nearest thermometer that takes part at or below a position, and at or above one. -/
def thermBelow (d : List (Option Int)) (p : Int) : Option (Int × Int) :=
  (List.range 8).foldl (fun best k => match d.getD k none with
    | some v => if thermPos k ≤ p then some (thermPos k, v) else best
    | none => best) none

def thermAbove (d : List (Option Int)) (p : Int) : Option (Int × Int) :=
  (List.range 8).foldr (fun k best => match d.getD k none with
    | some v => if p ≤ thermPos k then some (thermPos k, v) else best
    | none => best) none

/-- ΔTs of a physical column from the thermometer differences (R96); 0 when none takes part (R103). -/
def columnDts (d : List (Option Int)) (p : Nat) : Int :=
  match thermBelow d p, thermAbove d p with
  | some (pa, da), some (pb, db) => if pa = pb then da else rheQ ((da : Rat) + ((db - da : Int) : Rat) * ((p : Int) - pa : Int) / (pb - pa : Int))
  | some (_, da), none => da
  | none, some (_, db) => db
  | none, none => 0

/-- The line environment in force for a line: the newest one that is not later. -/
def findEnv : List LineEnv → Nat → Option LineEnv
  | [], _ => none
  | e :: es, n => if e.line = n then some e else findEnv es n

end Sys2Proof.Machine
end

