-- ==== Sys2Proof/Machine/Lag.lean ====
section
/-!
DEFINITION. Lag inversion and the row history (spec/05_lag_and_row_walk.md R116–R123), and what calibration takes from a
corrected row (spec/06_calibration.md R150, R155, R157).
-/
namespace Sys2Proof.Machine

/-! Pixel flag bits (Tables 4-2, 5-16). -/
namespace Pf
def sat : Nat := 1
def spare : Nat := 2
def interp : Nat := 4
def lost : Nat := 8
def uncal : Nat := 16
def dead : Nat := 32
def calKept : Nat := 64
def driftLimit : Nat := 128
def clamp : Nat := 256
def range : Nat := 512
def substrate : Nat := 1024
def lagOff : Nat := 4096
def rowsShort : Nat := 8192
def velClamp : Nat := 16384
def filled : Nat := 32768
end Pf

/-- Whether a flag word carries any bit of a mask. -/
def anyFlag (flags mask : Nat) : Bool := decide (flags &&& mask ≠ 0)

/-- An entry of the lag gain table for depth D, period P in ticks and a τ code (R117). -/
def lagGain (depth period tau : Nat) : Int :=
  let i := (rhe (tau : Int) 10).toNat
  if i = 0 ∨ depth = 0 then 0
  else
    let a := expNeg ((period : Rat) / (100 * i : Nat))
    satU32 (rhe ((depth : Int) * a * 65536) (256 * (fixOne - a)))

/-- The stage-6 value and flags of the line before, held in the lag state. -/
def State.lagPrev (s : State) (row c : Nat) : Int × Nat := (Map.find s.walk.lag (row * 4096 + c)).getD (0, 0)

/-- Whether the lag-inverted value of a pixel is suspended (R118): the earlier value's flags, or the line. -/
def lagSuspended (e : LineEnv) (prevFlags : Nat) : Bool :=
  e.lagOff || anyFlag prevFlags (Pf.sat + Pf.lost + Pf.clamp + Pf.range)

/-- LAG_INVERSION (R116, R118, R119): t_lag and its flags, for the τ code of the pixel's record (R117). -/
def State.lagInvert (s : State) (e : LineEnv) (row c tau : Nat) (t : Int) (flags : Nat) : Int × Nat :=
  let prev := s.lagPrev row c
  if lagSuspended e prev.2 then (t, if 0 < e.depth then flags ||| Pf.lagOff else flags)
  else
    let gain := lagGain e.depth e.lagPeriod tau
    let x := rhe (t * 65536 + (t - prev.1) * gain) 65536
    (satS32 x, (flags ||| prev.2) ||| (if clipsS32 x then Pf.clamp else 0))

/-- The key of a sample in the row history. -/
def histKey (line row c : Nat) : Nat := (line * 24 + row) * 4096 + c

/-- The code of a sample: T16 saturated to 0xFFFE, or 0xFFFF when MASK excludes it (R123). -/
def sampleCode (mask : Nat) (v : Int) (flags : Nat) : Nat := if anyFlag flags mask then 65535 else Nat.min (t16 v) 65534

/-- One image pixel of a corrected row enters the lag state and the row history (R116, R123). -/
def State.walkPixel (s : State) (e : LineEnv) (row c tau : Nat) (t : Int) (flags : Nat) : State :=
  let r := s.lagInvert e row c tau t flags
  let code := sampleCode (s.get Reg.COR_WALK_EXCLUDE_MASK) r.1 r.2
  { s with walk := { s.walk with
      lag := Map.insert s.walk.lag (row * 4096 + c) (t, flags)
      hist := Map.insert s.walk.hist (histKey e.line row c) (code, r.2) } }

/-- A sample of the row history in reach: its K32 value and flags; none when it is not held, excluded, or before the last
discontinuity (R123, R126, R127). -/
def State.sample (s : State) (line row c : Nat) : Option (Int × Nat) :=
  if line < s.walk.histFrom then none
  else match Map.find s.walk.hist (histKey line row c) with
    | some (code, f) => if code = 65535 then none else some (k32OfT16 code, f)
    | none => none

/-! ### What calibration takes from a row -/

/-- Whether a value lies beyond the hot or cold detection threshold of a column (R150, R182); never while its background is not
loaded. -/
def State.beyond (s : State) (c : Nat) (v : Int) : Bool :=
  match Map.find s.trk.bg c with
  | none => false
  | some b => decide (1000 * (s.get Reg.TRK_HOT_HOT_TH : Int) < v - b ∨ v - b < -(1000 * (s.get Reg.TRK_COLD_COLD_TH : Int)))

/-- Whether a sample carries SAT, excluded or not: it is then hot (Table 7-1, R182). -/
def State.satAt (s : State) (line row c : Nat) : Bool :=
  match Map.find s.walk.hist (histKey line row c) with
  | some e => anyFlag e.2 Pf.sat
  | none => false

/-- Row 0 of a line: the last line with a sample beyond a threshold (R150, R152). -/
def State.watchRow0 (s : State) (line : Nat) : State :=
  if (List.range 4096).any (fun c => match s.sample line 0 c with
      | some v => s.beyond c v.1
      | none => false) || (List.range 4096).any (fun c => (Map.find s.trk.bg c).isSome && s.satAt line 0 c) then
    { s with cal := { s.cal with row0Bad := some line } }
  else s

/-- Whether a line is one of an averaging span. -/
def inSpan (sp : Option (Nat × Nat)) (line : Nat) : Bool :=
  match sp with
  | some (a, n) => decide (a ≤ line ∧ line < a + n)
  | none => false

/-- Put the samples of a row into an averaging line. -/
def AvgLine.extend (a : AvgLine) (px : List (Nat × Int × Bool)) : AvgLine :=
  { line := a.line
    therms := a.therms
    u := px.foldl (fun m p => Map.insert m p.1 p.2.1) a.u
    bad := a.bad ++ (px.filter (fun p => p.2.2)).map (fun p => p.1) }

/-- Add a row to the averaging line it belongs to. -/
def addRow : List AvgLine → Nat → List (Option Int) → List (Nat × Int × Bool) → List AvgLine
  | [], n, th, px => [AvgLine.extend ⟨n, th, [], []⟩ px]
  | a :: as, n, th, px => if a.line = n then a.extend px :: as else a :: addRow as n th px

/-- A corrected row of an averaging line (R157): pixel index, u, and whether the sample is bad. -/
def State.averageRow (s : State) (e : LineEnv) (px : List (Nat × Int × Bool)) : State :=
  let s := if inSpan s.cal.plateLines e.line then
      { s with cal := { s.cal with plate := addRow s.cal.plate e.line e.therms px } }
    else s
  if inSpan s.cal.flagLines e.line then { s with cal := { s.cal with flag := addRow s.cal.flag e.line e.therms px } } else s

/-- The mean stage-6 value of a line's image pixels that carry none of SAT, LOST, INTERP and DEAD, row by row (R155). -/
def State.viewRow (s : State) (row : Nat) (px : List (Int × Nat)) : State :=
  let good := px.filter (fun p => !anyFlag p.2 (Pf.sat + Pf.lost + Pf.interp + Pf.dead))
  let sum := (if row = 0 then 0 else s.cal.viewSum) + sumI (good.map (fun p => p.1))
  let n := (if row = 0 then 0 else s.cal.viewN) + good.length
  { s with cal := { s.cal with
      viewSum := sum, viewN := n
      view := if row = 23 then (if n = 0 then none else some ((sum : Rat) / (n : Nat))) else s.cal.view } }

end Sys2Proof.Machine
end

