-- ==== Sys2Proof/Machine/Shutter.lean ====
section
/-!
DEFINITION. What other units ask of calibration (spec/06_calibration.md): a shutter-event request (R146, R147, R149), and the
codes that a running trim collects (R174, R175).
-/
namespace Sys2Proof.Machine

/-- Assert FGAP_N for a pending request, if a multipurpose pin owns it (R149), but not yet in start-up step 7 (Table 2-8); the gap timeout runs from its assertion (R151). -/
def State.assertGap (s : State) : State :=
  if s.cal.fgap || !s.ownsAll 1 || decide (s.get Reg.CFG_PHASE_PHASE = 4) then s
  else ({ s with cal := { s.cal with fgap := true, fgapTick := s.time.ticks } }).arm Timer.gapTimeout
    (msTicks (s.get Reg.CAL_GAP_GAP_TIMEOUT))

/-- Release FGAP_N. -/
def State.releaseGap (s : State) : State := ({ s with cal := { s.cal with fgap := false } }).disarm Timer.gapTimeout

/-- Whether a shutter script runs (R147): one that a request has started, or one that RUN has started and that holds a CLOSE (DEDUCED, log
entry 45). -/
def State.shutterRuns (s : State) : Bool :=
  let n := s.get Reg.CAL_SCRIPT_STAT_SCRIPT
  s.flag Reg.CAL_STATUS_RUNNING && (s.cal.shutter ||
    (List.range (s.cal.lens.getD n 256)).any (fun i => decide (bits (s.word (Reg.CAL_SCRIPT_MEM n i)).toNat 24 8 = 4)))

/-- A shutter-event request: requests merge, and one that arises while a shutter script runs is held (R146, R147). -/
def State.requestShutter (s : State) : State :=
  if s.shutterRuns then { s with cal := { s.cal with held := true } }
  else (s.put Reg.CAL_STATUS_PENDING 1).assertGap

/-- Whether the averaging of an event runs, plate or flag (R79). -/
def State.averaging (s : State) : Bool :=
  s.flag Reg.CAL_STATUS_RUNNING && decide (s.cal.op = some 3 ∨ s.cal.op = some 6)

/-- Add a code to a running sum. -/
def addCode (m : Map (Nat × Nat)) (k code : Nat) : Map (Nat × Nat) :=
  let o := (Map.find m k).getD (0, 0)
  Map.insert m k (o.1 + code, o.2 + 1)

/-- The lines of one trial of a trim (R174, R175; log entry 21 for the bias DAC). -/
def trialLines (kind period : Nat) : Nat :=
  if kind ≤ 1 then 16 else if kind = 2 then ceilDiv 200000 (12 * period) else if kind = 3 then 3 else 8

/-- Whether a line belongs to the running trial. -/
def TrimRun.holds (t : TrimRun) (period line : Nat) : Bool :=
  decide (t.start ≤ line ∧ line < t.start + trialLines t.kind period)

/-- A slot-0 code of a furrow or spare, for the capacitor search. -/
def State.trimRef (s : State) (line key code : Nat) : State :=
  match s.cal.trim with
  | some t =>
    if t.kind = 0 ∧ t.holds (s.get Reg.TBS_STATUS_PERIOD_NOW) line then
      { s with cal := { s.cal with trim := some (if line % 2 = 0 then { t with lo := addCode t.lo key code }
        else { t with hi := addCode t.hi key code }) } }
    else s
  | none => s

/-- A row code of a furrow, for the skim-source and DAC searches. -/
def State.trimRow (s : State) (line key code : Nat) : State :=
  match s.cal.trim with
  | some t =>
    if 0 < t.kind ∧ t.holds (s.get Reg.TBS_STATUS_PERIOD_NOW) line then
      { s with cal := { s.cal with trim := some { t with
        row := addCode t.row key code, sat := if code = 65535 ∧ key ∉ t.sat then key :: t.sat else t.sat } } }
    else s
  | none => s

end Sys2Proof.Machine
end

