-- ==== Sys2Proof/Machine/Readout.lean ====
section
/-!
DEFINITION. Read-out (spec/03_sensor_readout.md): the sensor link and its lanes, the reference checks and spare furrows, the
headland mean, and the thermometers' failures. Furrow f of group g has the key 65 × g + f; its spare is furrow 64.
-/
namespace Sys2Proof.Machine

/-! ### Lanes and roles (R87–R89) -/

def State.linkLostNow (s : State) : Bool := s.flag Reg.RDO_STATUS_LINK_LOST
def State.linkSingle (s : State) : Bool := s.flag Reg.RDO_STATUS_LINK_SINGLE
def State.laneDead (s : State) (n : Nat) : Bool := bit (s.get Reg.RDO_LINK_STATUS_FAILED) n

/-- The role of a lane: 0 DATA0, 1 DATA1, 2 parity, 3 standby; none for a lane without one. -/
def State.laneRole (s : State) (n : Nat) : Option Nat :=
  if s.linkLostNow then none
  else if s.get Reg.RDO_LINK_STATUS_DATA0_LANE = n then some 0
  else if s.get Reg.RDO_LINK_STATUS_DATA1_LANE = n then some 1
  else if s.flag Reg.RDO_LINK_STATUS_PARITY_ACTIVE ∧ s.get Reg.RDO_LINK_STATUS_PARITY_LANE = n then some 2
  else if s.flag Reg.RDO_LINK_STATUS_STANDBY_ACTIVE ∧ s.get Reg.RDO_LINK_STATUS_STANDBY_LANE = n then some 3
  else none

/-- A lane is declared failed; its roles move at the next line boundary (R88). -/
def State.failLane (s : State) (n : Nat) : State :=
  if s.laneDead n then s
  else
    let s := s.put Reg.RDO_LINK_STATUS_FAILED (setBit (s.get Reg.RDO_LINK_STATUS_FAILED) n true)
    { s with rdo := { s.rdo with moving := s.rdo.moving ++ [n] } }

/-- The data lane of a role. -/
def dataLane (role : Nat) : Field := if role = 0 then Reg.RDO_LINK_STATUS_DATA0_LANE else Reg.RDO_LINK_STATUS_DATA1_LANE

/-- No lane is left for the data: LINK_LOST (R89, R91). -/
def State.loseLink (s : State) : State :=
  ((s.put Reg.RDO_STATUS_LINK_LOST 1).put Reg.RDO_STATUS_LINK_SINGLE 0).emit 0x0109 0 s.time.line

/-- One lane carries both frames of each group, at 160 µs (R89). With SINGLE_LANE_SLOW 0 and a shorter period the link is lost
instead. -/
def State.singleLane (s : State) (n : Nat) : State :=
  let p := s.get Reg.TBS_STATUS_PERIOD_NOW
  let s := ((s.put Reg.RDO_LINK_STATUS_DATA0_LANE n).put Reg.RDO_LINK_STATUS_DATA1_LANE n).put
    Reg.RDO_LINK_STATUS_MIN_PERIOD_US 160
  if p < 16000 ∧ !s.flag Reg.RDO_CTRL_SINGLE_LANE_SLOW then s.loseLink
  else (s.put Reg.RDO_STATUS_LINK_SINGLE 1).emit 0x0108 n (Nat.max p 16000)

/-- No parity lane is left (Table 3-10). -/
def State.unprotect (s : State) : State :=
  ((s.put Reg.RDO_LINK_STATUS_PARITY_ACTIVE 0).put Reg.RDO_STATUS_LINK_UNPROTECTED 1).emit 0x0107 0 0

/-- The roles after one lane failed (Table 3-10), by the role it held. -/
def State.moveRole (s : State) (n role : Nat) : State :=
  let s := s.emit 0x0106 n role
  let standby := s.flag Reg.RDO_LINK_STATUS_STANDBY_ACTIVE
  if role = 3 then s.put Reg.RDO_LINK_STATUS_STANDBY_ACTIVE 0
  else if standby then
    let b := s.get Reg.RDO_LINK_STATUS_STANDBY_LANE
    let s := s.put Reg.RDO_LINK_STATUS_STANDBY_ACTIVE 0
    if role = 2 then s.put Reg.RDO_LINK_STATUS_PARITY_LANE b else s.put (dataLane role) b
  else if s.flag Reg.RDO_LINK_STATUS_PARITY_ACTIVE then
    let b := s.get Reg.RDO_LINK_STATUS_PARITY_LANE
    let s := s.unprotect
    if role = 2 then s else s.put (dataLane role) b
  else if s.linkSingle then s.loseLink
  else s.singleLane (s.get (dataLane (1 - role)))

/-- LANE_ROLE_CHANGE (R88): at a line boundary the roles of every lane that failed move, standby first, data lanes last. -/
def State.moveLanes (s : State) : State :=
  let move := fun (t : State) (role : Nat) =>
    t.rdo.moving.foldl (fun u n => if u.laneRole n = some role then u.moveRole n role else u) t
  if s.rdo.moving.isEmpty then s
  else
    let s := [3, 2, 1, 0].foldl move s
    let s := { s with rdo := { s.rdo with moving := [] } }
    s.degrade 5

/-- The roles that a READOUT reset assigns (R92): DATA0, DATA1, parity and standby in that order, each to the lowest working lane
not yet assigned. -/
def State.assignRoles (s : State) : State :=
  let w := (List.range 4).filter (fun n => !s.laneDead n)
  let l := fun (k : Nat) => w.getD k 0
  let s := (s.put Reg.RDO_LINK_STATUS_DATA0_LANE (l 0)).put Reg.RDO_LINK_STATUS_DATA1_LANE (if 2 ≤ w.length then l 1 else l 0)
  let s := (s.put Reg.RDO_LINK_STATUS_PARITY_LANE (if 3 ≤ w.length then l 2 else 0)).putFlag Reg.RDO_LINK_STATUS_PARITY_ACTIVE
    (decide (3 ≤ w.length))
  let s := (s.put Reg.RDO_LINK_STATUS_STANDBY_LANE (if 4 ≤ w.length then l 3 else 0)).putFlag Reg.RDO_LINK_STATUS_STANDBY_ACTIVE
    (decide (4 ≤ w.length))
  let s := s.putFlag Reg.RDO_STATUS_LINK_UNPROTECTED (decide (w.length < 3))
  let s := s.put Reg.RDO_LINK_STATUS_MIN_PERIOD_US (if w.length = 1 then 160 else 100)
  let slow := s.get Reg.TBS_STATUS_PERIOD_NOW < 16000 ∧ !s.flag Reg.RDO_CTRL_SINGLE_LANE_SLOW
  if w.isEmpty ∨ (w.length = 1 ∧ slow) then (s.put Reg.RDO_STATUS_LINK_LOST 1).put Reg.RDO_STATUS_LINK_SINGLE 0
  else (s.put Reg.RDO_STATUS_LINK_LOST 0).putFlag Reg.RDO_STATUS_LINK_SINGLE (decide (w.length = 1))

/-- What a READOUT reset leaves absent is told as where a lane fails (Table 3-10, R89): LINK_UNPROTECTED, LINK_SINGLE or LINK_LOST, each as it
comes to hold. -/
def State.tellRoles (s : State) (before : State) : State :=
  let newly := fun (f : Field) => s.flag f && !before.flag f
  let s := if newly Reg.RDO_STATUS_LINK_UNPROTECTED then s.emit 0x0107 0 0 else s
  if newly Reg.RDO_STATUS_LINK_LOST then s.emit 0x0109 0 s.time.line
  else if newly Reg.RDO_STATUS_LINK_SINGLE then
    s.emit 0x0108 (s.get Reg.RDO_LINK_STATUS_DATA0_LANE) (Nat.max (s.get Reg.TBS_STATUS_PERIOD_NOW) 16000)
  else s

def State.setLane (s : State) (n : Nat) (l : LinkLane) : State := { s with rdo := { s.rdo with lanes := s.rdo.lanes.set n l } }
def State.linkLane (s : State) (n : Nat) : LinkLane := s.rdo.lanes.getD n LinkLane.reset

/-- LINK_UP: at least one lane carries frames (Table 3-12). -/
def State.linkUpdate (s : State) : State := s.putFlag Reg.RDO_STATUS_LINK_UP (s.rdo.lanes.any (fun l => l.lock))

/-- BLOCK_LOCK_LOST (R88); a lane being retrained only starts its count anew (R92). -/
def execBlockLockLost (lane : Nat) (s : State) : Host.Outcome State Fault Refusal :=
  if 4 ≤ lane then .fault .noSuchPart
  else .next (
    let t := (s.setLane lane { s.linkLane lane with lock := false, good := 0 }).linkUpdate
    if (s.linkLane lane).retraining then t else t.failLane lane)

/-- BLOCK_LOCK_GAINED (R92): a lane being retrained gains block lock, and its count of good idle frames starts. -/
def execBlockLockGained (lane : Nat) (s : State) : Host.Outcome State Fault Refusal :=
  if 4 ≤ lane then .fault .noSuchPart
  else .next (if (s.linkLane lane).retraining then
      (s.setLane lane { s.linkLane lane with lock := true, good := 0, recent := [] }).linkUpdate
    else s)

/-! ### Reference averages (R73–R75, R81) -/

def furrowKey (g f : Nat) : Nat := 65 * g + f

def State.refOf (s : State) (k : Nat) : FurrowRef := (Map.find s.rdo.refs k).getD ⟨[], [], 0, none⟩
def State.setRef (s : State) (k : Nat) (r : FurrowRef) : State := { s with rdo := { s.rdo with refs := Map.insert s.rdo.refs k r } }

/-- The mean of the last 32 codes at a level, rounded half to even; none while there are none (log entry 22). -/
def refMean (l : List Nat) : Option Int :=
  if l.isEmpty then none else some (rhe ((l.foldl (· + ·) 0 : Nat) : Int) (l.length : Int))

/-- The codes of the level that a line's reference slot converts: low in even lines (R73). -/
def FurrowRef.at (r : FurrowRef) (odd : Bool) : List Nat := if odd then r.hi else r.lo

/-- A code enters the averages of its level (R73). -/
def FurrowRef.push (r : FurrowRef) (odd : Bool) (c : Nat) : FurrowRef :=
  if odd then { r with hi := (c :: r.hi).take 32 } else { r with lo := (c :: r.lo).take 32 }

/-- LO and SPAN of a furrow (R73). -/
def FurrowRef.loMean (r : FurrowRef) : Int := (refMean r.lo).getD 0
def FurrowRef.span (r : FurrowRef) : Int := (refMean r.hi).getD 0 - r.loMean

/-- A failing line: the first of a run keeps LO and SPAN as they stand (R77); none of its codes enters the averages (R74). -/
def FurrowRef.fail (r : FurrowRef) : FurrowRef :=
  { r with fails := r.fails + 1, held := if r.held.isNone then some (r.loMean, r.span) else r.held }

/-- A passing line: its code enters the averages, and a furrow that is not declared failed forgets what it held. -/
def FurrowRef.pass (r : FurrowRef) (odd : Bool) (c : Nat) (declared : Bool) : FurrowRef :=
  { r.push odd c with fails := 0, held := if declared then r.held else none }

/-- LO and SPAN of a failed furrow as they stood before its first failing line; of a furrow with none, as they stand (R77). -/
def FurrowRef.scale (r : FurrowRef) : Int × Int := r.held.getD (r.loMean, r.span)

def State.spareInUse (s : State) (g : Nat) : Bool := s.flag (Reg.RDO_GROUP_SPARE_IN_USE g)
def State.substOf (s : State) (g : Nat) : Nat := s.get (Reg.RDO_GROUP_SUBST g)

/-- Whether the spare of a group reads the column of furrow f. -/
def State.sparedFurrow (s : State) (g f : Nat) : Bool := s.spareInUse g && decide (s.substOf g = f)

/-- The furrow that a group's spare replaces in the line whose frames arrive: frames of a line may arrive after the next has begun (R28). -/
def State.frameSub (s : State) (g : Nat) : Option Nat :=
  if s.rdo.input.line < s.time.line then (s.rdo.oldSub.find? (fun e => e.1 = g)).map (fun e => e.2)
  else if s.spareInUse g then some (s.substOf g) else none

/-- Whether the spare of a group reads the column of furrow f in that line. -/
def State.frameSpared (s : State) (g f : Nat) : Bool := decide (s.frameSub g = some f)

/-- A furrow or spare is declared failed (R75, R81); during averaging its column is discarded (R79). -/
def State.declareFurrow (s : State) (g f : Nat) : State :=
  let s := { s with rdo := { s.rdo with declared := furrowKey g f :: s.rdo.declared } }
  if f = 64 then { s with rdo := { s.rdo with spareDead := g :: s.rdo.spareDead } }
  else
    let p := 64 * g + f
    let w := Reg.RDO_FAILMAP_FAILED (p / 32)
    let s := (s.put w (setBit (s.get w) (p % 32) true)).bump (Reg.RDO_GROUP_FAILED_COUNT g) 1
    let s := s.emit 0x0102 (furrowKey g f) p
    if s.averaging then ({ s with cal := { s.cal with dropped := p :: s.cal.dropped } }).requestShutter else s

/-- REFERENCE_CHECK (R74, R75) of one furrow or spare in slot 0: none stands for a lost frame. -/
def State.checkRef (s : State) (line g f : Nat) (code : Option Nat) : State :=
  let k := furrowKey g f
  let r := s.refOf k
  let odd := decide (line % 2 = 1)
  let bad : Bool := match code with
    | none => true
    | some c => decide (c = 65535) || (match refMean (r.at odd) with
      | none => false
      | some a => decide ((s.get Reg.RDO_REF_TOL_TOL : Int) < ((c : Int) - a).natAbs))
  let s := s.setRef k (if bad then r.fail else r.pass odd (code.getD 0) (decide (k ∈ s.rdo.declared)))
  let s := if bad then { s with rdo := { s.rdo with failing := k :: s.rdo.failing } } else s
  let s : State := match code with
    | some c => s.trimRef line k c
    | none => s
  if bad && decide (s.get Reg.RDO_REF_TOL_FAIL_LINES ≤ r.fails) && decide (k ∉ s.rdo.declared) then s.declareFurrow g f else s

/-- Whether a column is unspared in the line (R75, R76, R81). -/
def State.unspared (s : State) (g f : Nat) : Bool :=
  let bad := fun (k : Nat) => decide (k ∈ s.rdo.failing) || decide (k ∈ s.rdo.declared)
  if s.frameSpared g f then bad (furrowKey g 64) else bad (furrowKey g f)

/-- The runs of adjacent unspared image columns (first column, length), in column order. -/
def unsparedRuns : List Bool → Nat → Nat → List (Nat × Nat)
  | [], c, n => if n = 0 then [] else [(c - n, n)]
  | b :: bs, c, n => if b then unsparedRuns bs (c + 1) (n + 1)
    else if n = 0 then unsparedRuns bs (c + 1) 0 else (c - n, n) :: unsparedRuns bs (c + 1) 0

/-- What RDO_STATUS says of the unspared columns of the line, once every group of slot 0 has been checked (R84, Table 3-12). -/
def State.unsparedStatus (s : State) : State :=
  let cols := (List.range 4160).map (fun p => s.unspared (p / 64) (p % 64))
  let img := (cols.drop 32).take 4096
  let s := (s.putFlag Reg.RDO_STATUS_UNSPARED (cols.any id)).putSat Reg.RDO_STATUS_UNSPARED_COLS (img.filter id).length
  match (unsparedRuns img 0 0).find? (fun r => decide (4 < r.2)) with
  | none => s.put Reg.RDO_STATUS_BLIND_SPAN 0
  | some r => if s.flag Reg.RDO_STATUS_BLIND_SPAN then s else (s.put Reg.RDO_STATUS_BLIND_SPAN 1).emit 0x0104 r.1 r.2

/-! ### Spares at the line boundary (R76–R82) -/

/-- The spare takes a furrow's column (R76, R82), and a shutter event is requested (R78). -/
def State.substitute (s : State) (g f : Nat) : State :=
  let s := ((s.put (Reg.RDO_GROUP_SUBST g) f).put (Reg.RDO_GROUP_SPARE_IN_USE g) 1).put Reg.RDO_STATUS_SPARED 1
  (s.emit 0x0103 (furrowKey g f) (64 * g + f)).requestShutter

/-- The spare returns to idle and the furrow to its column (R82): its declaration ends, so that R75 applies to it again (DEDUCED,
log entry 23). -/
def State.restoreFurrow (s : State) (g f : Nat) : State :=
  if !s.sparedFurrow g f then s
  else
    let k := furrowKey g f
    let p := 64 * g + f
    let w := Reg.RDO_FAILMAP_FAILED (p / 32)
    let s := if k ∈ s.rdo.declared then
        { (s.put w (setBit (s.get w) (p % 32) false)).put (Reg.RDO_GROUP_FAILED_COUNT g)
            (s.get (Reg.RDO_GROUP_FAILED_COUNT g) - 1) with
          rdo := { s.rdo with declared := s.rdo.declared.filter (fun j => j != k) } }
      else s
    let s := (s.setRef k { s.refOf k with fails := 0, held := none }).put (Reg.RDO_GROUP_SPARE_IN_USE g) 0
    s.putFlag Reg.RDO_STATUS_SPARED ((List.range 65).any s.spareInUse)

/-- The lowest declared furrow of a group that no spare reads. -/
def State.needsSpare (s : State) (g : Nat) : Option Nat :=
  (List.range 64).find? (fun f => decide (furrowKey g f ∈ s.rdo.declared) && !s.sparedFurrow g f)

/-- One group at a line boundary: a waiting substitute command, else a declared furrow under AUTO_SPARE; a furrow that finds no
spare degrades its class (R76, R80, Table 18-3). -/
def State.spareGroup (s : State) (g : Nat) : State :=
  let idle := !s.spareInUse g && !s.flag (Reg.RDO_GROUP_SPARE_FAILED g)
  match (s.rdo.spareNow.find? (fun e => e.1 = g)) with
  | some e => if idle then s.substitute g e.2 else s
  | none => match s.needsSpare g with
    | none => s
    | some f => if idle then (if s.flag Reg.RDO_CTRL_AUTO_SPARE then s.substitute g f else s) else s.degrade 0

/-- Spares at a line boundary. -/
def State.spareBoundary (s : State) : State :=
  let s := s.rdo.spareDead.foldl (fun t g => t.put (Reg.RDO_GROUP_SPARE_FAILED g) 1) s
  let s := s.rdo.restoreNow.foldl (fun t e => t.restoreFurrow e.1 e.2) s
  let s := if s.rdo.declared.isEmpty && s.rdo.spareNow.isEmpty then s else (List.range 65).foldl State.spareGroup s
  { s with rdo := { s.rdo with spareDead := [], restoreNow := [], spareNow := [] } }

/-- The line that ends keeps its substitutions and lane roles for its last frames (R28). -/
def State.keepFrames (s : State) : State :=
  { s with rdo := { s.rdo with
      oldSub := ((List.range 65).filter s.spareInUse).map (fun g => (g, s.substOf g)), oldRoles := (List.range 4).map s.laneRole } }

/-- Substitute in RDO_CMD (R82). -/
def State.hostSubstitute (s : State) (g f : Nat) : Option State :=
  allow (decide (g ≤ 64 ∧ f ≤ 63) && !s.spareInUse g && !s.flag (Reg.RDO_GROUP_SPARE_FAILED g))
    { s with rdo := { s.rdo with spareNow := s.rdo.spareNow ++ [(g, f)] } }

/-- FURROW_SUBSTITUTE (R82); writes to the RDO bank are REFUSED in start-up step 7 (R54). -/
def State.rdoOpen (s : State) : Bool := decide (s.get Reg.CFG_PHASE_PHASE ≠ 4)

def execFurrowSubstitute (group furrow : Nat) (s : State) : Host.Outcome State Fault Refusal :=
  .next (s.host Reg.RDO_CMD (if s.rdoOpen then s.hostSubstitute group furrow else none))

/-- Restore in RDO_CMD (R82): a GROUP above 64 is out of the range of its field (R483). -/
def State.hostRestore (s : State) (g f : Nat) : Option State :=
  allow (decide (g ≤ 64 ∧ f ≤ 63)) { s with rdo := { s.rdo with restoreNow := s.rdo.restoreNow ++ [(g, f)] } }

/-- FURROW_RESTORE (R82). -/
def execFurrowRestore (group furrow : Nat) (s : State) : Host.Outcome State Fault Refusal :=
  .next (s.host Reg.RDO_CMD (if s.rdoOpen then s.hostRestore group furrow else none))

/-- CLR_COUNTERS in RDO_CMD (Table 3-16). -/
def State.clearRdo (s : State) : State := (s.setWord Reg.RDO_LINK_ERR 0).setWord Reg.RDO_SAT_COUNT 0

/-- RDO_CLR_COUNTERS (R68). -/
def execRdoClrCounters (s : State) : Host.Outcome State Fault Refusal :=
  .next (s.host Reg.RDO_CMD (allow s.rdoOpen s.clearRdo))

/-- A write to RDO_BIAS: REFUSED while admission is active and outside 1,500 to 3,500 mV (R65). -/
def State.hostBias (s : State) (value : Nat) : Option State :=
  allow (s.rdoOpen && !s.admitting && decide (1500 ≤ value % 4096 ∧ value % 4096 ≤ 3500))
    ({ s with rdo := { s.rdo with biasMv := value % 4096 } }.put Reg.RDO_BIAS_BIAS_MV value)

/-- BIAS_WRITE (R65). -/
def execBiasWrite (value : Nat) (s : State) : Host.Outcome State Fault Refusal :=
  .next (s.host Reg.RDO_BIAS (s.hostBias value))

/-! ### Row codes (R67, R68, R77, R85, R94) -/

/-- The equalised code of a substituting spare (R77); a spare without a SPAN has no stated result (log entry 5). -/
def equalise (raw : Nat) (f sp : FurrowRef) (free : Nat) : Nat :=
  if raw = 65535 then 65535
  else if sp.span = 0 then free % 65535
  else (clampI 0 65534 (rheQ (((raw : Int) - sp.loMean) * f.scale.2 / (sp.span : Rat) + (f.scale.1 : Rat)))).toNat

/-- A lost code in `rawCodes`. -/
def lostCode : Nat := 65536

/-- Flags that read-out attaches to a code (Table 4-2). -/
def readFlags (code : Option Nat) (spare : Bool) : Nat :=
  (match code with
   | none => 8
   | some c => if c = 65535 then 1 else 0) + (if spare then 2 else 0)

/-- The code and pixel of one column of a row group. -/
def State.rowPixel (s : State) (line row g : Nat) (codes : List (Option Nat)) (f : Nat) : Pixel :=
  let spared := s.frameSpared g f
  let code := if spared then (codes.getD 64 none).map (fun c => equalise c (s.refOf (furrowKey g f)) (s.refOf (furrowKey g 64)) s.drawn.toNat)
    else codes.getD f none
  { line := line, row := row, col := 64 * g + f, raw := code.getD 0, flags := readFlags code spared,
    out := code.isNone || s.unspared g f, tries := [], tried := [], exact := none }

/-- The headland codes of a group that count for the mean (R94), and how many of its headland furrows pass their check (R85). -/
def State.headCodes (s : State) (bank row g : Nat) (px : List Pixel) : List Nat × Nat :=
  let head := px.filter (fun p => !isImage p.col)
  let pass := head.filter (fun p => !s.unspared g (p.col % 64))
  ((pass.filter (fun p => !p.out && decide (p.raw ≠ 65535) && !s.deadAt (pixelAddr bank row p.col))).map (fun p => p.raw), pass.length)

/-- The headland mean of a row slot, once its group 64 is in (R85, R94): h and whether every pixel of the row carries INTERP. -/
def State.headMean (s : State) (row : Nat) : Nat × Bool :=
  let n := s.rdo.headNow.length
  if 0 < n then ((rhe (256 * ((s.rdo.headNow.foldl (· + ·) 0 : Nat) : Int)) (n : Int)).toNat, false)
  else match Map.find s.rdo.heads row with
    | some h => (h, true)
    | none => (256 * s.get Reg.CAL_TRIM_TARGET_CODE_TARGET, true)

/-- HEADLAND_THIN: once as a row comes to hold fewer than 16 headland furrows that pass (R85). -/
def State.headThin (s : State) (row : Nat) : State :=
  if s.rdo.headPass < 16 then
    if row ∈ s.rdo.thin then s
    else ({ s with rdo := { s.rdo with thin := row :: s.rdo.thin } }).emit 0x0105 row s.rdo.headPass
  else { s with rdo := { s.rdo with thin := s.rdo.thin.filter (fun r => r != row) } }

/-- The row slot is complete: its headland mean is held for its row. -/
def State.closeRow (s : State) (line row : Nat) : State :=
  let m := s.headMean row
  let s := s.headThin row
  { s with
    rdo := { s.rdo with heads := if m.2 then s.rdo.heads else Map.insert s.rdo.heads row m.1 }
    cor := { s.cor with rows := s.cor.rows ++ [{ line := line, row := row, h := some m, got := 0, px := [] }] } }

/-- Pixels enter the issue buffer while it has room, in their order (R108; log entry 79). -/
def CorState.queue (c : CorState) (px : List Pixel) : CorState :=
  let room := if c.waiting.isEmpty then 32768 - c.buffer.length else 0
  { c with buffer := c.buffer ++ px.take room, waiting := c.waiting ++ px.drop room }

/-- One complete group of a row slot: its codes enter the issue buffer, the spare's averages and the counts. -/
def State.rowGroup (s : State) (line slot g : Nat) (codes : List (Option Nat)) : State :=
  let row := slot - 1
  let bank := ((findEnv s.cor.env line).map (fun e => e.bank)).getD s.activeBank
  let sk := furrowKey g 64
  let s := match codes.getD 64 none with
    | some c => if (s.frameSub g).isSome || decide (sk ∈ s.rdo.failing) || decide (c = 65535) then s
      else s.setRef sk ((s.refOf sk).push (decide ((line + slot) % 2 = 1)) c)
    | none => s
  let px := (List.range 64).map (s.rowPixel line row g codes)
  let sats := ((codes.take 64).filter (fun c => c = some 65535)).length + (if (s.frameSub g).isSome ∧ codes.getD 64 none = some 65535 then 1 else 0)
  let s := s.bump Reg.RDO_SAT_COUNT_COUNT sats
  let head := s.headCodes bank row g px
  let first := decide (g = 0)
  let s := { (if (s.frameSub g).isSome then s.draw else s) with
    rdo := { s.rdo with
      headNow := (if first then [] else s.rdo.headNow) ++ head.1
      headPass := (if first then 0 else s.rdo.headPass) + head.2 }
    cor := s.cor.queue px }
  let s := (List.range 64).foldl (fun t f => match codes.getD f none with
    | some c => t.trimRow line (furrowKey g f) c
    | none => t) s
  if g = 64 then s.closeRow line row else s

/-- One complete group of slot 0: every furrow and the spare are checked. -/
def State.refGroup (s : State) (line g : Nat) (codes : List (Option Nat)) : State :=
  let s := { s with rdo := { s.rdo with failing := s.rdo.failing.filter (fun k => k / 65 != g) } }
  let s := (List.range 65).foldl (fun t f => t.checkRef line g f (codes.getD f none)) s
  if g = 64 then s.unsparedStatus else s

/-- The raw codes of the slot for the raw-row stream, mode 0: the link codes of the physical columns before equalisation (R326). -/
def State.rawGroup (s : State) (line slot g : Nat) (codes : List (Option Nat)) : State :=
  let link := (List.range 64).map (fun f => (codes.getD (if s.frameSpared g f then 64 else f) none).getD lostCode)
  let all := (if g = 0 then [] else s.rdo.rawCodes) ++ link
  let s := { s with rdo := { s.rdo with rawCodes := all } }
  if g = 64 ∧ s.flag (Reg.ETH_S_CTRL_EN 1) ∧ s.get (Reg.ETH_S_CTRL_RAW_MODE 1) = 0 then
    { s with rdo := { s.rdo with rawReady := s.rdo.rawReady ++
      [(line, slot, if lostCode ∈ all ∨ all.length ≠ 4160 then none else some all)] } }
  else s

/-! ### Group frames (R86–R91) -/

/-- The header fields of a group frame (Table 3-9). -/
def frameGroup (f : LinkFrame) : Nat := (f.bits.extractLsb' 569 7).toNat
def frameSlot (f : LinkFrame) : Nat := (f.bits.extractLsb' 564 5).toNat
def frameLine (f : LinkFrame) : Nat := (f.bits.extractLsb' 560 4).toNat

/-- The data field of a group frame: 33 codes in furrow order, each most significant bit first (R86, Table 3-9). -/
def frameData (f : LinkFrame) : List Nat := (List.range 33).map (fun i => (f.bits.extractLsb' (544 - 16 * i) 16).toNat)

/-- Whether the CRC-32C of a group frame passes: over its header and data field, most significant byte first (R86; log entry 77). -/
def frameCrcOk (f : LinkFrame) : Bool :=
  decide (crc32c ((List.range 68).map (fun i => f.bits.extractLsb' (568 - 8 * i) 8)) = f.bits.extractLsb' 0 32)

/-- The codes of a group: DATA0 holds furrows 0 to 32, DATA1 furrows 33 to 63 and the spare (Table 3-9). -/
def groupCodes (d0 d1 : Option (List Nat)) : List (Option Nat) :=
  let part := fun (d : Option (List Nat)) (n : Nat) => (List.range n).map (fun i => d.map (fun l => l.getD i 0))
  part d0 33 ++ part d1 32

/-- The XOR of two data fields. -/
def xorCodes (a b : List Nat) : List Nat := List.zipWith (fun x y => Nat.xor x y) a b

/-- Rebuild one data field from the other and parity (R87). -/
def rebuildFrom (d other par : Option (List Nat)) : Option (List Nat) :=
  match d with
  | some x => some x
  | none => match other, par with
    | some a, some b => some (xorCodes a b)
    | _, _ => none

/-- The next group expected: after group 64 the next slot, after slot 24 the next line. -/
def GroupInput.advance (i : GroupInput) : GroupInput :=
  if i.group < 64 then ⟨i.line, i.slot, i.group + 1, none, none, none⟩
  else if i.slot < 24 then ⟨i.line, i.slot + 1, 0, none, none, none⟩
  else ⟨i.line + 1, 0, 0, none, none, none⟩

/-- Every frame of the group has been received or is known to be bad: the group enters read-out, rebuilt where it can be (R87,
R90). -/
def State.finishGroup (s : State) : State :=
  let i := s.rdo.input
  let par := (i.par.getD none)
  let a := i.d0.getD none
  let b := i.d1.getD none
  let d0 := rebuildFrom a b par
  let d1 := rebuildFrom b a par
  let rebuilt := (if a.isNone && d0.isSome then 1 else 0) + (if b.isNone && d1.isSome then 1 else 0)
  let lost := (if d0.isNone then 1 else 0) + (if d1.isNone then 1 else 0)
  let s := (s.bump Reg.RDO_LINK_ERR_REBUILT rebuilt).bump Reg.RDO_LINK_ERR_LOST lost
  let codes := groupCodes d0 d1
  let s := s.rawGroup i.line i.slot i.group codes
  let s := if i.slot = 0 then s.refGroup i.line i.group codes else s.rowGroup i.line i.slot i.group codes
  { s with rdo := { s.rdo with input := s.rdo.input.advance } }

/-- The roles of the four lanes in the line whose frames arrive (R28, R88). -/
def State.frameRoles (s : State) : List (Option Nat) :=
  if s.rdo.input.line < s.time.line then s.rdo.oldRoles else (List.range 4).map s.laneRole

/-- Whether every frame of the group is in. -/
def State.groupComplete (s : State) : Bool :=
  let i := s.rdo.input
  i.d0.isSome && i.d1.isSome && (i.par.isSome || decide (some 2 ∉ s.frameRoles))

/-- Whether a frame is bad (R87): not arrived, CRC, or a header other than the expected one (idle frames have none). -/
def State.frameBad (s : State) (f : LinkFrame) (idle : Bool) : Bool :=
  let i := s.rdo.input
  !f.arrived || !frameCrcOk f || (!idle && decide (frameGroup f ≠ i.group ∨ frameSlot f ≠ i.slot ∨ frameLine f ≠ i.line % 16))

/-- Enter a frame in its lane's last 16; four bad ones fail the lane (R88). -/
def State.noteFrame (s : State) (n : Nat) (bad : Bool) : State :=
  let l := s.linkLane n
  let recent := (bad :: l.recent).take 16
  let s := s.setLane n { l with recent := recent }
  if 4 ≤ (recent.filter id).length then s.failLane n else s

/-- The frame of a role enters the group. -/
def State.takeFrame (s : State) (role : Nat) (d : Option (List Nat)) : State :=
  let i := s.rdo.input
  let i :=
    if role = 2 then { i with par := some d }
    else if role = 1 ∨ (some 1 ∉ s.frameRoles ∧ i.d0.isSome) then { i with d1 := some d }
    else { i with d0 := some d }
  let s := { s with rdo := { s.rdo with input := i } }
  if s.groupComplete then s.finishGroup else s

/-- A frame of a lane that a READOUT reset retrains: 1,024 consecutive good idle frames make it work again (R92). -/
def State.retrainFrame (s : State) (n : Nat) (f : LinkFrame) : State :=
  let l := s.linkLane n
  let good := if f.arrived && frameCrcOk f then l.good + 1 else 0
  if 1024 ≤ good then
    (s.setLane n { l with good := 0, recent := [], retraining := false }).put Reg.RDO_LINK_STATUS_FAILED
      (setBit (s.get Reg.RDO_LINK_STATUS_FAILED) n false)
  else s.setLane n { l with good := good }

/-- GROUP_FRAME_RECEIVED (R87, R90): one frame on a lane, or its absence; on a lane without block lock no frame arrives (R88). From a
READOUT reset to the boundary at which lines resume, frames only retrain lanes (R92). -/
def State.groupFrame (s : State) (n : Nat) (f : LinkFrame) : State :=
  let l := s.linkLane n
  let f := { f with arrived := f.arrived && l.lock }
  if l.retraining then (if l.lock then s.retrainFrame n f else s)
  else if s.resetting 0 ∨ s.rdo.waitLines then s
  else match s.frameRoles.getD n none with
    | none => s
    | some role =>
      let bad := s.frameBad f (decide (role = 3))
      let s := s.noteFrame n bad
      if role = 3 then s else s.takeFrame role (if bad then none else some (frameData f))

/-- GROUP_FRAME_RECEIVED (R87). -/
def execGroupFrameReceived (lane : Nat) (f : LinkFrame) (s : State) : Host.Outcome State Fault Refusal :=
  if 4 ≤ lane then .fault .noSuchPart else .next (if s.time.lines then s.groupFrame lane f else s)

/-! ### Thermometers (R71, R72) -/

def State.therm (s : State) (k : Nat) : Therm := s.rdo.therms.getD k ⟨none, none⟩
def State.setTherm (s : State) (k : Nat) (t : Therm) : State := { s with rdo := { s.rdo with therms := s.rdo.therms.set k t } }
def State.thermFailed (s : State) (k : Nat) : Bool := bit (s.get Reg.RDO_THERM_STATUS_FAILED) k
def State.thermStale (s : State) (k : Nat) : Bool := bit (s.get Reg.RDO_THERM_STATUS_STALE) k

/-- The readings in effect of the healthy thermometers. -/
def State.healthyReadings (s : State) : List (Option Int) :=
  (List.range 8).map (fun k => if s.thermFailed k then none else (s.therm k).inEffect)

/-- A thermometer is marked failed (R72): 1 range, 2 median, 3 stale. One that had failed only by staleness then stays failed. -/
def State.failTherm (s : State) (k why : Nat) : State :=
  if s.thermFailed k ∧ (why = 3 ∨ !s.thermStale k) then s
  else
    let s := s.put Reg.RDO_THERM_STATUS_FAILED (setBit (s.get Reg.RDO_THERM_STATUS_FAILED) k true)
    let s := s.put Reg.RDO_THERM_STATUS_STALE (setBit (s.get Reg.RDO_THERM_STATUS_STALE) k (decide (why = 3)))
    s.emit 0x0101 k why

/-- Whether a reading lies more than 2.0 K from the median of a list (R72). -/
def offMedian (t : Int) (l : List Int) : Bool :=
  let med := medianSorted (sortAsc l)
  decide (2000000 < (t : Rat) - med ∨ 2000000 < med - (t : Rat))

/-- A new reading of a thermometer (R71, R72). -/
def State.thermReading (s : State) (k : Nat) (t : Int) : State :=
  let s := if s.thermStale k then
      (s.put Reg.RDO_THERM_STATUS_FAILED (setBit (s.get Reg.RDO_THERM_STATUS_FAILED) k false)).put Reg.RDO_THERM_STATUS_STALE
        (setBit (s.get Reg.RDO_THERM_STATUS_STALE) k false)
    else s
  let s := (s.setTherm k { s.therm k with latest := some t }).arm (Timer.thermStale k) (msTicks 1000)
  let others := (List.range 8).filterMap (fun j => if j = k ∨ s.thermFailed j then none else (s.therm j).inEffect)
  if t < -40000000 ∨ 125000000 < t then s.failTherm k 1
  else if offMedian t (t :: others) then s.failTherm k 2
  else s

/-- THERM_STALE (R72). -/
def execThermStale (k : Nat) (s : State) : Host.Outcome State Fault Refusal :=
  if 8 ≤ k then .fault .noSuchPart
  else .next (match s.fire (Timer.thermStale k) with
    | none => s
    | some s => s.failTherm k 3)

/-- New readings take effect at a line boundary (R71), and every healthy thermometer is held against the median that is then in effect (R72; log
entry 76). -/
def State.thermBoundary (s : State) : State :=
  let s := { s with rdo := { s.rdo with therms := s.rdo.therms.map (fun t => { t with inEffect := t.latest }) } }
  let now := s.healthyReadings
  (List.range 8).foldl (fun t k => match now.getD k none with
    | some r => if offMedian r (now.filterMap id) then t.failTherm k 2 else t
    | none => t) s

end Sys2Proof.Machine
end

