-- ==== Sys2Proof/Machine/Correct.lean ====
section
/-!
DEFINITION. Per-pixel correction (spec/04_pixel_correction.md): the stages, the lanes with residue checking and the spare, the
release of corrected rows, the coefficient store's access and swaps, and what is fixed for a line at its boundary.
-/
namespace Sys2Proof.Machine

/-! ### Stages 1 to 5 (R94–R100) -/

/-- Stage 5: the table of a copy at y (R99). -/
def State.radiometric (s : State) (e : LineEnv) (y : Int) : Int × Nat :=
  let step : Int := 2 ^ e.stepLog
  if y < e.base then (s.tableEntry e.table 0, Pf.range)
  else if e.base + 1023 * step ≤ y then (s.tableEntry e.table 1023, Pf.range)
  else
    let i := ((y - e.base) / step).toNat
    let frac := (y - e.base) % step
    let a := s.tableEntry e.table i
    let b := s.tableEntry e.table (i + 1)
    (rhe (a * step + (b - a) * frac) step, 0)

/-- Stages 1 to 5 of a pixel (R94, R95, R98, R99): its stage-1 value u, its scene temperature, and its flag word (R100). -/
def State.correctPixel (s : State) (e : LineEnv) (p : Pixel) (h : Nat) (interp : Bool) : RowPixel :=
  let a := pixelAddr e.bank p.row p.col
  let raw : Int := if p.raw = 65535 then 65534 else p.raw
  let u := 256 * raw - h
  let dts := columnDts e.dts p.col
  let o := s.memS a
  let g : Int := s.memU (a + 4)
  let ko := s.memS (a + 8)
  let kg := s.memS (a + 12)
  let kq := s.memS (a + 16)
  let d := s.memS (a + 20)
  let v := rhe ((u - o - d) * 10 ^ 12 - ko * dts * 10 ^ 6 - kq * dts * dts) (10 ^ 12)
  let x := rhe (g * satS32 v * (256 * 10 ^ 12 + kg * dts)) (65536 * 256 * 256 * 10 ^ 12)
  let y := satS32 x + e.tflag
  let r := s.radiometric e (satS32 y)
  let clamp := if clipsS32 v || clipsS32 x || clipsS32 y then Pf.clamp else 0
  { value := r.1, u := u, out := p.out, tau := s.memH (a + 24), unres := false,
    flags := s.storedFlags a ||| p.flags ||| clamp ||| r.2 ||| (if e.lost then Pf.substrate else 0) |||
      (if interp then Pf.interp else 0) }

/-! ### Release of a row: stage 6, lag inversion, history (R83, R101, R93) -/

/-- The nearest good column below and above, from the list of (column, value, flags) of good columns in order. -/
def nearestBelow : List (Nat × Int × Nat) → Nat → Option (Nat × Int × Nat) → Option (Nat × Int × Nat)
  | [], _, best => best
  | g :: gs, c, best => if g.1 < c then nearestBelow gs c (some g) else best

def nearestAbove : List (Nat × Int × Nat) → Nat → Option (Nat × Int × Nat)
  | [], _ => none
  | g :: gs, c => if c < g.1 then some g else nearestAbove gs c

/-- The replacement of an image pixel along its row (R83), with the union of the flags it was computed from. -/
def interpolate (good : List (Nat × Int × Nat)) (c : Nat) : Option (Int × Nat) :=
  match nearestBelow good c none, nearestAbove good c with
  | some a, some b => some (rheQ ((a.2.1 : Rat) + ((b.2.1 - a.2.1 : Int) : Rat) * ((c - a.1 : Nat) : Rat) / ((b.1 - a.1 : Nat) : Rat)), a.2.2 ||| b.2.2)
  | some a, none => some a.2
  | none, some b => some b.2
  | none, none => none

/-- The stage-6 value of an image column: its own, or the replacement of R83 and R101; a row without a good column takes the
values of the line before (R83). -/
def State.stage6 (s : State) (e : LineEnv) (row : Nat) (good : List (Nat × Int × Nat)) (c : Nat) (p : RowPixel) : Int × Nat :=
  if !p.out && !anyFlag p.flags Pf.dead then (p.value, p.flags)
  else match interpolate good c with
    | some r => (r.1, r.2 ||| p.flags ||| Pf.interp)
    | none =>
      let prev := if e.line = s.walk.histFrom then (0, 0) else s.lagPrev row c
      (prev.1, prev.2 ||| p.flags ||| Pf.interp)

def RowPixel.none : RowPixel := { value := 0, u := 0, flags := Pf.lost, out := true, tau := 0, unres := false }

/-- The stage-6 value of a headland column: its own, or, where no two lanes agreed, the replacement of R83 along the row by physical columns
(R110; log entry 80). -/
def headStage6 (good : List (Nat × Int × Nat)) (p : Nat) (x : RowPixel) : Int × Nat :=
  if !x.unres then (x.value, x.flags)
  else match interpolate good p with
    | some r => (r.1, r.2 ||| x.flags ||| Pf.interp)
    | none => (0, x.flags ||| Pf.interp)

/-- A complete row is released: stage 6, counts, raw-row stream in mode 1, averages, lag inversion and history. -/
def State.releaseRow (s : State) (e : LineEnv) (w : RowWork) : State :=
  let px := fun (p : Nat) => (Map.find w.px p).getD RowPixel.none
  let image := (List.range 4096).map (fun c => (c, px (physOf c)))
  let good := (image.filter (fun x => !x.2.out && !anyFlag x.2.flags Pf.dead)).map (fun x => (x.1, x.2.value, x.2.flags))
  let out := image.map (fun x => (x.1, s.stage6 e w.row good x.1 x.2))
  let all := w.px.map (fun x => x.2.flags)
  let s := (s.bump Reg.COR_CLAMP_COUNT_COUNT (all.filter (fun f => anyFlag f Pf.clamp)).length).bump Reg.COR_RANGE_COUNT_COUNT
    (all.filter (fun f => anyFlag f Pf.range)).length
  let phys := ((List.range 4160).filter (fun p => !(px p).out && !anyFlag (px p).flags Pf.dead)).map (fun p => (p, (px p).value, (px p).flags))
  let stage6 := fun (p : Nat) => if isImage p then ((out.getD (p - 32) (0, 0, 0)).2) else headStage6 phys p (px p)
  let s := if s.flag (Reg.ETH_S_CTRL_EN 1) ∧ s.get (Reg.ETH_S_CTRL_RAW_MODE 1) = 1 then
      { s with rdo := { s.rdo with rawReady := s.rdo.rawReady ++
        [(w.line, w.row + 1, some ((List.range 4160).map (fun p => t16 (stage6 p).1)))] } }
    else s
  let s := s.averageRow e ((List.range 4160).map (fun p => (w.row * 4160 + p, (px p).u,
    anyFlag (stage6 p).2 (Pf.sat + Pf.lost + Pf.interp + Pf.clamp))))
  let s := s.viewRow w.row (out.map (fun x => x.2))
  let s := out.foldl (fun t x => t.walkPixel e w.row x.1 (px (physOf x.1)).tau x.2.1 x.2.2) s
  let s := if w.row = 0 then s.watchRow0 w.line else s
  if w.row = 23 then { s with walk := { s.walk with lineDone := w.line :: s.walk.lineDone } } else s

/-- Enter a result in its row, and release the row when it is the oldest and complete (R108: release is in issue order). -/
def State.enterResult (s : State) (p : Pixel) (r : RowPixel) : State :=
  let rows := s.cor.rows.map (fun w => if w.line = p.line ∧ w.row = p.row then
    { w with got := w.got + 1, px := Map.insert w.px p.col r } else w)
  let s := { s with cor := { s.cor with rows := rows } }
  match rows with
  | [] => s
  | w :: rest =>
    if w.got < 4160 then s
    else match findEnv s.cor.env w.line with
      | none => { s with cor := { s.cor with rows := rest } }
      | some e => ({ s with cor := { s.cor with rows := rest } }).releaseRow e w

/-! ### Lanes (R108–R113) -/

def State.corLane (s : State) (n : Nat) : Option Pixel := s.cor.lanes.getD n none
def State.setCorLane (s : State) (n : Nat) (p : Option Pixel) : State := { s with cor := { s.cor with lanes := s.cor.lanes.set n p } }

/-- The lane that recomputes a pixel: the free spare, else another free working lane that has not held it (R110). -/
def State.recomputeLane (s : State) (p : Pixel) : Option Nat :=
  let sp := s.get Reg.COR_LANE_MAP_SPARE_LANE
  if s.flag Reg.COR_STATUS_SPARE_FREE ∧ (s.corLane sp).isNone ∧ sp ∉ p.tried then some sp
  else s.workingLanes.find? (fun n => (s.corLane n).isNone && decide (n ∉ p.tried))

/-- The next free working lane in turn (R108). -/
def State.nextLane (s : State) : Option Nat :=
  let w := s.workingLanes.filter (fun n => (s.corLane n).isNone)
  match w.find? (fun n => decide (s.cor.lastLane < n)) with
  | some n => some n
  | none => w.head?

/-- Whether the headland mean of a pixel's row slot is held (R108). -/
def State.rowHeld (s : State) (p : Pixel) : Bool := s.cor.rows.any (fun w => decide (w.line = p.line ∧ w.row = p.row) && w.h.isSome)

/-- Whether pixels of line n or an earlier one are still to be issued, for the first time or again, or may still come over the link. -/
def State.lineOpen (s : State) (n : Nat) : Bool :=
  (s.cor.again ++ s.cor.buffer ++ s.cor.waiting).any (fun p => decide (p.line ≤ n)) ||
    (decide (s.rdo.input.line ≤ n) && !s.linkLostNow && !s.rdo.waitLines && !s.resetting 0)

/-- Whether the middle flag line of the running event has passed and its solve has not ended (R165). -/
def State.pastMiddle (s : State) : Bool :=
  s.flag Reg.CAL_STATUS_RUNNING && s.cal.solved.isNone && (match s.cal.flagLines with
    | some (a, n) => decide (a + n / 2 < s.time.line)
    | none => false)

/-- A solve past its middle flag line keeps what it uses of pixel records that gleaning changes (R165). -/
def State.keepOlds (s : State) (ws : List (Nat × Int × Bool)) : State :=
  let olds := ws.map (fun w =>
    let a := bankBase s.activeBank + 32 * w.1
    (w.1, s.memS (a + 20), s.storedFlags a))
  if s.pastMiddle then { s with cal := { s.cal with frozen := s.cal.frozen ++ olds } } else s

/-- The gleaned updates of D whose boundary has come enter the active bank, after the last pixel of the line before it has been issued and
before the first of its own (R107, R167): pixel index, D, and whether D is at its limit. -/
def State.writeGleaned (s : State) : State :=
  if s.cal.due.isEmpty ∨ s.lineOpen (s.cal.dueLine - 1) then s
  else
    let todo := s.cal.due
    let s := { s with cal := { s.cal with due := [] } }
    todo.foldl (fun t w =>
      let a := bankBase t.activeBank + 32 * w.1
      let t := (t.putBytes (a + 20) (sBytes w.2.1)).bump Reg.CAL_GLEAN_UPDATES_COUNT 1
      if w.2.2 ∧ !bit (t.storedFlags a) 7 then
        let t := (t.setByte (a + 26) (BitVec.ofNat 8 (t.storedFlags a + 128))).bump Reg.CAL_DRIFT_LIMITED_PIXELS 1
        if t.flag Reg.CAL_CTRL_DL_REQ ∧ t.cal.silentUntil ≤ t.time.ticks then t.requestShutter else t
      else t) (s.keepOlds todo)

/-- A swap is complete once the last pixel of the old line has been issued (R105); gleaned updates are written then (R107). -/
def State.swapProgress (s : State) : State :=
  let s := match s.cor.swapLine with
    | some n => if s.lineOpen n then s else { s.put Reg.COR_STATUS_SWAP_PENDING 0 with cor := { s.cor with swapLine := none } }
    | none => s
  let s := match s.cor.tableLine with
    | some n => if s.lineOpen n then s else { s.put Reg.COR_STATUS_TABLE_SWAP_PENDING 0 with cor := { s.cor with tableLine := none } }
    | none => s
  s.writeGleaned

/-- What a lane without a fault makes of a pixel, at its first issue: its row's headland mean and its line's coefficients (R28, R108). -/
def State.readyPixel (s : State) (p : Pixel) : Pixel :=
  match p.exact, findEnv s.cor.env p.line, s.cor.rows.find? (fun w => w.line = p.line ∧ w.row = p.row) with
  | none, some e, some w =>
    let h := w.h.getD (0, true)
    { p with exact := some (s.correctPixel e p h.1 h.2) }
  | _, _, _ => p

/-- A pixel has left the issue buffer: the first that waits takes its room. -/
def State.refill (s : State) (rest : List Pixel) : State :=
  { s with cor := { s.cor with buffer := rest ++ s.cor.waiting.take (32768 - rest.length), waiting := s.cor.waiting.drop (32768 - rest.length) } }

/-- PIXEL_ISSUE (R108): a pixel to recompute goes first; else the head of the issue buffer, once its row's headland mean is held. -/
def State.issuePixel (s : State) : State :=
  if s.resetting 1 then s else
  let fresh := match s.cor.buffer, s.nextLane with
    | p :: rest, some n => if s.rowHeld p then
        (({ s.refill rest with cor := { (s.refill rest).cor with lastLane := n } }).setCorLane n (some (s.readyPixel p))).swapProgress
      else s
    | _, _ => s
  match s.cor.again with
  | [] => fresh
  | p :: rest => match s.recomputeLane p with
    | some n => (({ s with cor := { s.cor with again := rest } }).setCorLane n (some (s.readyPixel p))).swapProgress
    | none => fresh

/-- PIXEL_ISSUE (R108). -/
def execPixelIssue (s : State) : Host.Outcome State Fault Refusal := .next s.issuePixel

/-- The minimum line period of L working lanes (R112). -/
def corMinPeriod (l : Nat) : Nat := ceilDiv 80000 l

/-- COR_LANES_SHORT (R112, R113): the minimum of l lanes; a shorter line period is lengthened to it at the next boundary, which FSLOW_N, SLOWED
and the event tell at once. -/
def State.lanesShort (s : State) (l : Nat) : State :=
  let s := s.put Reg.COR_MIN_PERIOD_MIN_PERIOD (corMinPeriod l)
  if s.get Reg.TBS_STATUS_PERIOD_NOW < corMinPeriod l then
    ((s.put Reg.COR_STATUS_SLOWED 1).put Reg.PWR_STATUS_FSLOW 1).emit 0x0203 l (corMinPeriod l)
  else s

/-- COR_LANE_FAILED (R111, R113): the spare becomes working, or one lane fewer works. -/
def State.failCorLane (s : State) (n why : Nat) : State :=
  if s.laneFailed n then s
  else
    let spare := s.flag Reg.COR_STATUS_SPARE_FREE
    let s := ((s.put Reg.COR_LANE_MAP_FAILED (setBit (s.get Reg.COR_LANE_MAP_FAILED) n true)).emit 0x0202 n why).setDomain n 0
    if spare then s.put Reg.COR_STATUS_SPARE_FREE 0
    else
      let l := s.get Reg.COR_STATUS_LANES_WORKING - 1
      let s := s.put Reg.COR_STATUS_LANES_WORKING l
      (if 0 < l then s.lanesShort l else s).degrade 1

/-- RESIDUE_MISMATCH (R110, R111): count it, and declare the lane failed at the limit of the line. -/
def State.countMismatch (s : State) (n : Nat) : State :=
  let s := (s.bump Reg.COR_MISMATCH_COUNT 1).bump (Reg.COR_LANE_MISMATCHES n) 1
  let miss := s.cor.lineMiss.getD n 0 + 1
  let s := { s with cor := { s.cor with lineMiss := s.cor.lineMiss.set n miss } }
  if s.get Reg.COR_CTRL_MISMATCH_LIMIT ≤ miss then s.failCorLane n 1 else s

/-- What becomes of a result (R110): a value to use, another try, or no agreement. -/
inductive Verdict where
  | use (v : Int)
  | again (tries : List Int)
  | unresolved
  deriving DecidableEq, Repr

def judgeResult (tries : List Int) (v : Int) (mismatch : Bool) : Verdict :=
  match tries with
  | [] => if mismatch then .again [v] else .use v
  | [a] => if !mismatch && decide (a = v) then .use v else .again [a, v]
  | a :: b :: _ => if v = a ∨ v = b then .use v else if a = b then .use a else .unresolved

/-- LANE_RESULT (R109, R110): the result of the pixel a lane holds; `err` is what a fault adds to the exact value. -/
def State.laneResult (s : State) (n transit : Nat) (mismatch : Bool) (err : Int) : State :=
  match s.corLane n with
  | none => s
  | some p =>
    let s := s.setCorLane n none
    let s := if s.get Reg.COR_LATENCY_MAX_TRANSIT_NS < transit then s.putSat Reg.COR_LATENCY_MAX_TRANSIT_NS transit else s
    match p.exact with
    | some r =>
      let s := if mismatch then s.countMismatch n else s
      match judgeResult p.tries (r.value + err) mismatch with
      | .use v => s.enterResult p { r with value := v }
      | .again tries => { s with cor := { s.cor with again := s.cor.again ++ [{ p with tries := tries, tried := n :: p.tried }] } }
      | .unresolved => (s.bump Reg.COR_UNRESOLVED_COUNT 1).enterResult p { r with out := true, unres := true }
    | none => s

/-- LINE_LATE follows the completion of a line, measured from the boundary that followed it (Table 4-15). -/
def State.lineLate (s : State) (before : List Nat) : State :=
  match s.walk.lineDone with
  | n :: _ => if n ∉ before ∧ s.time.line = n + 1 then
      let late := s.time.ticks - s.time.lineTick
      if s.get Reg.COR_LATENCY_MAX_LINE_LATE < late then s.putSat Reg.COR_LATENCY_MAX_LINE_LATE late else s
    else s
  | [] => s

/-- LANE_RESULT (R109), w ticks after the command before it. -/
def execLaneResult (lane w transit : Nat) (mismatch : Bool) (err : Int) (s : State) : Host.Outcome State Fault Refusal :=
  if 9 ≤ lane then .fault .noSuchPart
  else .next (((s.elapse w).laneResult lane transit mismatch err).lineLate s.walk.lineDone)

/-- LANE_STALL (R111): the lane is declared failed, and its pixel is recomputed. -/
def execLaneStall (lane : Nat) (s : State) : Host.Outcome State Fault Refusal :=
  if 9 ≤ lane then .fault .noSuchPart
  else .next (match s.corLane lane with
    | none => s
    | some p => ({ s with cor := { s.cor with again := s.cor.again ++ [{ p with tried := lane :: p.tried }] } }.setCorLane lane
        none).failCorLane lane 2)

/-- CLR_COUNTERS in COR_CMD (Table 4-11). -/
def State.clearCor (s : State) : State :=
  let s := [Reg.COR_MISMATCH, Reg.COR_UNRESOLVED, Reg.COR_CLAMP_COUNT, Reg.COR_RANGE_COUNT, Reg.COR_LATENCY_MAX].foldl
    (fun t a => t.setWord a 0) s
  (List.range 9).foldl (fun t n => t.put (Reg.COR_LANE_MISMATCHES n) 0) (s.put Reg.COR_HEADROOM_MIN_PCT 0x7F)

/-- COR_CLR_COUNTERS (R110). -/
def execCorClrCounters (s : State) : Host.Outcome State Fault Refusal := .next (s.host Reg.COR_CMD (some s.clearCor))

/-! ### The coefficient store: access and swaps (R104–R107) -/

/-- BANK_SWAP in COR_CMD: REFUSED while a sequence owns the standby bank or a swap is pending (R105). -/
def State.hostBankSwap (s : State) : Option State :=
  allow (!s.flag Reg.CAL_STATUS_OWN_STANDBY && !s.flag Reg.COR_STATUS_SWAP_PENDING) (s.put Reg.COR_STATUS_SWAP_PENDING 1)

/-- BANK_SWAP (R105). -/
def execBankSwap (s : State) : Host.Outcome State Fault Refusal := .next (s.host Reg.COR_CMD s.hostBankSwap)

/-- TABLE_SWAP in COR_CMD: REFUSED while a table swap is pending (R106). -/
def State.hostTableSwap (s : State) : Option State :=
  allow (!s.flag Reg.COR_STATUS_TABLE_SWAP_PENDING) (s.put Reg.COR_STATUS_TABLE_SWAP_PENDING 1)

/-- TABLE_SWAP (R106). -/
def execTableSwap (s : State) : Host.Outcome State Fault Refusal := .next (s.host Reg.COR_CMD s.hostTableSwap)

/-- The parts of the coefficient store (Table 4-4): a bank, a table copy, or reserved. -/
inductive StorePart where
  | bank (b off : Nat)
  | table (t : Nat)
  | reserved
  deriving DecidableEq, Repr

def storePart (a : Nat) : StorePart :=
  let o := a - 0x01000000
  if o < 0x7F0000 ∧ o % 0x400000 < 0x30C040 then .bank (o / 0x400000) (o % 0x400000)
  else if 0x7F0000 ≤ o ∧ o < 0x7F2000 then .table ((o - 0x7F0000) / 0x1000)
  else .reserved

/-- Note which TS_REF words have been written (R103). -/
def State.noteHeader (s : State) (b off : Nat) : State :=
  let h := off - 0x30C000
  if 0x30C008 ≤ off ∧ h < 0x28 then { s with cor := { s.cor with refSet := s.cor.refSet.set b ((s.cor.refSet.getD b []).set ((h - 8) / 4) true) } }
  else s

/-- A word of a bank: the flags half of a pixel record keeps bits [7:4] only, reserved words stay zero (Tables 4-5, 4-6). -/
def bankWord (off : Nat) (w : Word) : Option Word :=
  if off < 0x30C000 then
    if off % 32 = 24 then some (w &&& 0x00F0FFFF) else if off % 32 = 28 then none else some w
  else if off - 0x30C000 < 0x30 then some w else none

/-- One word written to a bank: REFUSED for the active one, one that the calibration owns, and while a swap waits. -/
def State.storeBank (s : State) (a b off : Nat) (w : Word) : Option State :=
  if b = s.activeBank ∨ s.flag Reg.CAL_STATUS_OWN_STANDBY ∨ s.flag Reg.COR_STATUS_SWAP_PENDING then none
  else match bankWord off w with
    | some w => some ((s.setMemWord a w).noteHeader b off)
    | none => some s

/-- One word written to a table copy: REFUSED for the active one, while the calibration owns the standby bank, and while a swap waits. -/
def State.storeTable (s : State) (a t : Nat) (w : Word) : Option State :=
  if t = s.activeTable ∨ s.flag Reg.CAL_STATUS_OWN_STANDBY ∨ s.flag Reg.COR_STATUS_TABLE_SWAP_PENDING then none else some (s.setMemWord a w)

/-- One word written to a part of the coefficient store. -/
def State.storePartWord (s : State) (a : Nat) (w : Word) : StorePart → Option State
  | .bank b off => s.storeBank a b off w
  | .table t => s.storeTable a t w
  | .reserved => some s

/-- One word written to the coefficient-store window (R104). -/
def State.hostStoreWord (s : State) (a : Nat) (w : Word) : Option State := s.storePartWord a w (storePart a)

/-- COEFFICIENT_WINDOW_WRITE (R104). -/
def execCoefficientWindowWrite (addr : Nat) (words : List (BitVec 32)) (s : State) : Host.Outcome State Fault Refusal :=
  .next (if 0x01000000 ≤ addr ∧ addr < 0x01800000 then s.hostFrame addr State.hostStoreWord words else s)

/-! ### The line boundary (R28, R96, R97, R103, R105–R107) -/

/-- The requested swaps apply at the boundary that begins line n (SWAP_TAKE_EFFECT); whether a bank swap applied. -/
def State.applySwaps (s : State) : State × Bool :=
  let n := s.time.line - 1
  let bank := s.flag Reg.COR_STATUS_SWAP_PENDING && s.cor.swapLine.isNone
  let s := if bank then { s.put Reg.COR_STATUS_ACTIVE_BANK s.standbyBank with cor := { s.cor with swapLine := some n } } else s
  let table := s.flag Reg.COR_STATUS_TABLE_SWAP_PENDING && s.cor.tableLine.isNone
  let s := if table then { s.put Reg.COR_STATUS_ACTIVE_TABLE (1 - s.activeTable) with cor := { s.cor with tableLine := some n } }
    else s
  (s, bank)

/-- The first reading of header word k (TFLAG, TPLATE, TS_REF0 to 7) enters the active bank, and the standby bank unless a sequence owns it;
later readings enter neither (R103). -/
def State.firstHeader (s : State) (k : Nat) (v : Int) : State :=
  let off := 0x30C000 + 4 * k
  let one := fun (t : State) (b : Nat) => (t.putBytes (bankBase b + off) (sBytes v)).noteHeader b off
  if s.cor.firstDone.getD k true then s
  else
    let s := one { s with cor := { s.cor with firstDone := s.cor.firstDone.set k true } } s.activeBank
    if s.flag Reg.CAL_STATUS_OWN_STANDBY then s else one s s.standbyBank

/-- First readings enter the bank headers at the boundary at which they take effect (R103). -/
def State.firstReadings (s : State) : State :=
  let s := match s.cal.flagNow with
    | some v => s.firstHeader 0 v
    | none => s
  let s := match s.cal.plateNow with
    | some v => s.firstHeader 1 v
    | none => s
  (List.range 8).foldl (fun t k => match (t.therm k).inEffect with
    | some v => if t.thermFailed k then t else t.firstHeader (2 + k) v
    | none => t) s

/-- SUBSTRATE_UPDATE (R96, R97): the thermometer differences of the line, held while no thermometer is healthy. -/
def State.substrate (s : State) : State :=
  let b := s.activeBank
  let set := s.cor.refSet.getD b []
  let ref := fun (k : Nat) => s.memS (headerAddr b + 8 + 4 * k)
  let now := s.healthyReadings
  if !set.any id then { s with cor := { s.cor with held := List.replicate 8 none } }
  else if now.all (fun t => t.isNone) then
    if s.flag Reg.COR_STATUS_SUBSTRATE_LOST then s
    else (s.put Reg.COR_STATUS_SUBSTRATE_LOST 1).emit 0x0201 0 s.time.line
  else
    let d := (List.range 8).map (fun k => if set.getD k false then (now.getD k none).map (fun t => satS32 (t - ref k)) else none)
    let s := { s.put Reg.COR_STATUS_SUBSTRATE_LOST 0 with cor := { s.cor with held := d } }
    (List.range 8).foldl (fun t k => match d.getD k none with
      | some x => t.putS (Reg.COR_DTS_DTS k) x
      | none => t) s

/-- The gleaned updates of D that wait for this boundary become due, or are discarded when a bank swap applies there (R107). -/
def State.applyGleaned (s : State) (swapped : Bool) : State :=
  { s with cal := { s.cal with
      writes := [], due := if swapped then [] else s.cal.due ++ s.cal.writes, dueLine := s.time.line } }

/-- The weight of a row (Table 5-11). -/
def State.rowWeight (s : State) (r : Nat) : Nat := s.get ⟨Reg.COR_ROW_WT (r / 8), 4 * (r % 8), 4⟩

/-- What is fixed for the line that begins (R28). -/
def State.lineEnv (s : State) (lagOff : Bool) : LineEnv :=
  { line := s.time.line, bank := s.activeBank, table := s.activeTable, base := s.getS Reg.COR_RAD_BASE_BASE,
    stepLog := s.get Reg.COR_RAD_STEP_STEP_LOG2, dts := s.cor.held, lost := s.flag Reg.COR_STATUS_SUBSTRATE_LOST,
    lagOff := lagOff, depth := s.walk.inUse.1, lagPeriod := s.walk.inUse.2, start := s.time.dev, inc := s.tickInc,
    period := s.get Reg.TBS_STATUS_PERIOD_NOW, nu := s.walk.nu, clamped := s.flag Reg.COR_WALK_STATUS_VEL_CLAMPED,
    plate := s.cal.plateNow, therms := s.healthyReadings, tflag := s.memS (headerAddr s.activeBank),
    weights := (List.range 24).map s.rowWeight }

end Sys2Proof.Machine
end

