-- ==== Sys2Proof/Machine/Walk.lean ====
section
/-!
DEFINITION. Row-walk accumulation (spec/05_lag_and_row_walk.md R120, R124–R131, R139–R143): the walk in device time, field lines
and their ring, the walk speed and the lag gain table at the line boundary.
-/
namespace Sys2Proof.Machine

/-! ### The walk (R64, R126–R128) -/

/-- The start of a slot after its line boundary, in ticks (R62). -/
def slotStart (period k : Nat) : Nat := (rhe ((k * period : Nat) : Int) 25).toNat

/-- The integration centre of row r in a line, in device time (ns, exact) (R64). -/
def LineEnv.centre (e : LineEnv) (r : Nat) : Rat :=
  ((e.start + (slotStart e.period (1 + r) + 190) * e.inc : Nat) : Rat) / (2 ^ 32 : Nat)

/-- The latest line whose centre of row r is not after τ, from environments newest first. -/
def latestLine (r : Nat) (tau : Rat) : List LineEnv → Option LineEnv
  | [] => none
  | e :: es => if e.centre r ≤ tau then some e else latestLine r tau es

/-- The line m and φ of R126 for a row, a target time and the environments of the lines in reach. -/
def route (envs : List LineEnv) (r : Nat) (tau : Rat) : Option (Nat × Nat) :=
  match latestLine r tau envs with
  | none => none
  | some e =>
    if tau = e.centre r then some (e.line, 0)
    else match findEnv envs (e.line + 1) with
      | none => none
      | some f =>
        let phi := (rheQ (65536 * (tau - e.centre r) / (f.centre r - e.centre r))).toNat
        if phi = 65536 then some (e.line + 1, 0) else some (e.line, phi)

/-- The target time of row r in field line n at a walk speed in rows per µs (R126). -/
def target (e : LineEnv) (r : Nat) (nu : Rat) : Rat := e.centre 23 - ((23 - r : Nat) : Rat) * 1000 / nu

/-- The environments of the lines that the history holds for field line n: 48 lines, none before the last discontinuity. -/
def State.reachEnvs (s : State) (n : Nat) : List LineEnv :=
  s.cor.env.filter (fun e => decide (s.walk.histFrom ≤ e.line ∧ e.line ≤ n ∧ n < e.line + 48))

/-- Where each row of field line n looks at a walk speed: none for a row out of reach. -/
def State.routes (s : State) (n : Nat) (nu : Rat) : List (Option (Nat × Nat)) :=
  match findEnv s.cor.env n with
  | none => List.replicate 24 none
  | some e => (List.range 24).map (fun r => route (s.reachEnvs n) r (target e r nu))

/-- The value of a row at a route (R126), with the flags of the samples it uses. -/
def State.rowValue (s : State) (r c : Nat) : Option (Nat × Nat) → Option (Int × Nat)
  | none => none
  | some (m, phi) => match s.sample m r c with
    | none => none
    | some k0 =>
      if phi = 0 then some k0
      else match s.sample (m + 1) r c with
        | none => none
        | some k1 => some (rhe (k0.1 * 65536 + (k1.1 - k0.1) * phi) 65536, k0.2 ||| k1.2)

/-- The rows that a line's weights name (R127). -/
def LineEnv.named (e : LineEnv) : List Nat := (List.range 24).filter (fun r => decide (0 < e.weights.getD r 0))

/-- The weighted mean over the contributing rows (R127): value, rows, and whether fewer rows contribute than have a weight. -/
def State.walkMean (s : State) (e : LineEnv) (rs : List (Option (Nat × Nat))) (c : Nat) : Option Int × Nat × Bool :=
  let named := e.named
  let got := named.filterMap (fun r => (s.rowValue r c (rs.getD r none)).map (fun v => ((e.weights.getD r 0 : Int), v.1)))
  let w := sumI (got.map (fun x => x.1))
  (if got.isEmpty then none else some (rhe (sumI (got.map (fun x => x.1 * x.2))) w), got.length, decide (got.length < named.length))

/-- The lines whose samples of row r are routed to field line n under the walk speed of each sample's line (R128). -/
def State.routedLines (s : State) (n r : Nat) : List Nat :=
  match findEnv s.cor.env n with
  | none => []
  | some e =>
    let envs := s.reachEnvs n
    (envs.filter (fun m => match route envs r (target e r m.nu) with
      | some (k, phi) => decide (m.line = k ∨ phi ≠ 0 ∧ m.line = k + 1)
      | none => false)).map (fun m => m.line)

/-- The flag accumulator of a field pixel (R128), from the routed lines of each row. -/
def State.routedFlags (s : State) (lines : List (List Nat)) (c : Nat) : Nat :=
  (List.range 24).foldl (fun acc r => (lines.getD r []).foldl (fun a m => match s.sample m r c with
    | some v => a ||| v.2
    | none => a) acc) 0

def State.ringEntry (s : State) (n c : Nat) : Option FieldPixel :=
  if n ∈ s.walk.formed then Map.find s.walk.ring (n * 4096 + c) else none

/-- One field pixel (R127, R128). -/
def State.fieldPixel (s : State) (e : LineEnv) (rs : List (Option (Nat × Nat))) (lines : List (List Nat)) (c : Nat) : FieldPixel :=
  let m := s.walkMean e rs c
  let f := s.routedFlags lines c ||| (if e.clamped then Pf.velClamp else 0)
  match m.1 with
  | some v => { value := v, rows := m.2.1, flags := if m.2.2 then f ||| Pf.rowsShort else f, bg := Map.find s.trk.bg c }
  | none =>
    let v := match if e.line = 0 then none else s.ringEntry (e.line - 1) c with
      | some p => p.value
      | none => (Map.find s.trk.bg c).getD 0
    { value := v, rows := 0, flags := f ||| Pf.rowsShort ||| Pf.interp, bg := Map.find s.trk.bg c }

/-- Nominal walk forms field line n (R125–R130): the ring keeps the last 64 field lines, the history 48 lines. -/
def State.formField (s : State) (n : Nat) : State :=
  match findEnv s.cor.env n with
  | none => s
  | some e =>
    let rs := s.routes n e.nu
    let lines := (List.range 24).map (s.routedLines n)
    let px := (List.range 4096).map (fun c => (n * 4096 + c, s.fieldPixel e rs lines c))
    let left := (s.walk.formed.filter (fun m => decide (m + 64 ≤ n ∧ s.eth.lineNext ≤ m))).length
    let s := if s.flag (Reg.ETH_S_CTRL_EN 0) then s.bump Reg.ETH_LOSS_LINE_LOST left else s
    { s with walk := { s.walk with
        ring := (Map.keep (fun k => decide (n < k / 4096 + 64)) s.walk.ring) ++ px
        hist := Map.keep (fun k => decide (n < k / 98304 + 48)) s.walk.hist
        formed := n :: s.walk.formed.filter (fun m => decide (n < m + 64))
        nextField := n + 1 } }

/-! ### Speed and gain table at the line boundary (R120, R125, R131, R139, R140) -/

/-- The period in force in µs. -/
def State.periodUs (s : State) : Rat := (s.get Reg.TBS_STATUS_PERIOD_NOW : Rat) / 100

/-- Rows in reach at an effective velocity (R131). -/
def rowsReach (v : Rat) : Nat := ((List.range 24).filter (fun r => decide (((23 - r : Nat) : Rat) * (1 / v - 1 / 25) ≤ 47))).length

/-- The walk speed in use after a boundary (R125, R139): ν limited to 0.25 to 4.00 rows per line period. -/
def State.useSpeed (s : State) : State :=
  let v := s.walk.nu * s.periodUs
  let u := max (1 / 4) (min 4 v)
  ((s.putSat Reg.COR_WALK_STATUS_EFF_VEL (rheQ (u * 256)).toNat).putFlag Reg.COR_WALK_STATUS_VEL_CLAMPED (decide (u ≠ v))).put
    Reg.COR_WALK_STATUS_ROWS_REACH (rowsReach u)

/-- The speed in use, in rows per µs. -/
def State.speedInUse (s : State) : Rat := max (1 / 4) (min 4 (s.walk.nu * s.periodUs)) / s.periodUs

/-- The correction set transfers (R106, R120, R125): NOM_VEL sets ν from the period in force. -/
def State.transferCor (s : State) : State :=
  if s.resetting 1 then s else
  let vel := s.shadow.any (fun x => decide (x.1 = Reg.COR_WALK_VEL))
  let s := s.transfer inSetCor
  if vel then { s with walk := { s.walk with nu := (s.get Reg.COR_WALK_VEL_NOM_VEL : Rat) / (256 * s.periodUs) } } else s

/-- The table that depth and period in force call for. -/
def State.tableWanted (s : State) : Nat × Nat := (s.get Reg.COR_LAG_DEPTH_DEPTH, s.get Reg.TBS_STATUS_PERIOD_NOW)

/-- The lag gain table at a boundary: a complete one comes into use; a depth that has just transferred is built, after the current build if
one runs (R120); a change of period builds or rebuilds for the latest period (R140). -/
def State.lagTable (s : State) (written : Bool) : State :=
  let s := match s.walk.built with
    | some t => { s with walk := { s.walk with inUse := t, built := none } }
    | none => s
  let want := s.tableWanted
  let w := s.walk
  let w := match w.building with
    | none => if written ∨ want.2 ≠ w.inUse.2 then { w with building := some want } else w
    | some b => if b.2 ≠ want.2 then { w with building := some want, wanted := none }
      else if written then { w with wanted := some want } else w
  ({ s with walk := w }.put Reg.COR_LAG_DEPTH_IN_USE w.inUse.1).putFlag Reg.COR_WALK_STATUS_LAG_TABLE_BUSY w.building.isSome

/-- LAG_TABLE_BUILT (R120, R140): a later wish starts the next build; else the table waits for the boundary. -/
def execLagTableBuilt (s : State) : Host.Outcome State Fault Refusal :=
  .next (match s.walk.building with
    | none => s
    | some b => { s with walk := match s.walk.wanted with
        | some x => { s.walk with building := some x, wanted := none }
        | none => { s.walk with building := none, built := some b } })

/-- Lag inversion in the line that begins (R118, R140): suspended while the table does not match the period in force. -/
def State.lagLine (s : State) (newBank : Bool) : State × Bool :=
  let off := decide (s.walk.inUse.2 ≠ s.get Reg.TBS_STATUS_PERIOD_NOW)
  let all := off || newBank || decide (s.time.line = s.walk.histFrom)
  let s := s.putFlag Reg.COR_WALK_STATUS_LAG_SUSPENDED off
  (if all ∧ 0 < s.walk.inUse.1 then s.bump Reg.COR_LAG_OFF_LINES_COUNT 1 else s, all)

/-- A boundary event of the line that has begun (a swap at that very boundary, RESUME) suspends lag inversion for the line, and is counted
once (R118, R140). -/
def State.suspendLine (s : State) : State :=
  match s.cor.env with
  | e :: es => if e.line = s.time.line ∧ !e.lagOff then
      { (if 0 < s.walk.inUse.1 then s.bump Reg.COR_LAG_OFF_LINES_COUNT 1 else s) with cor := { s.cor with env := { e with lagOff := true } :: es } }
    else s
  | [] => s

/-- What a boundary fixes for its line in walk and correction, after the period in force is known. -/
def State.beginEnv (s : State) (newBank : Bool) : State :=
  let written := !s.resetting 1 && s.shadow.any (fun x => decide (x.1 = Reg.COR_LAG_DEPTH))
  let s := (s.transferCor.lagTable written).useSpeed
  let r := s.lagLine newBank
  let e := { r.1.lineEnv r.2 with nu := r.1.speedInUse }
  { r.1 with cor := { r.1.cor with env := (e :: r.1.cor.env).take 72, lineMiss := List.replicate 9 0 } }

/-- A history discontinuity at the line that begins (R142, R154): earlier lines are out of reach. -/
def State.discontinuity (s : State) : State := { s with walk := { s.walk with histFrom := s.time.line } }

/-- CLR_COUNTERS in COR_WALK_CMD (Table 5-15). -/
def State.clearWalk (s : State) : State := ((s.setWord Reg.COR_LAG_OFF_LINES 0).setWord Reg.COR_WALK_FILLED 0).setWord Reg.COR_WALK_LATE 0

/-- WALK_CLR_COUNTERS (R140). -/
def execWalkClrCounters (s : State) : Host.Outcome State Fault Refusal := .next (s.host Reg.COR_WALK_CMD (some s.clearWalk))

end Sys2Proof.Machine
end

