-- ==== Sys2Proof/Machine/Sheaves.lean ====
section
/-!
DEFINITION. The sheaf store and the sheaf image memory (spec/07_sheaf_tracking.md R197–R205): free slots and blocks, entries as
the window shows them (Tables 7-7, 8-8, 9-3), thumbnails (R292–R294), and the end of a sheaf.
-/
namespace Sys2Proof.Machine

/-- Device time in ns, as a signed number. -/
def State.nowI (s : State) : Int := (s.now : Int)

/-! ### A free slot or block (log entry 24: which one is taken is a free value) -/

/-- The k-th natural that an ascending list leaves out. -/
def kthFree (used : List Nat) (k : Nat) : Nat := used.foldl (fun n u => if u ≤ n then n + 1 else n) k

/-- Some number below a capacity that an ascending list leaves out, chosen by a free value. -/
def pickFree (cap : Nat) (used : List Nat) (d : Word) : Option Nat :=
  if used.length < cap then some (kthFree used (d.toNat % (cap - used.length))) else none

/-- Insertion into an ascending list of naturals without repeats. -/
def insertNat (x : Nat) : List Nat → List Nat
  | [] => [x]
  | y :: ys => if x < y then x :: y :: ys else if x = y then y :: ys else y :: insertNat x ys

/-! ### Slots -/

/-- The sheaf of a slot, unless the slot is FREE. -/
def State.sheaf (s : State) (slot : Nat) : Option Sheaf := (Map.find s.trk.sheaves slot).filter (fun x => decide (x.state ≠ 0))

/-- Put a slot's entry. -/
def State.putSheaf (s : State) (x : Sheaf) : State := { s with trk := { s.trk with sheaves := Map.insert s.trk.sheaves x.slot x } }

/-- Change the entry of a live slot. -/
def State.onSheaf (s : State) (slot : Nat) (f : Sheaf → Sheaf) : State :=
  match s.sheaf slot with
  | some x => s.putSheaf (f x)
  | none => s

/-- The live slots, ascending. -/
def State.liveSlots (s : State) : List Nat := (s.trk.sheaves.filter (fun e => decide (e.2.state ≠ 0))).map (fun e => e.1)

/-- The live sheaves in order of their sequence number. -/
def State.bySeq (s : State) : List Sheaf :=
  (s.trk.sheaves.filter (fun e => decide (e.2.state ≠ 0))).foldr
    (fun e l => (l.takeWhile (fun y => decide (y.seq < e.2.seq))) ++ e.2 :: l.dropWhile (fun y => decide (y.seq < e.2.seq))) []

/-- Free image blocks. -/
def State.freeBlocks (s : State) : Nat := 20480 - s.trk.usedBlocks.length

/-- LIVE, FREE_BLOCKS and their extremes (Table 7-15). -/
def State.liveUpdate (s : State) : State :=
  let n := s.liveSlots.length
  let f := s.freeBlocks
  let s := (s.put Reg.TRK_LIVE_LIVE n).put Reg.TRK_LIVE_FREE_BLOCKS f
  let s := if s.get Reg.TRK_PEAK_PEAK_LIVE < n then s.put Reg.TRK_PEAK_PEAK_LIVE n else s
  if f < s.get Reg.TRK_PEAK_MIN_FREE then s.put Reg.TRK_PEAK_MIN_FREE f else s

/-! ### The admission bucket (R191) -/

/-- Tokens gained up to now, at the rate in force since the last reckoning, up to BURST. Reckoned before a rate, BURST or the number
of working engines changes, and at each candidate. -/
def State.accrue (s : State) : State :=
  let rate := Nat.min (s.get Reg.TRK_ADMIT_ADMIT_RATE) (6250 * s.get Reg.AST_STATUS_WORKING)
  let t := s.trk.tokens + (rate * (s.now - s.trk.tokenAt) : Nat) / 1000000000
  { s with trk := { s.trk with tokens := min (s.get Reg.TRK_BURST_BURST : Rat) t, tokenAt := s.now } }

/-! ### Tiles (R203, R204) -/

/-- The tile of a box line and an image column, TROW × 32 + TCOL. -/
def Ctx.tile (c : Ctx) (line col : Nat) : Nat := (line - c.openLine) / 30 * 32 + (col - c.winLeft) / 16

/-- Take one free block. -/
def State.takeBlock (s : State) : Option (State × Nat) :=
  match pickFree 20480 s.trk.usedBlocks s.drawn with
  | none => none
  | some b => some ({ s with free := s.free + 1, trk := { s.trk with usedBlocks := insertNat b s.trk.usedBlocks } }, b)

/-- Take a tile of a sheaf; the ninth first takes the directory block. None when the blocks do not suffice (then none is taken). -/
def State.takeTile (s : State) (x : Sheaf) (t : Nat) : Option (State × Sheaf) :=
  if x.tiles.any (fun e => decide (e.1 = t)) then some (s, x)
  else if x.tiles.length = 8 ∧ x.dir = none then
    match s.takeBlock with
    | none => none
    | some (s1, d) => match s1.takeBlock with
      | none => none
      | some (s2, b) => some (s2, { x with dir := some d, tiles := x.tiles ++ [(t, b)] })
  else match s.takeBlock with
    | none => none
    | some (s1, b) => some (s1, { x with tiles := x.tiles ++ [(t, b)] })

/-- Take several tiles in order, all or none. -/
def State.takeTiles (s : State) (x : Sheaf) : List Nat → Option (State × Sheaf)
  | [] => some (s, x)
  | t :: ts => match s.takeTile x t with
    | none => none
    | some (s1, y) => s1.takeTiles y ts

/-- Blocks that new tiles need beyond those held. -/
def Sheaf.blocksFor (x : Sheaf) (ts : List Nat) : Nat :=
  let new := (ts.filter (fun t => !x.tiles.any (fun e => decide (e.1 = t)))).length
  new + (if x.dir = none ∧ 8 < x.tiles.length + new then 1 else 0)

/-- The blocks of a sheaf. -/
def Sheaf.blocks (x : Sheaf) : List Nat := x.dir.toList ++ x.tiles.map (fun e => e.2)

/-! ### Pixels of the image (R203, R215) -/

/-- A key of the image: field line and column. -/
def imgKey (line col : Nat) : Nat := line * 4096 + col

/-- Box pixel (l, k): none outside the box, else value and marker. -/
def Sheaf.pixel (x : Sheaf) (l k : Int) : Option (Int × Bool) :=
  if 0 ≤ l ∧ l < x.lines ∧ 0 ≤ k ∧ k ≤ (x.ctx.right : Int) - x.ctx.left then
    match Map.find x.img (imgKey (x.ctx.openLine + l.toNat) (x.ctx.left + k.toNat)) with
    | some p => some (p.1, p.2.1)
    | none => some (0, true)
  else none

/-- Two's complement in n bytes. -/
def sLe (n : Nat) (v : Int) : List Byte := leBytes n (v % (256 ^ n : Nat)).toNat

/-- Columns of the box. -/
def Sheaf.width (x : Sheaf) : Nat := x.ctx.right - x.ctx.left + 1

/-- Image words met as uncorrectable read as 0 with the marker set, and the sheaf carries IMG_ERR (R205). -/
def Sheaf.imageErrors (x : Sheaf) (l : List (Nat × Nat)) : Sheaf :=
  if l.isEmpty then x
  else { x with ctx := { x.ctx with flags := setBit x.ctx.flags 9 true },
                img := l.foldl (fun m p =>
                  let k := imgKey (x.ctx.openLine + p.1) (x.ctx.left + p.2)
                  Map.insert m k (0, true, ((Map.find m k).map (fun v => v.2.2)).getD 0)) x.img }

/-- The pixels of a sheaf's box. -/
def Sheaf.boxCells (x : Sheaf) : List (Int × Bool × Nat) :=
  (List.range x.lines).flatMap (fun i => (List.range x.width).filterMap (fun k => Map.find x.img (imgKey (x.ctx.openLine + i) (x.ctx.left + k))))

/-- A sheaf after its image has been read (R205): which of its words are met as uncorrectable is free (log entry 5). -/
def State.readImage (s : State) (x : Sheaf) : Sheaf :=
  x.imageErrors ((List.range x.lines).flatMap (fun l => (List.range x.width).filterMap (fun k =>
    if Config.imageBad s.free (x.ctx.openLine + l) (x.ctx.left + k) then some (l, k) else none)))

/-- Byte `off` of the block that holds tile TROW × 32 + TCOL of a sheaf (R203): the header, S16 pixels, marker bits; none for a cell that
nothing was written to. -/
def Sheaf.blockByte (x : Sheaf) (tile off : Nat) : Option Byte :=
  let cell := fun (l k : Nat) => Map.find x.img (imgKey (x.ctx.openLine + 30 * (tile / 32) + l) (x.ctx.winLeft + 16 * (tile % 32) + k))
  if 1024 ≤ off then none
  else if off < 4 then (leBytes 1 (tile / 32) ++ leBytes 1 (tile % 32) ++ leBytes 2 x.slot)[off]?
  else if off < 964 then (cell ((off - 4) / 32) ((off - 4) % 32 / 2)).map (fun p => (sLe 2 p.1).getD (off % 2) 0)
  else
    let l := (off - 964) / 2
    let b := 8 * ((off - 964) % 2)
    if (List.range 8).all (fun k => (cell l (b + k)).isNone) then none
    else some (BitVec.ofNat 8 ((List.range 8).foldl (fun a k => a + (if (cell l (b + k)).any (fun p => p.2.1) then 2 ^ k else 0)) 0))

/-- Byte `off` of the directory block (R204): the block of tile `off / 2`, 0xFFFF for an absent one; the words past entry 287 hold no
tile. -/
def Sheaf.directoryByte (x : Sheaf) (off : Nat) : Option Byte :=
  if 576 ≤ off then none
  else some ((leBytes 2 (((x.tiles.find? (fun e => decide (e.1 = off / 2))).map (fun e => e.2)).getD 0xFFFF)).getD (off % 2) 0)

/-! ### Entries as bytes (Tables 7-7, 8-8, 9-3) -/

/-- INLINE (R204). -/
def Sheaf.inlineBytes (x : Sheaf) : List Byte :=
  (List.range 8).flatMap (fun i => match (if x.dir = none then x.tiles[i]? else none) with
    | some (t, b) => leBytes 2 b ++ leBytes 1 (t / 32) ++ leBytes 1 (t % 32)
    | none => leBytes 2 0xFFFF ++ (if x.dir = none then leBytes 2 0 else leBytes 2 0xFFFF))

/-- One entry of a plan (Table 9-3). -/
def planEntryBytes : Option PlanEntry → List Byte
  | none => leBytes 2 0xFFFF ++ leBytes 22 0
  | some e => leBytes 2 e.valve ++ leBytes 2 e.flags ++ sLe 8 e.gate ++ leBytes 4 (e.delay.getD 0xFFFFFFFF) ++ leBytes 4 e.onAct ++
      leBytes 2 e.lead ++ leBytes 2 (e.move.getD 0xFFFF)

/-- Bytes 0x080 to 0x17F. -/
def Plan.toBytes (p : Plan) : List Byte :=
  sLe 8 p.tView ++ sLe 8 p.tArrive ++ sLe 8 p.tLeave ++ sLe 8 (p.latest.getD (-1)) ++ sLe 4 p.vView ++ leBytes 4 p.onNs ++
  leBytes 2 p.flags ++ leBytes 1 p.entries.length ++ leBytes 1 p.outcome ++ leBytes 8 p.tPlan ++ leBytes 12 0 ++
  (List.range 8).flatMap (fun i => planEntryBytes p.entries[i]?)

/-- VERDICT (Table 8-8). -/
def Sheaf.verdictByte (x : Sheaf) : Nat := x.verdict + 4 * x.disp

/-- The 512 bytes of an entry. -/
def Sheaf.toBytes (x : Sheaf) : List Byte :=
  leBytes 8 x.seq ++ leBytes 8 x.ctx.openLine ++ leBytes 8 x.ctx.openTime ++ leBytes 8 (x.prevSeq.getD (2 ^ 64 - 1)) ++
  leBytes 1 x.state ++ leBytes 1 x.ctx.pol ++ leBytes 2 x.ctx.flags ++ leBytes 4 x.ctx.vel ++ leBytes 4 x.ctx.period ++
  leBytes 2 x.ctx.velRes ++ leBytes 1 x.ctx.velRows ++ leBytes 1 0 ++ leBytes 2 x.ctx.left ++ leBytes 2 x.ctx.right ++
  leBytes 2 x.ctx.winLeft ++ leBytes 2 x.lines ++ leBytes 4 x.area ++ sLe 2 x.peak ++ leBytes 2 x.pixflags ++
  leBytes 2 x.tiles.length ++ leBytes 2 (x.dir.getD 0xFFFF) ++ x.inlineBytes ++ leBytes 4 0 ++
  leBytes 1 ((x.bound.map (fun b => b.slot)).getD 0) ++ leBytes 1 x.engine ++ leBytes 1 x.verdictByte ++ leBytes 1 x.klass ++
  leBytes 1 x.status ++ leBytes 1 x.runs ++ leBytes 2 x.cycles ++ x.feats.flatMap (fun w => leBytes 4 w.toNat) ++
  x.plan.toBytes ++ leBytes 8 x.tSeal ++ leBytes 8 x.tOutcome ++ leBytes 2 x.rflags ++ leBytes 1 x.tstat ++ leBytes 109 0

/-- The entries of a copy (R201): every write goes to both, until a copy is declared failed (R202; log entry 82). -/
def State.copyOf (s : State) (k : Nat) : Map Sheaf := (s.trk.held.getD k none).getD s.trk.sheaves

/-- A byte of the sheaf-store window, of the copy that VIEW_COPY selects (R201); a slot never used reads zero (log entry 4). -/
def State.sheafByte (s : State) (off : Nat) : Byte :=
  match Map.find (s.copyOf (s.get Reg.TRK_CTRL_VIEW_COPY)) (off / 512) with
  | some x => x.toBytes.getD (off % 512) 0
  | none => 0

/-! ### Thumbnails (R292–R294) -/

/-- A thumbnail pixel: value and marker. -/
def Sheaf.thumbPixel (x : Sheaf) (f y k : Nat) : Int × Bool :=
  let ps := (List.range f).flatMap (fun a => (List.range f).filterMap (fun b =>
    match x.pixel ((f * y + a : Nat) : Int) ((f * k + b : Nat) : Int) with
    | some (v, false) => some v
    | _ => none))
  if ps.isEmpty then (0, true) else (rhe (sumI ps) (ps.length : Int), false)

/-- The factor of R293. -/
def Sheaf.thumbFactor (x : Sheaf) : Nat := Nat.max 1 (Nat.max (ceilDiv x.lines 64) (ceilDiv x.width 64))

/-- The 12,288 bytes of a thumbnail (Table 11-5). -/
def Sheaf.thumbnail (x : Sheaf) (tpos : Nat) : List Byte :=
  let f := x.thumbFactor
  let px := (List.range 64).map (fun y => (List.range 64).map (fun k => x.thumbPixel f y k))
  let head := leBytes 4 0x4254524A ++ leBytes 2 1 ++ leBytes 1 f ++ leBytes 1 x.ctx.pol ++ leBytes 8 tpos ++ leBytes 8 x.seq ++
    leBytes 8 x.ctx.openLine ++ leBytes 2 x.ctx.left ++ leBytes 2 x.lines ++ leBytes 2 x.width ++ leBytes 1 x.klass ++
    leBytes 1 x.verdictByte ++ leBytes 20 0
  let body := px.flatMap (fun row => leBytes 8 (row.foldr (fun p a => 2 * a + (if p.2 then 1 else 0)) 0)) ++ List.replicate 3520 0 ++
    px.flatMap (fun row => row.flatMap (fun p => sLe 2 p.1))
  head ++ leBytes 4 (crc32 (head ++ leBytes 4 0 ++ body)).toNat ++ body

/-- A region's data go nowhere: its writes are freed without writing (Table 11-6; log entry 25 for an unused region and ARCH_MODE 0). -/
def State.regionIdle (s : State) (k : Nat) : Bool :=
  s.driveOut || !s.regionUsed k || decide (s.get Reg.NVH_CTRL_ARCH_MODE = 0)

/-- The thumbnail of a sheaf that reaches DONE (R292, R413): TSTAT and the staged write. -/
def State.thumbBuild (s : State) (x : Sheaf) : State × Sheaf :=
  if !bit (s.get Reg.NVH_SELECT_THUMB_SEL) x.verdict then (s, { x with tstat := 0 })
  else
    let d := dropStep s.pwr.thumbAcc (s.stageLevel 3)
    let s := { s with pwr := { s.pwr with thumbAcc := d.1 } }
    if d.2 ∨ 128 ≤ s.slotsUsed 1 then (s.bump Reg.NVH_DROPS_THUMB_DROPPED 1, { x with tstat := 2 })
    else
      let x := s.readImage x
      let s := s.draw
      let tpos := s.nvh.tposNext
      let t := { s with nvh := { s.nvh with tposNext := tpos + 1 } }
      (if s.regionIdle 1 then t else t.queueWrite (s.archiveWrite 1 (s.entryBlock 1 3 tpos) (x.thumbnail tpos)), { x with tstat := 1 })

/-! ### The end of a sheaf -/

/-- DONE (Table 7-6), with the thumbnail. -/
def State.reachDone (s : State) (slot : Nat) : State :=
  match s.sheaf slot with
  | none => s
  | some x =>
    let r := s.thumbBuild { x with state := 6 }
    r.1.putSheaf r.2

/-- FREE: tiles and slot are freed; the entry keeps its last contents but for STATE (log entry 26). -/
def State.freeSheaf (s : State) (slot : Nat) : State :=
  match s.sheaf slot with
  | none => s
  | some x =>
    let us := (rhe ((s.now - x.admitted : Nat) : Int) 1000).toNat
    let s := s.putSheaf { x with state := 0, img := [] }
    let s := { s with trk := { s.trk with usedBlocks := s.trk.usedBlocks.filter (fun b => !x.blocks.contains b) } }
    let s := if s.get Reg.TRK_LIFE_MAX_US < us then s.putSat Reg.TRK_LIFE_MAX_US us else s
    s.liveUpdate

/-- The admissions in the sheaf's state, for QUEUED in AST_QUEUE. -/
def State.queueUpdate (s : State) : State :=
  let n := (s.trk.sheaves.filter (fun e => decide (e.2.state = 3))).length
  let s := s.put Reg.AST_QUEUE_QUEUED n
  if s.get Reg.AST_QUEUE_QUEUE_MAX < n then s.put Reg.AST_QUEUE_QUEUE_MAX n else s

end Sys2Proof.Machine
end

