-- ==== Sys2Proof/Machine/Flight.lean ====
section
/-!
DEFINITION. The flight of an object, valve sets and leads (spec/09_drill_scheduling.md R236–R244).
-/
namespace Sys2Proof.Machine

/-! ### Plan and entry flags (Table 9-4) -/

namespace Pl
def wide : Nat := 0
def truncated : Nat := 1
def noValve : Nat := 2
def noFlight : Nat := 3
def onClamp : Nat := 4
def dflt : Nat := 5
end Pl

namespace Ef
def fired : Nat := 0
def late : Nat := 1
def missed : Nat := 2
def merged : Nat := 3
def deferGroup : Nat := 4
def deferColumn : Nat := 5
def deferEnergy : Nat := 6
def weakPull : Nat := 7
def sharedCol : Nat := 8
def hotHold : Nat := 9
def dipFound : Nat := 10
def leadLimit : Nat := 11
def disabled : Nat := 12
def notArmed : Nat := 13
def closed : Nat := 14
end Ef

/-- The plan of a sheaf before its seal. -/
def Plan.empty : Plan :=
  { tView := 0, tArrive := 0, tLeave := 0, latest := none, vView := 0, onNs := 0, flags := 0, outcome := 0, tPlan := 0,
    noFlight := false, plain := [], plainCut := false, wide := [], wideCut := false, start := 0, lateTol := 0, minOn := 0, entries := [] }

def Plan.setFlag (p : Plan) (k : Nat) (b : Bool) : Plan := { p with flags := if b then setBit p.flags k true else p.flags }
def PlanEntry.mark (e : PlanEntry) (k : Nat) : PlanEntry := { e with flags := setBit e.flags k true }

/-! ### Valve sets (R240, R241) -/

/-- The valve of a column: NONE has none; a column that no image record covers maps to valve c / 4. -/
def State.mapValve (s : State) (c : Nat) : Option Nat :=
  match Map.find s.drl.map c with
  | none => some (c / 4)
  | some e => if bit e 15 then none else some (e % 1024)

/-- The distinct valves of columns a to b, ordered by the first column that maps to each. -/
def State.valvesOf (s : State) (a b : Nat) : List Nat :=
  (List.range (b + 1 - a)).foldl (fun acc i => match s.mapValve (a + i) with
    | some v => if acc.contains v then acc else acc ++ [v]
    | none => acc) []

/-- How many columns left to right a list of valves covers. -/
def State.covers (s : State) (left right : Nat) (vs : List Nat) : Nat :=
  ((List.range (right + 1 - left)).filter (fun i => match s.mapValve (left + i) with
    | some v => vs.contains v
    | none => false)).length

/-- The valve set of columns a to b of an object from left to right, and whether it was cut to MAX_VALVES (R241). -/
def State.valveSet (s : State) (a b left right : Nat) : List Nat × Bool :=
  let all := s.valvesOf a b
  let n := s.get Reg.DRL_SET_MAX_VALVES
  if all.length ≤ n then (all, false)
  else
    let at_ := fun i => (all.drop i).take n
    let best := (List.range (all.length - n + 1)).foldl
      (fun i j => if s.covers left right (at_ i) < s.covers left right (at_ j) then j else i) 0
    (at_ best, true)

/-! ### Leads (R242) -/

def State.valveClass (s : State) (v : Nat) : Nat := s.get (Reg.DRL_VALVE_CLASS v)
def State.leadMin (s : State) (v : Nat) : Nat := s.get (Reg.DRL_CLASS_LEAD_LEAD_MIN (s.valveClass v))
def State.leadMax (s : State) (v : Nat) : Nat := s.get (Reg.DRL_CLASS_LEAD_LEAD_MAX (s.valveClass v))

/-- Clamp to the limits of a valve's class. -/
def State.leadClamp (s : State) (v : Nat) (x : Int) : Nat := (clampI (s.leadMin v) (s.leadMax v) x).toNat

/-- LEAD_LIMIT, and DRL_LEAD_LIMIT the first time that the clamp changes this valve's LEAD (R243). -/
def State.leadLimited (s : State) (v lead : Nat) (b : Bool) : State :=
  let s := s.putFlag (Reg.DRL_VALVE_LEAD_LIMIT v) b
  if b ∧ v ∉ s.drl.limited then ({ s with drl := { s.drl with limited := v :: s.drl.limited } }).emit 0x0601 v lead else s

/-- LEAD at use: the state after it, the value, and whether the clamp changed it. -/
def State.useLead (s : State) (v : Nat) : State × Nat × Bool :=
  let raw := s.get (Reg.DRL_VALVE_LEAD v)
  let l := s.leadClamp v raw
  (s.leadLimited v l (decide (l ≠ raw)), l, decide (l ≠ raw))

/-- A planned gate (R244). -/
def plannedGate (start : Int) (lead : Nat) : Int := rhe (start - 100 * (lead : Int)) 100 * 100

/-! ### Flight (R237, R238) -/

/-- The fall over s metres from speed v, in ns: none when no flight exists. -/
def flightNs (g v dist : Rat) : Option Int :=
  if 0 < g then some (rheSqrtSub (1000000000000000000 * (v * v + 2 * g * dist) / (g * g)) (1000000000 * v / g))
  else if 0 < v then some (rheQ (1000000000 * dist / v))
  else none

/-- The velocity of the fit in m/s (R237). -/
def Ctx.vFit (c : Ctx) (pitch : Nat) : Rat := ((c.vel : Rat) / 65536) * (pitch : Rat) / ((c.period * 10 : Nat) : Rat)

/-- T_VIEW before its rounding. -/
def Ctx.viewExact (c : Ctx) : Rat := c.tMean - c.rMean / (c.nu / 1000)

/-- The flight fields and sets of an object at its seal (R236–R241): arrival and leave are values that the manual leaves open when no
flight exists (log entry 5). -/
def State.sealFlight (s : State) (c : Ctx) (lines : Nat) : State × Plan :=
  let pitch := s.get Reg.DRL_GEOM_ROW_PITCH
  let g : Rat := (s.get Reg.DRL_FLIGHT_G_MMS2 : Rat) / 1000
  let tv := c.viewExact
  let v := c.vFit pitch - g * (c.tMean - tv) / 1000000000
  let len : Rat := (lines : Rat) * ((c.vel : Rat) / 65536) * (pitch : Rat) / 1000000000
  let dist : Rat := (s.get Reg.DRL_FLIGHT_DIST : Rat) / 10000
  let wc := s.get Reg.DRL_SET_WIDE_COLS
  let plain := s.valveSet c.left c.right c.left c.right
  let wide := s.valveSet (c.left - wc) (Nat.min 4095 (c.right + wc)) c.left c.right
  let p : Plan := { Plan.empty with
    tView := rheQ tv, vView := satS32 (rheQ (v * 1000000)), plain := plain.1, plainCut := plain.2, wide := wide.1, wideCut := wide.2,
    lateTol := s.get Reg.DRL_SET_LATE_TOL, minOn := 1000 * s.get Reg.DRL_ONTIME_MIN_ON }
  match flightNs g v dist, flightNs g v (dist + len) with
  | some a, some b =>
    let arrive := p.tView + a
    let start := arrive - 1000 * (s.get Reg.DRL_WINDOW_PRE_US : Int)
    let leave := p.tView + b
    let on := rhe (leave + 1000 * (s.get Reg.DRL_WINDOW_POST_US : Int) - start) 100 * 100
    let maxOn : Int := 1000 * (s.get Reg.DRL_ONTIME_MAX_ON : Int)
    let on' := if maxOn < on then maxOn else if on < p.minOn then (p.minOn : Int) else on
    (s, ({ p with tArrive := arrive, tLeave := b + p.tView, start := start, onNs := on'.toNat }).setFlag Pl.onClamp (decide (maxOn < on)))
  | _, _ =>
    (s.draw.draw.draw, ({ p with
      noFlight := true, tArrive := (s.drawn.toNat : Int), tLeave := (s.draw.drawn.toNat : Int),
      onNs := s.draw.draw.drawn.toNat }).setFlag Pl.noFlight true)

/-- Clamp the leads of a list of valves at use; the earliest planned gate. -/
def State.sealGates (s : State) (start : Int) : List Nat → State × Option Int
  | [] => (s, none)
  | v :: vs =>
    let u := s.useLead v
    let g := plannedGate start u.2.1
    let r := State.sealGates u.1 start vs
    (r.1, some (match r.2 with
      | some h => min g h
      | none => g))

/-- The drill at a seal (R237–R244): the flight, the sets, and the latest verdict time. -/
def State.sealPlan (s : State) (c : Ctx) (lines : Nat) : State × Plan :=
  let r := s.sealFlight c lines
  if r.2.noFlight then r
  else
    let vs := r.2.plain ++ r.2.wide.filter (fun v => !r.2.plain.contains v)
    let q := r.1.sealGates r.2.start vs
    (q.1, { r.2 with latest := q.2.map (fun g => g + 1000 * (r.2.lateTol : Int)) })

end Sys2Proof.Machine
end

