-- ==== Sys2Proof/Machine/Matrix.lean ====
section
/-!
DEFINITION. What the valve matrix carries (spec/10_valve_matrix.md R259–R277, R487; spec/09_drill_scheduling.md R253–R258): plan entries
and their closing, coil heat, states of valves, rails, energised columns and shares.
-/
namespace Sys2Proof.Machine

/-! ### Plans by owner (R248, R257, R258) -/

/-- The first fast-path owner number. -/
def fastBase : Nat := 8192

/-- The plan of an owner. -/
def State.plan (s : State) (o : Nat) : Option Plan :=
  if o < fastBase then (s.sheaf o).map (fun x => x.plan) else Map.find s.drl.fast (o - fastBase)

/-- Change the plan of an owner. -/
def State.onPlan (s : State) (o : Nat) (f : Plan → Plan) : State :=
  if o < fastBase then s.onSheaf o (fun x => { x with plan := f x.plan })
  else match Map.find s.drl.fast (o - fastBase) with
    | some p => { s with drl := { s.drl with fast := Map.insert s.drl.fast (o - fastBase) (f p) } }
    | none => s

/-- Change entry i of a plan. -/
def Plan.onEntry (p : Plan) (i : Nat) (f : PlanEntry → PlanEntry) : Plan :=
  match p.entries[i]? with
  | some e => { p with entries := p.entries.set i (f e) }
  | none => p

/-- Change the entries of an actuation. -/
def State.onEntries (s : State) (os : List (Nat × Nat)) (f : PlanEntry → PlanEntry) : State :=
  os.foldl (fun t o => t.onPlan o.1 (fun p => p.onEntry o.2 f)) s

/-- Mark the entries of an actuation with a flag. -/
def State.markEntries (s : State) (os : List (Nat × Nat)) (k : Nat) : State := s.onEntries os (fun e => e.mark k)

/-- OUTCOME (Table 9-5) of a plan whose entries are all over. -/
def Plan.result (p : Plan) : Nat :=
  let fired := (p.entries.filter (fun e => bit e.flags Ef.fired)).length
  if bit p.flags Pl.noValve ∨ bit p.flags Pl.noFlight then 4
  else if p.entries.any (fun e => bit e.flags Ef.closed) then 5
  else if fired = p.entries.length then 1
  else if 0 < fired then 2
  else 3

/-- Whether an entry of a plan has a gate or a profile still to come. -/
def Plan.running (p : Plan) : Bool := p.entries.any (fun e => decide (e.phase ≠ .ended))

/-- PLAN_CLOSE (R258, R249): a plan with nothing to come gets its outcome; the sheaf goes to DONE, a fast-path slot is freed. -/
def State.closePlan (s : State) (o : Nat) : State :=
  match s.plan o with
  | none => s
  | some p =>
    if p.running then s
    else if o < fastBase then
      if ((s.sheaf o).map (fun x => x.state)) = some 5 then (s.onPlan o (fun p => { p with outcome := p.result })).reachDone o else s
    else { s with drl := { s.drl with fast := Map.erase s.drl.fast (o - fastBase) } }

/-- Entries are over, and plans with nothing to come close. -/
def State.endEntries (s : State) (os : List (Nat × Nat)) : State :=
  os.foldl (fun t o => t.closePlan o.1) (s.onEntries os (fun e => { e with phase := .ended }))

/-! ### Profiles (Table 10-16) -/

def State.profile (s : State) (p : Nat) : List Word := (List.range 8).map (fun k => s.word (Reg.VLV_PROF_0 p + 4 * k))

/-- A field of profile word k. -/
def profField (w : List Word) (k : Nat) (f : Field) : Nat := f.of (w.getD k 0)

def peakMa (w : List Word) : Nat := profField w 0 (Reg.VLV_PROF_0_PEAK_MA 0)
def holdMa (w : List Word) : Nat := profField w 0 (Reg.VLV_PROF_0_HOLD_MA 0)
def boostMaxNs (w : List Word) : Int := 100 * (profField w 1 (Reg.VLV_PROF_1_BOOST_MAX 0) : Int)
def chopKhz (w : List Word) : Nat := profField w 1 (Reg.VLV_PROF_1_CHOP_KHZ 0)
def fastMult (w : List Word) : Nat := profField w 1 (Reg.VLV_PROF_1_FAST_MULT 0)
def releaseMa (w : List Word) : Nat := profField w 2 (Reg.VLV_PROF_2_RELEASE_MA 0)
def decayUs (w : List Word) : Nat := profField w 2 (Reg.VLV_PROF_2_DECAY_US 0)
def dipStartNs (w : List Word) : Int := 100 * (profField w 3 (Reg.VLV_PROF_3_DIP_START 0) : Int)
def dipEndNs (w : List Word) : Int := 100 * (profField w 3 (Reg.VLV_PROF_3_DIP_END 0) : Int)
def dipDepthMa (w : List Word) : Nat := profField w 4 (Reg.VLV_PROF_4_DIP_DEPTH_MA 0)
def dipEn (w : List Word) : Bool := decide (profField w 4 (Reg.VLV_PROF_4_DIP_EN 0) = 1)
def openMa (w : List Word) : Nat := profField w 5 (Reg.VLV_PROF_5_OPEN_MA 0)
def openUs (w : List Word) : Nat := profField w 5 (Reg.VLV_PROF_5_OPEN_US 0)

/-- The profile that a valve names. -/
def State.valveProfile (s : State) (v : Nat) : List Word := s.profile (s.get (Reg.VLV_VALVE_PROFILE v))

/-- Current of a converter code in mA, exact (R264). -/
def State.codeMa (s : State) (n : Nat) : Rat := ((n * 250000000 : Nat) : Rat) / ((4096 * s.get Reg.VLV_SENSE_SHUNT_UOHM : Nat) : Rat)

/-- t_rel in µs from the code of I_OFF (R270). -/
def State.relCode (s : State) (w : List Word) (n : Nat) : Nat :=
  let num := n * 250000000
  let den := 4096 * s.get Reg.VLV_SENSE_SHUNT_UOHM * releaseMa w
  if den < num then ceilLn (decayUs w) num den else 0

/-- t_rel in µs for I_OFF = HOLD_MA. -/
def relHold (w : List Word) : Nat := if releaseMa w < holdMa w then ceilLn (decayUs w) (holdMa w) (releaseMa w) else 0

/-! ### Who is energised (R250, R268, R277, R487) -/

def groupOf (v : Nat) : Nat := v / 64
def columnOf (v : Nat) : Nat := v % 64

/-- The actuation of a valve. -/
def State.act (s : State) (v : Nat) : Option Act := s.vlv.acts.find? (fun a => decide (a.valve = v))

/-- An actuation in BOOST or HOLD. -/
def Act.on (a : Act) : Bool := decide (a.mode = 1 ∨ a.mode = 2)

/-- How a group is driven (R260): 2 VBOOST, 1 VHOLD, 0 off. -/
def State.groupDrive (s : State) (g : Nat) : Nat :=
  let l := s.vlv.acts.filter (fun a => decide (groupOf a.valve = g))
  if l.any (fun a => decide (a.mode = 1)) then 2 else if l.any Act.on then 1 else 0

/-- How many valves of a group are in BOOST. -/
def State.boosting (s : State) (g : Nat) : Nat := (s.vlv.acts.filter (fun a => decide (groupOf a.valve = g ∧ a.mode = 1))).length

/-- The columns whose switch conducts. -/
def State.conducting (s : State) : List Nat := ((s.vlv.acts.filter Act.on).map (fun a => columnOf a.valve)).eraseDups

/-- The cross valves (R487): group driven, column conducting, no actuation of their own. -/
def State.crossValves (s : State) : List Nat :=
  let gs := (List.range 16).filter (fun g => decide (s.groupDrive g ≠ 0))
  s.conducting.flatMap (fun c => (gs.map (fun g => 64 * g + c)).filter (fun v => (s.act v).isNone))

/-- The energised valves of a column, cross valves included. -/
def State.energised (s : State) (c : Nat) : List Nat :=
  ((s.vlv.acts.map (fun a => a.valve)) ++ s.crossValves ++ s.vlv.crossRel.map (fun e => e.1)).eraseDups.filter
    (fun v => decide (columnOf v = c))

/-- Whether a column is shared (R275, R277, R487). -/
def State.sharedCol (s : State) (c : Nat) : Bool := decide (1 < (s.energised c).length)

/-! ### Disabled parts (R280, R282) -/

def State.valveDisabled (s : State) (v : Nat) : Bool :=
  s.vlv.valveDis.contains v || s.flag (Reg.VLV_COLUMN_DISABLED (columnOf v)) || s.flag (Reg.VLV_GROUP_DISABLED (groupOf v))

/-- New gates are made: the matrix is enabled and ARM asserted (R51, R281, R283). -/
def State.matrixOpen (s : State) : Bool := s.flag Reg.VLV_STATUS_ENABLED && s.pwr.arm

/-- ENABLED and VALVES_ON. -/
def State.setEnabled (s : State) (b : Bool) : State := (s.putFlag Reg.VLV_STATUS_ENABLED b).putFlag Reg.CFG_STATUS_VALVES_ON b

/-! ### What the registers of the matrix show -/

/-- State and SHARED of one valve (Table 10-17): a disabled valve is DISABLED once its decay time has run (Table 10-4; log entry 85). -/
def State.showValve (s : State) (v : Nat) : State :=
  let st := ((s.act v).map (fun a => a.mode)).getD (if s.valveDisabled v then 4 else 0)
  (s.put (Reg.VLV_VALVE_STATE v) st).putFlag (Reg.VLV_VALVE_SHARED v)
    (decide ((s.act v).isSome) && s.sharedCol (columnOf v))

/-- RAIL of every group, SHARED and ENERGISED of every column. -/
def State.showMatrix (s : State) : State :=
  let s := (List.range 16).foldl (fun t g => t.put (Reg.VLV_GROUP_RAIL g) (s.groupDrive g)) s
  (List.range 64).foldl (fun t c =>
    (t.putFlag (Reg.VLV_COLUMN_SHARED c) (s.sharedCol c)).put (Reg.VLV_COLUMN_ENERGISED c) (s.energised c).length) s

/-- Whether the column of an actuation was shared at a time. -/
def Act.sharedAt (a : Act) (t : Int) : Bool := ((a.shares.find? (fun e => decide (e.1 ≤ t))).map (fun e => e.2)).getD false

/-- The column of an actuation is shared, or is not, from now on; in BOOST it loses its clean boost (R254). -/
def Act.noteShare (a : Act) (now : Int) (b : Bool) : Act :=
  { a with alone := a.alone && !(b && decide (a.mode = 1))
           shares := if ((a.shares.head?).map (fun e => e.2)).getD false = b then a.shares else (now, b) :: a.shares }

/-- Actuations on a shared column carry SHARED_COL, and lose their clean boost (R254, R277). -/
def State.shareMarks (s : State) : State :=
  let hit := s.vlv.acts.filter (fun a => s.sharedCol (columnOf a.valve))
  let t := { s with vlv := { s.vlv with acts := s.vlv.acts.map (fun a => a.noteShare s.nowI (s.sharedCol (columnOf a.valve))) } }
  hit.foldl (fun t a => t.markEntries a.owners Ef.sharedCol) t

/-! ### The switches (R260, R269) -/

/-- The switch of a column (64 and 65: of a channel): whether it is asserted, and since when; released since the start until it is used. -/
def State.switch (s : State) (c : Nat) : Bool × Int := (Map.find s.vlv.lsc c).getD (false, 0)

/-- Assert or release a switch. -/
def State.putSwitch (s : State) (c : Nat) (b : Bool) : State :=
  if (s.switch c).1 = b then s else { s with vlv := { s.vlv with lsc := Map.insert s.vlv.lsc c (b, s.nowI) } }

/-- A chopping period begins, or none runs. -/
def State.putChop (s : State) (c : Nat) (t : Option Int) : State :=
  { s with vlv := { s.vlv with chop := match t with
    | some t => Map.insert s.vlv.chop c t
    | none => Map.erase s.vlv.chop c } }

/-- Whether a valve of a column is in BOOST. -/
def State.boostCol (s : State) (c : Nat) : Bool := s.vlv.acts.any (fun a => decide (a.mode = 1 ∧ columnOf a.valve = c))

/-- The switch of a column after a change: asserted without a break in BOOST, chopping in HOLD, released when nothing there is on. `was`
and `boosted` tell whether it conducted and boosted before. -/
def State.moveSwitch (s : State) (c : Nat) (was boosted : Bool) : State :=
  if s.conducting.contains c then
    if s.boostCol c then (s.putSwitch c true).putChop c none
    else if was && !boosted then s
    else (s.putSwitch c true).putChop c (some s.nowI)
  else if was then (s.putSwitch c false).putChop c none
  else s

/-- The switches and the times of the group commands after a change from a state. -/
def State.moveSwitches (s o : State) : State :=
  let s := (o.conducting ++ s.conducting).eraseDups.foldl (fun t c => t.moveSwitch c (o.conducting.contains c) (o.boostCol c)) s
  { s with vlv := { s.vlv with groupAt := (List.range 16).map (fun g => if s.groupDrive g = o.groupDrive g then s.vlv.groupAt.getD g 0 else s.nowI) } }

/-- After a change of the matrix: cross valves that stopped start their release time (R487), and the registers follow. `before` names
the cross valves and actuations there were. -/
def State.settle (s : State) (before : List Nat) (cross : List Nat) : State :=
  let now := s.crossValves
  let gone := cross.filter (fun v => !now.contains v && (s.act v).isNone)
  let rel := (s.vlv.crossRel.filter (fun e => !now.contains e.1 && (s.act e.1).isNone && !gone.contains e.1)) ++
    gone.map (fun v => (v, s.nowI + 1000 * (relHold (s.valveProfile v) : Int)))
  let s := ({ s with vlv := { s.vlv with crossRel := rel } }).shareMarks
  let idle := s.vlv.acts.isEmpty && s.vlv.crossRel.isEmpty
  let s := if idle ∧ !(before.isEmpty) then { s with vlv := { s.vlv with idleSince := s.time.ticks } } else s
  let vs := (before ++ s.vlv.acts.map (fun a => a.valve)).eraseDups
  (vs.foldl (fun t v => t.showValve v) s).showMatrix

/-- Replace the actuation of a valve. -/
def State.putAct (s : State) (a : Act) : State :=
  { s with vlv := { s.vlv with acts := s.vlv.acts.map (fun b => if b.valve = a.valve then a else b) } }

/-- Drop the actuation of a valve. -/
def State.dropAct (s : State) (v : Nat) : State :=
  { s with vlv := { s.vlv with acts := s.vlv.acts.filter (fun a => decide (a.valve ≠ v)) } }

/-- Make a change of the matrix and settle it. -/
def State.change (s : State) (f : State → State) : State :=
  ((f s).settle (s.vlv.acts.map (fun a => a.valve) ++ s.vlv.crossRel.map (fun e => e.1)) s.crossValves).moveSwitches s

/-! ### Coil heat (R255) -/

/-- THETA of a valve in mK at a device time. -/
def State.thetaAt (s : State) (v t : Nat) : Rat :=
  match Map.find s.drl.theta v with
  | none => 0
  | some (x, t0) =>
    let tau := s.get (Reg.DRL_CLASS_TH_TAU (s.valveClass v))
    x * ((expNeg (((t - t0 : Nat) : Rat) / ((tau * 100000000 : Nat) : Rat)) : Int) : Rat) / ((2 ^ 96 : Nat) : Rat)

/-- What an I²t adds to THETA, mK. -/
def State.thetaRise (s : State) (v : Nat) (i2t : Rat) : Rat :=
  let k := s.valveClass v
  (s.get (Reg.DRL_CLASS_COIL_K_TH k) : Rat) * (s.get (Reg.DRL_CLASS_COIL_R_COIL k) : Rat) * i2t / 1000000000

/-- THETA_MAX of a valve's class in mK. -/
def State.thetaMax (s : State) (v : Nat) : Rat := 100 * (s.get (Reg.DRL_CLASS_TH_THETA_MAX (s.valveClass v)) : Rat)

/-- HOT in DRL_STATUS (Table 9-9). -/
def State.hotUpdate (s : State) : State :=
  s.putFlag Reg.DRL_STATUS_HOT (s.drl.theta.any (fun e => decide (s.thetaMax e.1 < s.thetaAt e.1 s.now)))

/-- THETA_UPDATE at the end of an actuation. -/
def State.thetaEnd (s : State) (v : Nat) (i2t : Rat) : State :=
  let x := s.thetaAt v s.now + s.thetaRise v i2t
  let s := { s with drl := { s.drl with theta := Map.insert s.drl.theta v (x, s.now) } }
  (s.putSat (Reg.DRL_THETA_THETA v) (rheQ x).toNat).hotUpdate

/-! ### Boost reservoir (R253) -/

/-- ½ · C · V² in µJ. -/
def State.halfCv (s : State) (mv : Nat) : Rat := ((s.get Reg.DRL_RESERVOIR_C_BOOST * mv * mv : Nat) : Rat) / 2000000

/-- E_EST now: it rises by RECHARGE_MW up to ½ · C · V_FULL²; 0 while no VBOOST result is newer than 100 ms. -/
def State.energy (s : State) : Rat :=
  if s.flag Reg.DRL_STATUS_VBOOST_STALE ∨ s.drl.vboost = none then 0
  else
    let full := s.halfCv (s.get Reg.DRL_VLIMIT_V_FULL)
    if full ≤ s.drl.eEst then s.drl.eEst
    else min full (s.drl.eEst + ((s.get Reg.DRL_RESERVOIR_RECHARGE_MW * (s.now - s.drl.eAt) : Nat) : Rat) / 1000000)

/-- E_FLOOR. -/
def State.energyFloor (s : State) : Rat := s.halfCv (s.get Reg.DRL_VLIMIT_V_FLOOR)

/-- E_PULL of a valve's class. -/
def State.ePull (s : State) (v : Nat) : Nat := s.get (Reg.DRL_CLASS_E_E_PULL (s.valveClass v))

/-- Put E_EST at this moment, with E_LOW. -/
def State.setEnergy (s : State) (e : Rat) : State :=
  let s := { s with drl := { s.drl with eEst := e, eAt := s.now } }
  (s.putSat Reg.DRL_E_EST_E_EST (rheQ s.energy).toNat).putFlag Reg.DRL_STATUS_E_LOW (decide (s.energy < s.energyFloor))

/-! ### Samples (R254, R264, R273) -/

/-- The largest code of a list. -/
def maxCode (l : List Nat) : Option Nat := if l.isEmpty then none else some (maxN l)

/-- Samples that no command brings: free values (log entry 86). -/
def State.unseen (s : State) : Nat → State × List Nat
  | 0 => (s, [])
  | n + 1 =>
    let r := s.draw.unseen n
    (r.1, s.drawn.toNat % 4096 :: r.2)

/-- How many samples of the 2 MS/s grid lie between a time and now. -/
def samplesTo (from_ now : Int) : Nat := ((now - from_ + 499) / 500).toNat

/-- The blanked samples at the start of an on interval (R264): the two of its first 1.0 µs when the gate edge asserted the switch, else what
is left of them. -/
def blanked (opened : Bool) (blank : Nat) : Nat := if opened then 2 else Nat.min blank 2

/-- The samples of an on interval of the column that ends now, added to an actuation: charge in BOOST, I²t (half of it while the column was
shared), and the highest unblanked code; those before `seen` have been taken. -/
def State.addSpan (s : State) (a : Act) (blank : Nat) (codes : List Nat) : Act :=
  let now := s.nowI
  let skip := codes.length - samplesTo a.seen now
  let own := codes.drop skip
  let n := own.length
  let q := own.foldl (fun (x : Rat) c => x + s.codeMa c / 2) 0
  let e := (List.range n).foldl (fun (x : Rat) i =>
    let j := (s.codeMa (own.getD i 0) / 1000) * (s.codeMa (own.getD i 0) / 1000) / 2
    x + (if a.sharedAt (now - 500 * ((n - 1 - i : Nat) : Int)) then j / 2 else j)) 0
  let top := maxCode (own.drop (blank - skip))
  { a with charge := if a.mode = 1 then a.charge + q else a.charge, i2t := a.i2t + e, seen := now, lastOn := top.or a.lastOn,
           lastShared := if top.isSome then s.sharedCol (columnOf a.valve) else a.lastShared }

/-- The same for every actuation in BOOST or HOLD on the column. -/
def State.columnSpan (s : State) (c blank : Nat) (codes : List Nat) : State :=
  { s with vlv := { s.vlv with acts := s.vlv.acts.map (fun a => if columnOf a.valve = c ∧ a.on then s.addSpan a blank codes else a) } }

/-- A column in BOOST is cut off, or read, by a command that brings no samples. -/
def State.cutSpan (s : State) (c : Nat) : State :=
  let l := s.vlv.acts.filter (fun a => decide (columnOf a.valve = c ∧ a.mode = 1))
  let r := s.unseen (maxN (l.map (fun a => samplesTo a.seen s.nowI)))
  r.1.columnSpan c (if l.any (fun a => a.opened && decide (a.seen = a.gate)) then 2 else 0) r.2

/-! ### The end of BOOST (R254, R272, R273) -/

/-- E_PULL_LEARN from the boost charge in nC, if VBOOST is known. -/
def State.ePullLearn (s : State) (v : Nat) (charge : Rat) : State :=
  match s.drl.vboost with
  | none => s
  | some mv =>
    if !s.flag Reg.DRL_CTRL_LEARN_ON then s
    else
      let k := s.valveClass v
      let old : Rat := (s.get (Reg.DRL_CLASS_E_E_PULL k) : Rat)
      let meas : Rat := charge * (mv : Rat) / 1000000
      let d := rheQ ((meas - old) / ((2 ^ s.get (Reg.DRL_CLASS_E_E_SHIFT k) : Nat) : Rat))
      s.putSat (Reg.DRL_CLASS_E_E_PULL k) ((s.get (Reg.DRL_CLASS_E_E_PULL k) : Int) + d).toNat

/-- BOOST of a valve ends, however it ends: BOOST_US, a dip search without completion (log entry 28), E_PULL learning; the valve enters HOLD. -/
def State.boostDone (s : State) (a : Act) : State :=
  let us := (rhe (s.nowI - a.gate) 1000).toNat
  let s := s.putSat (Reg.VLV_LAST_BOOST_US a.valve) us
  let s := { s with drl := { s.drl with lastBoost := Map.insert s.drl.lastBoost a.valve us } }
  let s := if dipEn a.prof ∧ a.dip = none then s.bump Reg.VLV_DIP_MISS_COUNT 1 else s
  let s := s.putAct { a with mode := 2 }
  if a.boosted ∧ a.alone then s.ePullLearn a.valve a.charge else s

/-- BOOST of a valve ends with the samples of its column. -/
def State.endBoost (s : State) (v blank : Nat) (codes : List Nat) : State :=
  let t := s.columnSpan (columnOf v) blank codes
  match t.act v with
  | some a => if a.mode = 1 then t.boostDone a else t
  | none => t

/-- BOOST of a valve, if it is in it, is cut by a fault, a stop or a restart: its samples came with no command. -/
def State.stopBoost (s : State) (v : Nat) : State :=
  if ((s.act v).map (fun a => a.mode)) = some 1 then (s.cutSpan (columnOf v)).endBoost v 0 [] else s

/-! ### End of an actuation (R270, R273, R276) -/

/-- I_OFF in mA, and t_rel in µs: HOLD_MA after an on interval that was shared, or in one that another valve's BOOST shares. -/
def State.offCurrent (s : State) (a : Act) : Rat × Nat :=
  if s.boostCol (columnOf a.valve) then ((holdMa a.prof : Rat), relHold a.prof)
  else match a.lastOn with
  | none => (0, 0)
  | some n => if a.lastShared then ((holdMa a.prof : Rat), relHold a.prof) else (s.codeMa n, s.relCode a.prof n)

/-- A held valve's time past its end is counted and told (R276). -/
def State.shareExtended (s : State) (a : Act) : State :=
  if a.heldPast ∧ a.stop < s.nowI then
    let us := (rhe (s.nowI - a.stop) 1000).toNat
    let s := s.bump Reg.VLV_SHARE_EXT_COUNT 1
    let s := if s.get Reg.VLV_SHARE_EXT_MAX_US < us then s.putSat Reg.VLV_SHARE_EXT_MAX_US us else s
    s.emit 0x0603 a.valve us
  else s

/-- DECAY (R270): LSC or the group is released, the release time is fixed, the decay joins I²t, and THETA rises. -/
def State.decay (s : State) (a : Act) : State :=
  let o := s.offCurrent a
  let part := (o.1 / 1000) * (o.1 / 1000) * (decayUs a.prof : Rat) / 2
  let i2t := a.i2t + (if s.sharedCol (columnOf a.valve) then part / 2 else part)
  let t := s.shareExtended a
  let t := t.putAct { a with mode := 3, i2t := i2t, release := some (s.nowI + 1000 * (o.2 : Int)) }
  t.thetaEnd a.valve i2t

/-- An actuation in BOOST or HOLD ends in DECAY. -/
def State.endOn (s : State) (v : Nat) : State :=
  let s := s.stopBoost v
  match s.act v with
  | some a => if a.on then s.decay a else s
  | none => s

/-- Whether an actuation has passed its planned end. -/
def Act.past (a : Act) (now : Int) : Bool := decide (a.stop ≤ now)

/-- Valves past their planned end leave when every valve on their column, or every driven valve of their group, has passed its end
(R276; log entry 27); the others are held. One pass. -/
def State.leaveOnce (s : State) : State :=
  let now := s.nowI
  let on := s.vlv.acts.filter Act.on
  let goes := on.filter (fun a => a.past now &&
    ((on.filter (fun b => decide (columnOf b.valve = columnOf a.valve))).all (fun b => b.past now) ||
     (on.filter (fun b => decide (groupOf b.valve = groupOf a.valve))).all (fun b => b.past now)))
  let stays := on.filter (fun a => a.past now && !goes.any (fun b => decide (b.valve = a.valve)))
  let s := stays.foldl (fun t a => t.putAct { a with heldPast := true }) s
  goes.foldl (fun t a => t.endOn a.valve) s

/-- Leaving can free others; as many passes as there are actuations. -/
def State.leaveAll (s : State) : Nat → State
  | 0 => s
  | n + 1 => s.leaveOnce.leaveAll n

/-- R283: with ARM deasserted, the matrix is no longer enabled once no actuation is in BOOST or HOLD. -/
def State.armCheck (s : State) : State :=
  if !s.pwr.arm ∧ s.flag Reg.VLV_STATUS_ENABLED ∧ !s.vlv.acts.any Act.on then s.setEnabled false else s

/-- Every valve past its planned end leaves, if it can. -/
def State.leave (s : State) : State := (s.change (fun t => t.leaveAll (t.vlv.acts.length + 1))).armCheck

/-- Every running actuation enters DECAY at once: all commands go low (R261). -/
def State.allLow (s : State) : State :=
  s.change (fun t => (t.vlv.acts.filter Act.on).foldl (fun u a => u.endOn a.valve) t)

end Sys2Proof.Machine
end

