-- ==== Sys2Proof/Machine/Drill.lean ====
section
/-!
DEFINITION. Planning and pull-ins (spec/09_drill_scheduling.md R243, R245–R258): entries and merges, grants in order, the fallbacks at
the deferral limit, gate edges, and what the drill learns.
-/
namespace Sys2Proof.Machine

/-- The next 0.1 µs timing tick at or after a device time. -/
def tick100 (t : Int) : Int := -((-t) / 100) * 100

/-! ### Heat at planning (R256) -/

/-- THETA predicted at an end. -/
def State.thetaPredict (s : State) (v : Nat) (gate stop : Int) : Rat :=
  let w := s.valveProfile v
  s.thetaAt v stop.toNat + s.thetaRise v
    (Config.expectedI2t (peakMa w) (holdMa w) ((Map.find s.drl.lastBoost v).getD 300) (stop - gate).toNat : Nat)

/-- The latest 100 ns step, not below MIN_ON, that keeps the prediction at or below THETA_MAX; at most `n` steps. -/
def State.hotSearch (s : State) (v : Nat) (gate : Int) (minOn : Nat) : Nat → Int → Int
  | 0, e => e
  | n + 1, e => if s.thetaPredict v gate e ≤ s.thetaMax v ∨ e - 100 < gate + minOn then e else s.hotSearch v gate minOn n (e - 100)

/-- The planned end after R256, and whether the prediction exceeded THETA_MAX. -/
def State.hotStop (s : State) (v : Nat) (gate stop : Int) (minOn : Nat) : Int × Bool :=
  if s.thetaPredict v gate stop ≤ s.thetaMax v then (stop, false)
  else (s.hotSearch v gate minOn ((stop - gate).toNat / 100 + 1) stop, true)

/-- HOT_HOLD on an entry. -/
def State.hotHold (s : State) (o : Nat × Nat) (b : Bool) : State :=
  if b then (s.markEntries [o] Ef.hotHold).bump Reg.DRL_HEAT_CNT_HOT_HOLD 1 else s

/-! ### Merges (R246) -/

/-- Merge entry o of a valve into its running actuation. -/
def State.mergeAct (s : State) (a : Act) (o : Nat × Nat) (gate stop : Int) (minOn : Nat) : State :=
  let os := a.owners ++ [o]
  let least := Nat.max a.minOn minOn
  let h := s.hotStop a.valve a.gate (max a.planned stop) least
  let last := max h.1 (a.gate + least)
  let first := a.owners.foldl (fun g x => match (s.plan x.1).bind (fun p => p.entries[x.2]?) with
    | some e => min g e.gate
    | none => g) gate
  let s := (s.putAct { a with owners := os, planned := h.1, stop := last, minOn := least, heldPast := false }).onEntries os (fun e =>
    { e with gate := first, stop := last, delay := some (a.gate - first).toNat, onAct := (last - a.gate).toNat, phase := .running })
  ((s.markEntries [o] Ef.merged).markEntries [o] Ef.fired).hotHold o h.2

/-- Replace a requested pull-in (found by its first owner). -/
def State.putPull (s : State) (p : PullIn) : State :=
  { s with drl := { s.drl with pulls := s.drl.pulls.map (fun q => if q.owners.head? = p.owners.head? then p else q) } }

def State.dropPull (s : State) (p : PullIn) : State :=
  { s with drl := { s.drl with pulls := s.drl.pulls.filter (fun q => decide (q.owners.head? ≠ p.owners.head?)) } }

/-- WAITING in DRL_STATUS. -/
def State.waitUpdate (s : State) : State := s.putSat Reg.DRL_STATUS_WAITING (s.drl.pulls.filter (fun p => p.waits)).length

/-- Merge entry o into a requested pull-in: the request moves to the new gate when that is earlier. -/
def State.mergePull (s : State) (p : PullIn) (o : Nat × Nat) (gate req stop : Int) (minOn : Nat) : State :=
  let os := p.owners ++ [o]
  let g := min p.gate gate
  let mo := Nat.max p.minOn minOn
  let h := s.hotStop p.valve g (max p.stop stop) mo
  let s := (s.putPull { p with owners := os, gate := g, req := if gate < p.gate then min p.req req else p.req, stop := h.1, minOn := mo }).onEntries
    os (fun e => { e with gate := g, stop := h.1, phase := .requested })
  (s.markEntries [o] Ef.merged).hotHold o h.2

/-- The requested pull-in of a valve with the earliest planned gate among those that a gate merges into. -/
def State.mergeable (s : State) (v : Nat) (gate gap : Int) : Option PullIn :=
  (s.drl.pulls.filter (fun p => decide (p.valve = v ∧ gate ≤ p.stop + gap))).foldl (fun b p => match b with
    | none => some p
    | some q => if p.gate < q.gate then some p else some q) none

/-- The running actuation that a gate merges into: its gate-off has not yet occurred. -/
def State.mergeableAct (s : State) (v : Nat) (gate gap : Int) : Option Act :=
  (s.act v).filter (fun a => a.on && decide (gate ≤ a.planned + gap))

/-- Request the gate of entry o, or merge it (R245, R246). -/
def State.requestGate (s : State) (o : Nat × Nat) (v : Nat) (gate req stop : Int) (minOn : Nat) : State :=
  let gap : Int := 1000 * (s.get Reg.DRL_BOOST_MERGE_GAP : Int)
  match s.mergeableAct v gate gap with
  | some a => s.mergeAct a o gate stop minOn
  | none => match s.mergeable v gate gap with
    | some p => s.mergePull p o gate req stop minOn
    | none =>
      let h := s.hotStop v gate stop minOn
      let s := s.onEntries [o] (fun e => { e with stop := h.1, phase := .requested })
      ({ s with drl := { s.drl with pulls := s.drl.pulls ++ [(⟨[o], v, gate, req, h.1, minOn, false, 0⟩ : PullIn)] } }).hotHold o h.2

/-! ### Planning (R245, Table 9-1) -/

/-- Plan one valve of the set for an owner. -/
def State.planValve (s : State) (o : Nat) (p : Plan) (v : Nat) : State :=
  let tv := s.nowI
  let u := s.useLead v
  let s := u.1
  let gate := plannedGate p.start u.2.1
  let stop := gate + p.onNs
  let e : PlanEntry := { valve := v, flags := 0, gate := gate, stop := stop, delay := none, onAct := 0, lead := u.2.1, move := none, phase := .ended }
  let e := if u.2.2 then e.mark Ef.leadLimit else e
  let i := ((s.plan o).map (fun q => q.entries.length)).getD 0
  let add := fun (t : State) (x : PlanEntry) => t.onPlan o (fun q => { q with entries := q.entries ++ [x] })
  if s.valveDisabled v then add s (e.mark Ef.disabled)
  else if !s.matrixOpen then add s (e.mark Ef.notArmed)
  else if tv ≤ gate then (add s e).requestGate (o, i) v gate gate stop p.minOn
  else if tv ≤ gate + 1000 * (p.lateTol : Int) then
    ((add s (e.mark Ef.late)).bump Reg.DRL_TIMING_LATE 1).requestGate (o, i) v gate (tick100 tv) stop p.minOn
  else (add s (e.mark Ef.missed)).bump Reg.DRL_TIMING_MISSED 1

/-- EJECT_PLAN: the plan of an owner, at its outcome (R245, R241). -/
def State.makePlan (s : State) (o : Nat) (wide dflt : Bool) : State :=
  let s := s.setPair Reg.DRL_PLANS_LO (s.pair Reg.DRL_PLANS_LO + 1)
  let s := s.onPlan o (fun p =>
    ((({ p with tPlan := s.now }).setFlag Pl.wide wide).setFlag Pl.dflt dflt).setFlag Pl.truncated (if wide then p.wideCut else p.plainCut))
  match s.plan o with
  | none => s
  | some p =>
    let vs := if wide then p.wide else p.plain
    if vs.isEmpty then (s.onPlan o (fun p => p.setFlag Pl.noValve true)).closePlan o
    else if p.noFlight then s.closePlan o
    else (vs.foldl (fun t v => t.planValve o p v) s).closePlan o

/-- The fast path (R248, R249): a shadow that seals with default disposition eject. -/
def State.fastPlan (s : State) (c : Ctx) : State :=
  if 1024 ≤ (s.drl.fast.filter (fun e => decide (e.1 < 1024))).length then s.bump Reg.DRL_FAST_PLAN_OVERFLOW 1
  else
    let r := s.sealPlan c (c.lastLine - c.openLine + 1)
    let k := kthFree (r.1.drl.fast.map (fun e => e.1)) 0
    let s := { r.1 with drl := { r.1.drl with fast := Map.insert r.1.drl.fast k r.2 } }
    (s.bump Reg.DRL_FAST_COUNT 1).makePlan (fastBase + k) false true

/-! ### Gate edges (R245, R247, R268) -/

/-- An old actuation of a valve that restarts ends (R271): one in BOOST ends its boost, and one in BOOST or HOLD has no DECAY to add to its
I²t (R273). -/
def State.endOld (s : State) (v : Nat) : State :=
  let s := s.stopBoost v
  match s.act v with
  | none => s
  | some a =>
    let s := if a.on then (s.shareExtended a).thetaEnd v a.i2t else s
    (s.dropAct v).endEntries a.owners

/-- The counts of a gate edge at device time t. -/
def State.countGate (s : State) (v : Nat) (t : Int) : State :=
  let s := (s.bumpCounter v 1).setPair Reg.DRL_GATES_LO (s.pair Reg.DRL_GATES_LO + 1)
  let s := match Map.find s.drl.lastGate v with
    | some l => if t < (l : Int) + 1000000 then s.bump Reg.DRL_RATE_HIGH_COUNT 1 else s
    | none => s
  { s with drl := { s.drl with lastGate := Map.insert s.drl.lastGate v t.toNat } }

/-- The gate edge of a pull-in at device time t, with boost or hold-only. -/
def State.gateEdge (s : State) (p : PullIn) (t : Int) (boost : Bool) : State :=
  let stop := max p.stop (t + p.minOn)
  let s := s.change (fun x =>
    let x := x.endOld p.valve
    let a : Act := {
      valve := p.valve, mode := if boost then 1 else 2, owners := p.owners, gate := t, planned := p.stop, stop := stop, minOn := p.minOn, prof := x.valveProfile p.valve,
      opened := !s.conducting.contains (columnOf p.valve), seen := t, shares := [], boosted := boost, alone := true, charge := 0, i2t := 0, lastOn := none, lastShared := false, dip := none, release := none, heldPast := false }
    let x := { x with vlv := { x.vlv with acts := x.vlv.acts.filter (fun (b : Act) => decide (b.valve ≠ p.valve)) ++ [a], crossRel := x.vlv.crossRel.filter (fun e => decide (e.1 ≠ p.valve)) } }
    x.onEntries p.owners (fun e =>
      { e with flags := setBit e.flags Ef.fired true, delay := some (t - p.gate).toNat, onAct := (stop - t).toNat, stop := stop, phase := .running }))
  s.countGate p.valve t

/-- End a pull-in without a gate. -/
def State.noGate (s : State) (p : PullIn) (k : Nat) : State := (((s.dropPull p).markEntries p.owners k).endEntries p.owners).waitUpdate

/-- A pull-in starts at t, with boost or hold-only, sharing its column or not. -/
def State.startPull (s : State) (p : PullIn) (t : Int) (boost shared : Bool) : State :=
  if !s.matrixOpen then s.noGate p Ef.notArmed
  else if s.valveDisabled p.valve then s.noGate p Ef.disabled
  else
    let s := (s.dropPull p).waitUpdate
    let s := if boost then s.setEnergy (s.energy - (s.ePull p.valve : Rat))
      else (s.markEntries p.owners Ef.weakPull).bump Reg.DRL_FALLBACK_WEAK 1
    let s := if shared then (s.markEntries p.owners Ef.sharedCol).bump Reg.DRL_FALLBACK_SHARED 1 else s
    s.gateEdge p t boost

/-! ### Grants (R250–R252) -/

/-- Insertion in order of requested gate time, ties to the lower valve index (R251). -/
def insertPull (p : PullIn) : List PullIn → List PullIn
  | [] => [p]
  | q :: qs => if p.req < q.req ∨ (p.req = q.req ∧ p.valve ≤ q.valve) then p :: q :: qs else q :: insertPull p qs

/-- The waiting pull-ins in order. -/
def State.waiting (s : State) : List PullIn := (s.drl.pulls.filter (fun p => p.waits)).foldr insertPull []

/-- A gate of a group with BOOST_LOST is hold-only (Table 10-7): it needs its column alone. -/
def State.boostLost (s : State) (v : Nat) : Bool := s.flag (Reg.VLV_GROUP_BOOST_LOST (groupOf v))

/-- The group, column and energy conditions of R250 for a valve by themselves; a valve's own energised state does not block its column for a
restart (R271), but as a cross valve it does. -/
def State.groupOk (s : State) (v : Nat) : Bool :=
  s.boostLost v || ((s.act v).map (fun a => a.mode)) == some 1 || decide (s.boosting (groupOf v) < s.get Reg.DRL_BOOST_BOOST_LIMIT)
def State.columnOk (s : State) (v : Nat) : Bool := ((s.energised (columnOf v)).filter (fun x => decide (x ≠ v) || (s.act v).isNone)).isEmpty
def State.energyOk (s : State) (v : Nat) : Bool := s.boostLost v || decide (s.energyFloor ≤ s.energy - (s.ePull v : Rat))

/-- What earlier waiting pull-ins hold back for later ones (R251). -/
structure Blocked where
  groups  : List Nat
  columns : List Nat
  energy  : Bool
  deriving DecidableEq, Repr

/-- Carry a DEFER flag once and count it. -/
def State.defer (s : State) (p : PullIn) (unmet : Bool) (k : Nat) (f : Field) : State :=
  let has := p.owners.all (fun o => match (s.plan o.1).bind (fun q => q.entries[o.2]?) with
    | some e => bit e.flags k
    | none => true)
  if unmet ∧ !has then (s.markEntries p.owners k).bump f 1 else s

/-- Unmet conditions as EFLAGS bits. -/
def unmetBits (g c e : Bool) : Nat := (if g then 0 else 16) + (if c then 0 else 32) + (if e then 0 else 64)

/-- One waiting pull-in of a grant pass at timing tick t: it starts, or is deferred and blocks what it waits on. -/
def State.grantOne (s : State) (t : Int) (b : Blocked) (p : PullIn) : State × Blocked :=
  let v := p.valve
  let g := s.groupOk v && (!b.groups.contains (groupOf v) || ((s.act v).map (fun a => a.mode)) == some 1 || s.boostLost v)
  let c := s.columnOk v && !b.columns.contains (columnOf v)
  let e := s.energyOk v && (!b.energy || s.boostLost v)
  if g ∧ c ∧ e then (s.startPull p t (!s.boostLost v) false, b)
  else
    let s := ((s.defer p (!g) Ef.deferGroup Reg.DRL_DEFER_GROUP).defer p (!c) Ef.deferColumn Reg.DRL_DEFER_COLUMN).defer p (!e) Ef.deferEnergy
      Reg.DRL_HEAT_CNT_ENERGY
    (s.putPull { p with unmet := unmetBits g c e },
      { groups := if g then b.groups else groupOf v :: b.groups, columns := if c then b.columns else columnOf v :: b.columns,
        energy := b.energy || !e })

/-- A grant pass over the waiting pull-ins in order (R251). -/
def State.grantPass (s : State) (t : Int) : State :=
  if s.resetting 5 ∨ s.resetting 6 then s else
  (s.waiting.foldl (fun r p => r.1.grantOne t r.2 p) (s, { groups := [], columns := [], energy := false })).1

/-- The earliest pull-in of a valve that has not yet come to its request, and the one that waits. -/
def State.nextPull (s : State) (v : Nat) : Option PullIn :=
  ((s.drl.pulls.filter (fun p => decide (p.valve = v) && !p.waits)).foldr insertPull []).head?
def State.waitingPull (s : State) (v : Nat) : Option PullIn := (s.waiting.filter (fun p => decide (p.valve = v))).head?

/-- A gate request ends an idle scan at once (R279). -/
def State.endScan (s : State) : State := { s.put Reg.VLV_STATUS_SCAN_BUSY 0 with vlv := { s.vlv with scanCol := none } }

/-- PULL_IN_REQUEST (R250, R251): the requested gate time of a valve's next pull-in comes. -/
def execPullInRequest (v : Nat) (s : State) : Host.Outcome State Fault Refusal :=
  .next (if s.resetting 5 then s else match s.nextPull v with
    | none => s
    | some p =>
      let s := (s.elapseDev p.req).endScan
      if !s.matrixOpen then s.noGate p Ef.notArmed
      else if s.valveDisabled v then s.noGate p Ef.disabled
      else (s.putPull { p with waits := true }).waitUpdate.grantPass (tick100 (max p.req (s.nowI - 9))))

/-- PULL_IN_START (R251): w ticks later, the waiting pull-in of a valve starts if its conditions hold. -/
def execPullInStart (v w : Nat) (s : State) : Host.Outcome State Fault Refusal :=
  .next (match s.waitingPull v with
    | none => s
    | some _ =>
      let s := s.elapse w
      s.grantPass (tick100 s.nowI))

/-- DEFERRAL_LIMIT (R252, Table 9-2): the conditions are those of the limit's own tick when the arbiter grants arrival, else those of the tick
before; a pull-in whose conditions hold starts as R251 says. -/
def execDeferralLimit (v : Nat) (arrive : Bool) (s : State) : Host.Outcome State Fault Refusal :=
  .next (if s.resetting 5 ∨ s.resetting 6 then s else match s.waitingPull v with
    | none => s
    | some p =>
      let t := p.req + 1000 * (s.get Reg.DRL_BOOST_DEFER_US : Int)
      let u := if arrive then (s.elapseDev t).grantPass t else
        let b := s.elapseDev (t - 100)
        b.grantPass (tick100 (b.nowI - 9))
      let s := u.elapseDev t
      match s.waitingPull v with
      | none => s
      | some q =>
        if q.owners.head? = p.owners.head? then
          s.startPull q t (!bit q.unmet Ef.deferGroup && !bit q.unmet Ef.deferEnergy && !s.boostLost v) (bit q.unmet Ef.deferColumn)
        else s)

/-- VBOOST_STALE (R253): no VBOOST result is newer than 100 ms. -/
def execVboostStale (s : State) : Host.Outcome State Fault Refusal :=
  .next (match s.fire Timer.boostStale with
    | none => s
    | some s => (s.put Reg.DRL_STATUS_VBOOST_STALE 1).setEnergy 0)

/-- A new VBOOST result without OVR, in mV (R253). -/
def State.vboostResult (s : State) (mv : Nat) : State :=
  let s := ({ s with drl := { s.drl with vboost := some mv } }).put Reg.DRL_STATUS_VBOOST_STALE 0
  (s.setEnergy (s.halfCv mv)).arm Timer.boostStale (msTicks 100)

/-- CLR_COUNTERS in DRL_CMD (Table 9-9). -/
def State.clearDrl (s : State) : State :=
  [Reg.DRL_DEFER, Reg.DRL_FALLBACK, Reg.DRL_TIMING, Reg.DRL_HEAT_CNT, Reg.DRL_FAST, Reg.DRL_RATE_HIGH].foldl (fun t a => t.setWord a 0) s

/-- DRL_CLR_COUNTERS (R247). -/
def execDrlClrCounters (s : State) : Host.Outcome State Fault Refusal := .next (s.host Reg.DRL_CMD (some s.clearDrl))

/-! ### What the drill learns (R243) -/

/-- LEAD_UPDATE: MOVE of a found dip, in 0.1 µs. -/
def State.leadUpdate (s : State) (v move : Nat) : State :=
  if !s.flag Reg.DRL_CTRL_LEARN_ON then s
  else
    let lead : Int := s.get (Reg.DRL_VALVE_LEAD v)
    let target : Int := (move : Int) + 10 * (s.get Reg.DRL_LEARN_AIR_US : Int)
    let new := lead + rhe (target - lead) (2 ^ s.get Reg.DRL_LEARN_LEAD_SHIFT)
    let c := s.leadClamp v new
    (s.put (Reg.DRL_VALVE_LEAD v) c).leadLimited v c (decide ((c : Int) ≠ new))

/-- CLOSED on every entry of a plan with a gate or a profile still to come. -/
def Plan.close (p : Plan) : Plan :=
  { p with entries := p.entries.map (fun e => if e.phase = .ended then e else { e.mark Ef.closed with phase := .ended }) }

/-- R258: the save sequence or a drill reset closes every entry with a gate or a profile still to come. -/
def State.closeAll (s : State) : State :=
  let owners := (s.liveSlots.filter (fun o => ((s.plan o).map (fun p => p.running)).getD false)) ++
    s.drl.fast.map (fun e => fastBase + e.1)
  let s := { s with
    drl := { s.drl with pulls := [] }, vlv := { s.vlv with acts := s.vlv.acts.map (fun (a : Act) => ({ a with owners := [] } : Act)) } }
  (owners.foldl (fun t o => (t.onPlan o Plan.close).closePlan o) s).waitUpdate

end Sys2Proof.Machine
end

