-- ==== Sys2Proof/Machine/Valve.lean ====
section
/-!
DEFINITION. The commands of the valve matrix (spec/10_valve_matrix.md): the phases of an actuation, dip search, open-load check,
faults, idle scan, enabling, ARM and the auxiliary channels. A valve number of 1,024 plus a channel names an auxiliary channel; a
column number of 64 plus a channel names its converter.
-/
namespace Sys2Proof.Machine

/-! ### Samples -/

/-- CURRENT of a column: the last unblanked sample, in mA. -/
def State.showCurrent (s : State) (c code : Nat) : State := s.putSat (Reg.VLV_COLUMN_CURRENT c) (rheQ (s.codeMa code)).toNat

/-- Group node voltage of a converter code in mV, exact (R265), and NODE. -/
def nodeMv (code : Nat) : Rat := ((code * 75000 : Nat) : Rat) / 4096
def State.showNode (s : State) (g code : Nat) : State := s.putSat (Reg.VLV_GROUP_NODE g) (rheQ (nodeMv code / 100)).toNat

/-- The band of a reading in mV (Table 10-2): 0 GROUND, 1 BIAS, 2 HOLD, 3 BOOST; none until both rails were read (R265). -/
def State.bandMv (s : State) (x : Rat) : Option Nat :=
  match s.vlv.vhold, s.drl.vboost with
  | some h, some _ =>
    if x < (h : Rat) / 4 then some 0 else if x ≤ 3 * (h : Rat) / 4 then some 1 else if x ≤ (h : Rat) + 3000 then some 2 else some 3
  | _, _ => none
def State.band (s : State) (code : Nat) : Option Nat := s.bandMv (nodeMv code)

/-! ### BOOST and HOLD (R268, R269, R273, R275) -/

/-- The target of one energised valve of a column: PEAK_MA in BOOST, HOLD_MA in HOLD and for a cross valve. -/
def State.targetMa (s : State) (v : Nat) : Nat :=
  match s.act v with
  | some a => if a.mode = 1 then peakMa a.prof else if a.mode = 2 then holdMa a.prof else 0
  | none => if s.crossValves.contains v then holdMa (s.valveProfile v) else 0

/-- The regulation target of a column: the sum over its energised valves. -/
def State.columnTarget (s : State) (c : Nat) : Nat := (s.energised c).foldl (fun n v => n + s.targetMa v) 0

/-- The auxiliary channel of a valve or column number above the matrix. -/
def State.auxOf (s : State) (k : Nat) : Option Aux := (s.vlv.aux.getD k none)
def State.putAux (s : State) (k : Nat) (a : Option Aux) : State := { s with vlv := { s.vlv with aux := s.vlv.aux.set k a } }

/-- STATE and AUX_FAULT fields of a channel. -/
def auxState (k : Nat) : Field := if k = 0 then Reg.VLV_AUX_STATUS_STATE0 else Reg.VLV_AUX_STATUS_STATE1
def auxFault (k : Nat) : Field := if k = 0 then Reg.VLV_AUX_STATUS_AUX_FAULT0 else Reg.VLV_AUX_STATUS_AUX_FAULT1

/-- Put a channel and show its state. -/
def State.setAux (s : State) (k : Nat) (a : Option Aux) : State :=
  if s.get (auxState k) = 4 then s else (s.putAux k a).put (auxState k) ((a.map (fun x => x.mode)).getD 0)

/-- The samples of a channel's on interval. -/
def Aux.sampled (a : Aux) (blank : Nat) (codes : List Nat) : Aux := { a with lastOn := (maxCode (codes.drop blank)).or a.lastOn }

/-- A channel enters DECAY (R270, R284), with the samples of a BOOST that ends so; with nothing energised it is idle. -/
def State.auxDecay (s : State) (k : Nat) (codes : List Nat) : State :=
  match s.auxOf k with
  | none => s
  | some a =>
    if a.mode = 3 then s
    else
      let a := if a.mode = 1 then a.sampled (blanked a.opened 0) codes else a
      let rel := match a.lastOn with
        | some n => s.relCode a.prof n
        | none => 0
      ((s.setAux k (some { a with mode := 3, release := s.nowI + 1000 * (rel : Int) })).putSwitch (64 + k) false).putChop (64 + k) none

/-- The same by a command that brings no samples. -/
def State.auxCut (s : State) (k : Nat) : State :=
  let n := match s.auxOf k with
    | some a => if a.mode = 1 then samplesTo a.gate s.nowI else 0
    | none => 0
  let r := s.unseen n
  r.1.auxDecay k r.2

/-- PEAK_REACHED (R269, R275): w ticks later the last sample, an unblanked one, reaches the target; every valve of the column in BOOST enters
HOLD, and the switch stays released until the next chopping period. -/
def execPeakReached (v w blank : Nat) (codes : List Nat) (s : State) : Host.Outcome State Fault Refusal :=
  .next (match codes.getLast? with
    | none => s
    | some n =>
      if 1024 ≤ v then
        match s.auxOf (v - 1024) with
        | some a => if a.mode = 1 ∧ blanked a.opened blank < codes.length ∧ (peakMa a.prof : Rat) ≤ s.codeMa n then
            ((s.elapse w).setAux (v - 1024) (some { a.sampled (blanked a.opened blank) codes with mode := 2 })).putSwitch (v - 960) false else s
        | none => s
      else match s.act v with
        | none => s
        | some a =>
          let c := columnOf v
          let blank := blanked a.opened blank
          if a.mode = 1 ∧ blank < codes.length ∧ (s.columnTarget c : Rat) ≤ s.codeMa n then
            (((((s.elapse w).change (fun t => (t.vlv.acts.filter (fun b => decide (columnOf b.valve = c ∧ b.mode = 1))).foldl (fun u b =>
              u.endBoost b.valve blank codes) t)).putSwitch c false).putChop c none).showCurrent c n)
          else s)

/-- A fault that is told (R280): VLV_LAST_FAULT, the part's FAULT field, VLV_FAULTS, the event, and but for PEAK_TIMEOUT the VALVE alert (log
entry 29). Targets: 0 valve, 1 column, 2 group, 3 AUX channel. -/
def State.faultTold (s : State) (code target index : Nat) : State :=
  let s := ((s.put Reg.VLV_LAST_FAULT_CODE code).put Reg.VLV_LAST_FAULT_TARGET target).put Reg.VLV_LAST_FAULT_INDEX index
  let s := if target = 0 then s.put (Reg.VLV_VALVE_FAULT index) code
    else if target = 1 then s.put (Reg.VLV_COLUMN_FAULT index) code
    else if target = 2 then s.put (Reg.VLV_GROUP_FAULT index) code
    else s.put (auxFault index) 1
  (if code = 0x10 then s.bump Reg.VLV_FAULTS_PEAK_TIMEOUT 1 else (s.bump Reg.VLV_FAULTS_FAULTS 1).put Reg.MPT_ALERT_VALVE 1).emit 0x0602 index
    (code + 256 * target)

/-- PEAK_TIMEOUT (Table 10-4): BOOST_MAX elapses without peak. -/
def execPeakTimeout (v blank : Nat) (codes : List Nat) (s : State) : Host.Outcome State Fault Refusal :=
  .next (if 1024 ≤ v then
      match s.auxOf (v - 1024) with
      | some a => if a.mode = 1 then
          let s := s.elapseDev (a.gate + boostMaxNs a.prof)
          ((s.setAux (v - 1024) (some { a.sampled (blanked a.opened blank) codes with mode := 2 })).putChop (v - 960) (some s.nowI)).faultTold 0x10 3
            (v - 1024) else s
      | none => s
    else match s.act v with
      | none => s
      | some a =>
        if a.mode = 1 then
          let s := s.elapseDev (a.gate + boostMaxNs a.prof)
          (s.change (fun t => t.endBoost v (blanked a.opened blank) codes)).faultTold 0x10 0 v
        else s)

/-- The chopping period of a profile in µs (R269): divided by FAST_MULT while its group is on VBOOST or shows BOOST_STUCK. -/
def chopUs (prof : List Word) (fast : Bool) : Rat :=
  let p : Rat := 1000 / (chopKhz prof : Rat)
  if fast then p / (fastMult prof : Rat) else p

/-- Whether a group chops fast. -/
def State.fastGroup (s : State) (g : Nat) : Bool := decide (s.groupDrive g = 2) || s.flag (Reg.VLV_GROUP_BOOST_STUCK g)

/-- The least of a list of rationals. -/
def minQ : List Rat → Rat
  | [] => 0
  | x :: xs => xs.foldl min x

/-- The profiles of the valves that share a column in BOOST, HOLD or as cross valves, with their groups. -/
def State.sharers (s : State) (c : Nat) : List (Nat × List Word) :=
  (s.vlv.acts.filter (fun a => decide (columnOf a.valve = c) && a.on)).map (fun a => (groupOf a.valve, a.prof)) ++
    (s.crossValves.filter (fun v => decide (columnOf v = c))).map (fun v => (groupOf v, s.valveProfile v))

/-- The period of a column (R269, R275): the shortest among its sharing valves, all divided when one of their groups chops fast. -/
def State.columnPeriod (s : State) (c : Nat) : Rat :=
  let l := s.sharers c
  minQ (l.map (fun p => chopUs p.2 (l.any (fun q => s.fastGroup q.1))))

/-- A list up to its first element that passes a test. -/
def upTo (p : Nat → Bool) : List Nat → List Nat
  | [] => []
  | x :: xs => if p x then [x] else x :: upTo p xs

/-- The unblanked samples of a chopping period's on interval (R269): up to the first at or above the target (mA), and none past 95 % of the
period (µs), the first of them 1.0 µs after the switch was asserted. -/
def State.onInterval (s : State) (target : Nat) (period : Rat) (codes : List Nat) : List Nat :=
  upTo (fun n => decide ((target : Rat) ≤ s.codeMa n)) (codes.take (((95 * period / 100 - 1) * 2).floor + 1).toNat)

/-- A chopping period ends: it began where the last one ended, or w ticks from now after a BOOST (log entry 87). -/
def State.chopEnd (s : State) (c w : Nat) (period : Rat) : State :=
  let stop := (Map.find s.vlv.chop c).getD (s.nowI + 10 * (w : Int)) + (1000 * period).ceil
  let s := s.elapseDev stop
  { s with vlv := { s.vlv with lsc := Map.insert s.vlv.lsc c (true, stop), chop := Map.insert s.vlv.chop c stop } }

/-- One chopping period of a holding valve: I²t from the mean of the first and last unblanked samples (R273), half of it on a shared
column, and raised by OVERLAP_PCT while another valve of the group is in BOOST (R255). -/
def State.chopAct (s : State) (a : Act) (period : Rat) (codes : List Nat) : Act :=
  match codes.head?, codes.getLast? with
  | some x, some y =>
    let m : Rat := (s.codeMa x + s.codeMa y) / 2000
    let e := m * m * period
    let e := if s.sharedCol (columnOf a.valve) then e / 2 else e
    let e := if s.groupDrive (groupOf a.valve) = 2 then e * ((100 + Config.overlapPct : Nat) : Rat) / 100 else e
    { a with i2t := a.i2t + e, lastOn := maxCode codes, lastShared := s.sharedCol (columnOf a.valve) }
  | _, _ => a

/-- CHOP_PERIOD (R269, R275): a chopping period of a column is over; `codes` are its unblanked samples for as long as the switch would stay
asserted, of which the regulation takes those up to the target or to 95 % of the period. -/
def execChopPeriod (c w : Nat) (codes : List Nat) (s : State) : Host.Outcome State Fault Refusal :=
  .next (if 64 ≤ c then
      match s.auxOf (c - 64) with
      | some a =>
        let p := chopUs a.prof false
        if a.mode = 2 then (s.chopEnd c w p).setAux (c - 64) (some (a.sampled 0 (s.onInterval (holdMa a.prof) p codes))) else s
      | none => s
    else
      let l := s.vlv.acts.filter (fun a => decide (columnOf a.valve = c) && a.on)
      if l.isEmpty ∨ l.any (fun a => decide (a.mode = 1)) then s
      else
        let p := s.columnPeriod c
        let codes := s.onInterval (s.columnTarget c) p codes
        let t := s.chopEnd c w p
        let t := l.foldl (fun u a => u.putAct { s.chopAct a p codes with seen := t.nowI }) t
        match codes.getLast? with
        | some n => t.showCurrent c n
        | none => t)

/-! ### The dip (R272) -/

/-- The running search. -/
structure DipSearch where
  top   : Option Rat
  low   : Option (Rat × Int)
  fall  : Bool
  found : Bool
  deriving DecidableEq, Repr

/-- One sample of the search: its smoothed current and its time after the gate. -/
def DipSearch.step (d : DipSearch) (depth : Rat) (x : Rat) (t : Int) : DipSearch :=
  if d.found then d
  else
    let top := match d.top with
      | some m => max m x
      | none => x
    let fall := d.fall || decide (x < top - depth)
    let low := if fall then (match d.low with
      | some (m, u) => if x < m then some (x, t) else some (m, u)
      | none => some (x, t)) else d.low
    let found := fall && (match low with
      | some (m, _) => decide (m + depth / 2 ≤ x)
      | none => false)
    { top := some top, low := low, fall := fall, found := found }

/-- The search over the unblanked samples: the means of four, from the window's opening to its end. -/
def State.dipSearch (s : State) (w : List Word) (first : Nat) (codes : List Nat) : DipSearch :=
  (List.range codes.length).foldl (fun d i =>
    let t : Int := (first + 500 * i : Nat)
    if 3 ≤ i ∧ dipStartNs w ≤ t ∧ t ≤ dipEndNs w then
      d.step (dipDepthMa w : Rat) (((codes.drop (i - 3)).take 4).foldl (fun (x : Rat) n => x + s.codeMa n / 4) 0) t
    else d) { top := none, low := none, fall := false, found := false }

/-- DIP_FOUND (R272, R243): w ticks later; the unblanked samples start `first` ns after the gate edge. -/
def execDipFound (v w first : Nat) (codes : List Nat) (s : State) : Host.Outcome State Fault Refusal :=
  .next (match s.act v with
    | none => s
    | some a =>
      if a.mode = 1 ∧ dipEn a.prof ∧ a.dip = none ∧ !s.sharedCol (columnOf v) then
        match (s.dipSearch a.prof first codes).found, (s.dipSearch a.prof first codes).low with
        | true, some (_, t) =>
          let mv := (rhe t 100).toNat
          let s := ((s.elapse w).putAct { a with dip := some mv }).onEntries a.owners (fun e => { e.mark Ef.dipFound with move := some mv })
          ((s.put (Reg.VLV_LAST_MOVE v) mv).bump Reg.VLV_DIP_FOUND_COUNT 1).leadUpdate v mv
        | _, _ => s
      else s)

/-! ### Disabling (R280) -/

/-- The counts of disabled parts, and what the valves show. -/
def State.disUpdate (s : State) (vs : List Nat) : State :=
  let s := vs.foldl (fun t v => (t.showValve v).putFlag (Reg.DRL_VALVE_DISABLED v) (t.valveDisabled v)) s
  ((s.put Reg.VLV_STATUS_GROUPS_DIS ((List.range 16).filter (fun g => s.flag (Reg.VLV_GROUP_DISABLED g))).length).put
    Reg.VLV_STATUS_COLS_DIS ((List.range 64).filter (fun c => s.flag (Reg.VLV_COLUMN_DISABLED c))).length).put
    Reg.VLV_STATUS_VALVES_DIS ((List.range 1024).filter s.valveDisabled).length

/-- A running actuation is ended by a fault: its entries keep FIRED and gain DISABLED, and its decay time runs (Table 10-4). -/
def State.endByFault (s : State) (v : Nat) : State :=
  match s.act v with
  | none => s
  | some a => if a.on then (s.endOn v).markEntries a.owners Ef.disabled else s

/-- The valves of a group and of a column. -/
def groupValves (g : Nat) : List Nat := (List.range 64).map (fun c => 64 * g + c)
def columnValves (c : Nat) : List Nat := (List.range 16).map (fun g => 64 * g + c)

/-- Disable parts: the change f marks them, the actuations of the valves named end, and held valves leave that now can (R276). -/
def State.disable (s : State) (f : State → State) (vs : List Nat) : State :=
  ((s.change (fun t => (vs.foldl (fun u v => u.endByFault v) (f t)).leaveAll (t.vlv.acts.length + 1))).disUpdate vs).armCheck

def State.disableValve (s : State) (v : Nat) : State :=
  s.disable (fun t => { t with vlv := { t.vlv with valveDis := insertNat v t.vlv.valveDis } }) [v]
def State.disableColumn (s : State) (c : Nat) : State := s.disable (fun t => t.put (Reg.VLV_COLUMN_DISABLED c) 1) (columnValves c)
def State.disableGroup (s : State) (g : Nat) : State := s.disable (fun t => t.put (Reg.VLV_GROUP_DISABLED g) 1) (groupValves g)

/-- Pull-ins that wait make no gate and end NOT_ARMED (R281, R283). -/
def State.dropWaiting (s : State) : State := s.waiting.foldl (fun t p => t.noGate p Ef.notArmed) s

/-- MATRIX_STOP (R281). -/
def State.matrixStop (s : State) : State :=
  if s.flag Reg.VLV_CTRL_STUCK_STOP then ((s.allLow.setEnabled false).put Reg.VLV_STATUS_STOPPED 1).dropWaiting else s

/-- OPEN_LOAD_CHECK (R278, R280): two consecutive samples of the column and one of the group at the gate edge plus OPEN_US. -/
def execOpenLoadCheck (v : Nat) (codes : Nat × Nat) (gsn : Nat) (s : State) : Host.Outcome State Fault Refusal :=
  .next (match s.act v with
    | none => s
    | some a =>
      let c := columnOf v
      let g := groupOf v
      if a.on ∧ !s.sharedCol c then
        let s := ((s.elapseDev (a.gate + 1000 * (openUs a.prof : Int))).showCurrent c codes.2).showNode g gsn
        let right := decide (s.band gsn = some (s.groupDrive g + 1))
        if right ∧ s.codeMa codes.1 < (openMa a.prof : Rat) ∧ s.codeMa codes.2 < (openMa a.prof : Rat) then
          let n := Nat.min 15 (s.get (Reg.VLV_VALVE_OPEN_RUN v) + 1)
          let s := (s.put (Reg.VLV_VALVE_OPEN_RUN v) n).faultTold 1 0 v
          let other := match Map.find s.vlv.openCols c with
            | some h => decide (h ≠ g)
            | none => false
          let s := { s with vlv := { s.vlv with openCols := Map.insert s.vlv.openCols c g } }
          let s := if s.get Reg.VLV_CTRL_VALVE_OPEN_N ≤ n then s.disableValve v else s
          if other then (s.faultTold 2 1 c).disableColumn c else s
        else if right then
          { s.put (Reg.VLV_VALVE_OPEN_RUN v) 0 with vlv := { s.vlv with openCols := Map.erase s.vlv.openCols c } }
        else s
      else s)

/-- ACTUATION_END (R270, R276): the planned end comes; the samples are those of a BOOST that it ends. -/
def execActuationEnd (v blank : Nat) (codes : List Nat) (s : State) : Host.Outcome State Fault Refusal :=
  .next (match s.act v with
    | none => s
    | some a =>
      if a.on ∧ !a.heldPast then
        let s := s.elapseDev a.stop
        (if a.mode = 1 then s.change (fun t => t.endBoost v (blanked a.opened blank) codes) else s).leave
      else s)

/-- VALVE_RELEASED (R268, R487): t_rel elapses. -/
def execValveReleased (v : Nat) (s : State) : Host.Outcome State Fault Refusal :=
  .next (if 1024 ≤ v then
      match s.auxOf (v - 1024) with
      | some a => if a.mode = 3 then (s.elapseDev a.release).setAux (v - 1024) none else s
      | none => s
    else match s.act v with
      | some a => match a.release with
        | some r => ((s.elapseDev r).change (fun t => t.dropAct v)).endEntries a.owners
        | none => s
      | none => match s.vlv.crossRel.find? (fun e => decide (e.1 = v)) with
        | some e => (s.elapseDev e.2).change (fun t =>
            { t with vlv := { t.vlv with crossRel := t.vlv.crossRel.filter (fun x => decide (x.1 ≠ v)) } })
        | none => s)

/-! ### Faults and the scan (R278–R282) -/

/-- The off-state fault of a group reading: GRP_GROUND_OFF, GRP_HOLD_OFF, GRP_BOOST_OFF. -/
def offFault : Option Nat → Option Nat
  | some 0 => some 0x0A
  | some 2 => some 0x0B
  | some 3 => some 0x0C
  | _ => none

/-- The fault that a commanded group state and a band make (Table 10-7). -/
def groupFaultOf (drive : Nat) (b : Option Nat) : Option Nat :=
  if drive = 0 then offFault b
  else match b with
    | some 0 => some 0x06
    | some 1 => some 0x07
    | some 3 => if drive = 1 then some 0x08 else none
    | some 2 => if drive = 2 then some 0x09 else none
    | _ => none

/-- A group fault and its action. -/
def State.groupFault (s : State) (code g : Nat) : State :=
  let s := s.faultTold code 2 g
  if code = 0x08 then s.put (Reg.VLV_GROUP_BOOST_STUCK g) 1
  else if code = 0x09 then s.put (Reg.VLV_GROUP_BOOST_LOST g) 1
  else
    let s := s.disableGroup g
    if code = 0x0B ∨ code = 0x0C then s.matrixStop else s

/-- A column fault and its action. -/
def State.columnFault (s : State) (code c : Nat) : State :=
  let s := (s.faultTold code 1 c).disableColumn c
  if code = 0x04 then s.matrixStop else s

/-- An AUX fault and its action (AUX_OPEN lets the profile run on). -/
def State.auxFaulted (s : State) (code k : Nat) : State :=
  let s := s.faultTold code 3 k
  if code = 0x0D then s else ((((s.disarm (Timer.auxEnd k)).putAux k none).put (auxState k) 4).putSwitch (64 + k) false).putChop (64 + k) none

/-- Whether a switch has been asserted so long that two consecutive samples are unblanked (R264), or released for 2 µs before two samples;
between the on interval of a chopping period and its end it is released too. -/
def State.switchOn (s : State) (c : Nat) : Bool := (s.switch c).1 && decide ((s.switch c).2 + 1500 ≤ s.nowI)
def State.switchOff (s : State) (c : Nat) : Bool :=
  (!(s.switch c).1 || (Map.find s.vlv.chop c).isSome) && decide ((s.switch c).2 + 2500 ≤ s.nowI)

/-- Whether a group's command was stable for 5 µs, or 50 µs when off, before two consecutive samples (R278). -/
def State.groupStable (s : State) (g : Nat) : Bool :=
  decide (s.vlv.groupAt.getD g 0 + (if s.groupDrive g = 0 then 52000 else 7000) ≤ s.nowI)

/-- Whether two consecutive samples meet the condition of a fault code (R278, Table 10-7). -/
def State.faultMet (s : State) (code index c1 c2 : Nat) : Bool :=
  let sc : Rat := (s.get Reg.VLV_DIAG_SC_MA : Rat)
  let leak : Rat := (s.get Reg.VLV_DIAG_LEAK_MA : Rat)
  let hi := fun (x : Rat) => decide (x ≤ s.codeMa c1 ∧ x ≤ s.codeMa c2)
  if code = 0x03 then decide (index < 64) && s.switchOn index && hi sc
  else if code = 0x04 then decide (index < 64) && s.switchOff index && (List.range 16).any (fun g => decide (s.groupDrive g ≠ 0)) && hi leak
  else if 6 ≤ code ∧ code ≤ 0x0C then
    decide (index < 16) && s.groupStable index && decide (groupFaultOf (s.groupDrive index) (s.band c1) = some code) &&
      decide (groupFaultOf (s.groupDrive index) (s.band c2) = some code)
  else match s.auxOf index with
    | some a =>
      if code = 0x0D then decide (a.mode ≠ 3 ∧ a.gate + 1000 * (openUs a.prof : Int) ≤ s.nowI ∧ s.codeMa c1 < (openMa a.prof : Rat) ∧
        s.codeMa c2 < (openMa a.prof : Rat))
      else if code = 0x0E then decide (a.mode ≠ 3) && s.switchOn (64 + index) && hi sc
      else decide (code = 0x0F) && s.switchOff (64 + index) && hi leak
    | none => decide (code = 0x0F ∧ index < 2) && s.switchOff (64 + index) && hi leak

/-- VALVE_FAULT (R280): w ticks later two consecutive samples of a sense converter meet the condition of a fault code. -/
def execValveFault (w code index : Nat) (codes : Nat × Nat) (s : State) : Host.Outcome State Fault Refusal :=
  .next (
    let s := s.elapse w
    if s.faultMet code index codes.1 codes.2 then
      if code ≤ 5 then (s.showCurrent index codes.2).columnFault code index
      else if code ≤ 0x0C then (s.showNode index codes.2).groupFault code index
      else ({ s with vlv := { s.vlv with auxCode := s.vlv.auxCode.set index codes.2 } }).auxFaulted code index
    else s)

/-- Whether the idle scan may start (R279): a gate request that waits would end it at once. -/
def State.scanReady (s : State) : Bool :=
  s.vlv.scanCol.isNone && s.waiting.isEmpty && s.flag Reg.VLV_CTRL_SCAN_ON && s.flag Reg.VLV_STATUS_ENABLED && s.vlv.acts.isEmpty && s.vlv.crossRel.isEmpty &&
  decide (s.vlv.idleSince + usTicks (10 * s.get Reg.VLV_SCAN_SCAN_IDLE) ≤ s.time.ticks) &&
  (match s.vlv.lastScan with
   | some t => decide (t + msTicks (s.get Reg.VLV_SCAN_SCAN_PERIOD) ≤ s.time.ticks)
   | none => true)

/-- The off-state check of one group, from two consecutive samples. -/
def State.scanGroup (s : State) (g : Nat) (p : Nat × Nat) : State :=
  let s := s.showNode g p.2
  match offFault (s.band p.1) with
  | some f => if offFault (s.band p.2) = some f ∧ !s.flag (Reg.VLV_GROUP_DISABLED g) then s.groupFault f g else s
  | none => s

/-- Step 1 of the idle scan: every group is read with all commands low; the columns follow unless a group shows HOLD or BOOST. -/
def State.scanGroups (s : State) (gsn : List (Nat × Nat)) : State :=
  let lit := gsn.any (fun p => decide (s.band p.2 = some 2 ∨ s.band p.2 = some 3))
  let s := (List.range gsn.length).foldl (fun t g => t.scanGroup g (gsn.getD g (0, 0)))
    { s with vlv := { s.vlv with lastScan := some s.time.ticks } }
  if lit then s else { s.put Reg.VLV_STATUS_SCAN_BUSY 1 with vlv := { s.vlv with scanCol := some 0 } }

/-- Step 2 for the column whose turn it is: asserted for 2 µs; its highest sample. After the last column the scan is over. -/
def State.scanColumn (s : State) (code : Nat) : State :=
  match s.vlv.scanCol with
  | none => s
  | some c =>
    let s := (s.elapse (usTicks 2)).showCurrent c code
    let s := if (s.get Reg.VLV_DIAG_SC_MA : Rat) ≤ s.codeMa code ∧ !s.flag (Reg.VLV_COLUMN_DISABLED c) then s.columnFault 0x05 c else s
    if 63 ≤ c then s.endScan else { s with vlv := { s.vlv with scanCol := some (c + 1) } }

/-- IDLE_SCAN (R279): w ticks later the scan starts, with two samples of each group, or goes on; then the highest samples of as many columns
as it comes to before the next command. -/
def execIdleScan (w : Nat) (gsn : List (Nat × Nat)) (cols : List Nat) (s : State) : Host.Outcome State Fault Refusal :=
  .next (
    let s := s.elapse w
    cols.foldl State.scanColumn (if s.scanReady then s.scanGroups gsn else s))

/-- Whether the off-state fault of a part is still present (R282), by its last sample. -/
def State.stillPresent (s : State) (target index : Nat) : Bool :=
  if target = 1 then
    let f := s.get (Reg.VLV_COLUMN_FAULT index)
    let i := s.get (Reg.VLV_COLUMN_CURRENT index)
    (decide (f = 4 ∧ s.get Reg.VLV_DIAG_LEAK_MA ≤ i) && (List.range 16).any (fun g => decide (s.groupDrive g ≠ 0))) ||
      decide (f = 5 ∧ s.get Reg.VLV_DIAG_SC_MA ≤ i)
  else if target = 2 then
    let f := s.get (Reg.VLV_GROUP_FAULT index)
    decide (s.groupDrive index = 0 ∧ 0x0A ≤ f ∧ f ≤ 0x0C ∧
      offFault (s.bandMv (100 * (s.get (Reg.VLV_GROUP_NODE index) : Rat))) = some f)
  else if target = 3 then
    decide (s.get (auxState index) = 4 ∧ (s.get Reg.VLV_DIAG_LEAK_MA : Rat) ≤ s.codeMa (s.vlv.auxCode.getD index 0))
  else false

/-- How many parts a target has. -/
def targetSize (t : Nat) : Nat := [1024, 64, 16, 2].getD t 0

/-- ENABLE of one part (R282). -/
def State.hostEnable (s : State) (target index : Nat) : Option State :=
  if targetSize target ≤ index ∨ s.stillPresent target index then none
  else if target = 0 then
    some (({ s with vlv := { s.vlv with valveDis := s.vlv.valveDis.filter (fun v => decide (v ≠ index)) } }.put (Reg.VLV_VALVE_FAULT index) 0).disUpdate
      [index])
  else if target = 1 then
    some (((s.put (Reg.VLV_COLUMN_DISABLED index) 0).put (Reg.VLV_COLUMN_FAULT index) 0).disUpdate (columnValves index))
  else if target = 2 then
    some (((((s.put (Reg.VLV_GROUP_DISABLED index) 0).put (Reg.VLV_GROUP_FAULT index) 0).put (Reg.VLV_GROUP_BOOST_LOST index) 0).put
      (Reg.VLV_GROUP_BOOST_STUCK index) 0).disUpdate (groupValves index))
  else
    let s := s.put (auxFault index) 0
    some (if s.get (auxState index) = 4 then s.put (auxState index) 0 else s)

/-- The counters VLV_DIP_FOUND to VLV_SHARE_EXT (Table 10-11). -/
def State.clearVlv (s : State) : State :=
  [Reg.VLV_DIP_FOUND, Reg.VLV_DIP_MISS, Reg.VLV_FAULTS, Reg.VLV_SHARE_EXT].foldl (fun t a => t.setWord a 0) s

/-- A write of VLV_CMD (Table 10-11). -/
def State.hostVlvCmd (s : State) (w : Nat) : Option State :=
  let a := bits w 0 2
  if a = 1 then s.hostEnable (bits w 2 2) (bits w 4 10)
  else if a = 2 then some (s.put Reg.VLV_STATUS_STOPPED 0)
  else if a = 3 then some s.clearVlv
  else some s

/-- VALVE_ENABLE (R282), with the part's off-state sample at the command. -/
def execValveEnable (target index code : Nat) (s : State) : Host.Outcome State Fault Refusal :=
  .next (
    let t := if target = 1 then s.showCurrent index code else if target = 2 then s.showNode index code
      else if target = 3 then { s with vlv := { s.vlv with auxCode := s.vlv.auxCode.set index code } } else s
    let t := if index < targetSize target then t else s
    t.host Reg.VLV_CMD (t.hostEnable target index))

/-- MATRIX_RESUME (R281). -/
def execMatrixResume (s : State) : Host.Outcome State Fault Refusal := .next (s.host Reg.VLV_CMD (s.hostVlvCmd 2))

/-- VLV_CLR_COUNTERS (Table 10-11). -/
def execVlvClrCounters (s : State) : Host.Outcome State Fault Refusal := .next (s.host Reg.VLV_CMD (s.hostVlvCmd 3))

/-- ARM_ASSERT (R51): the matrix is enabled at the next line boundary at which R51 holds. -/
def execArmAssert (s : State) : Host.Outcome State Fault Refusal := .next { s with pwr := { s.pwr with arm := true } }

/-- ARM_DEASSERT (R283): no new gates; the matrix stays enabled while actuations run. -/
def execArmDeassert (s : State) : Host.Outcome State Fault Refusal :=
  .next (({ s with pwr := { s.pwr with arm := false } }).dropWaiting.armCheck)

/-! ### Auxiliary channels (R284, R285) -/

/-- Run a profile on a channel for a time (0: until the next command); AUX0's starts are counted (Table 14-4). From the save sequence on the
outputs stay low (R261). -/
def State.auxRun (s : State) (k second ms : Nat) : State :=
  if s.get (auxState k) = 4 ∨ s.cfg.stage ≠ .running then s
  else
    let p := s.profile (16 + 2 * k + second)
    let s := s.disarm (Timer.auxEnd k)
    if peakMa p = 0 ∧ holdMa p = 0 then s.auxCut k
    else
      let s := ((s.setAux k (some { mode := 1, prof := p, opened := !(s.switch (64 + k)).1, gate := s.nowI, release := 0, lastOn := none })).putSwitch
        (64 + k) true).putChop (64 + k) none
      let s := if k = 0 then s.bumpCounter 1028 1 else s
      if ms = 0 then s else s.arm (Timer.auxEnd k) (msTicks ms)

/-- A write of VLV_AUX_CMD: AUX0 belongs to the shutter sequence, AUX1 to the auxiliary drive function (R285). -/
def State.hostAux (s : State) (w : Nat) : Option State :=
  if bits w 0 1 = 0 ∨ !s.ownsAll 8 then none else some (s.auxRun 1 (bits w 1 1) (bits w 16 16))

/-- AUX_COMMAND (R284, R285). -/
def execAuxCommand (value : Nat) (s : State) : Host.Outcome State Fault Refusal := .next (s.host Reg.VLV_AUX_CMD (s.hostAux value))

/-- AUX_DURATION_END (R284), with the samples of a BOOST that it ends. -/
def execAuxDurationEnd (x : ChannelSamples) (s : State) : Host.Outcome State Fault Refusal :=
  .next (match s.fire (Timer.auxEnd x.channel) with
    | none => s
    | some s => s.auxDecay x.channel x.codes)

end Sys2Proof.Machine
end

