-- ==== Sys2Proof/Machine/Judge.lean ====
section
/-!
DEFINITION. What judging does with sheaves (spec/08_aster_classifier.md R225–R235): slot selection, queueing, outcomes, deadlines,
engine faults and reruns; and lost sheaf-store entries (spec/07_sheaf_tracking.md R202, spec/18_faults_resets.md R449).
-/
namespace Sys2Proof.Machine

/-! ### Engines -/

def State.engine (s : State) (e : Nat) : Engine := s.ast.engines.getD e Engine.reset
def State.putEngine (s : State) (e : Nat) (x : Engine) : State := { s with ast := { s.ast with engines := s.ast.engines.set e x } }
def State.engState (s : State) (e : Nat) : Nat := s.get (Reg.AST_ENG_STATE e)

/-- The engine that runs a sheaf. -/
def State.runner (s : State) (slot : Nat) : Option Nat :=
  (List.range 16).find? (fun e => decide (s.engState e = 1 ∧ (s.engine e).sheaf = some slot))

/-- An engine is idle again. -/
def State.freeEngine (s : State) (e : Nat) : State :=
  let s := s.putEngine e { s.engine e with sheaf := none }
  if s.engState e = 1 then s.put (Reg.AST_ENG_STATE e) 0 else s

/-! ### Outcomes (R229, R231, Table 8-7) -/

/-- What ends a run: status, verdict (3 for none), class, feature words, cycles, engine (0xFF: none ran). -/
structure RunEnd where
  status  : Nat
  verdict : Nat
  klass   : Nat
  feats   : List Word
  cycles  : Nat
  engine  : Nat
  deriving DecidableEq, Repr

/-- A run end that is not OK: no verdict, class 0xFF, feature words 0. -/
def RunEnd.bad (status cycles engine : Nat) : RunEnd := ⟨status, 3, 0xFF, List.replicate 4 0, cycles, engine⟩

/-- The counters of an outcome (Table 8-16) and ASTER_PROG_FAULT. -/
def State.countOutcome (s : State) (x : Sheaf) (r : RunEnd) : State :=
  let slot := (x.bound.map (fun b => b.slot)).getD 0
  let told := fun (t : State) => t.emit 0x0501 slot (r.status + x.seq % 2 ^ 56 * 256)
  let s := match r.status with
    | 0 => if s.get Reg.AST_CYCLES_MAX_CYCLES < r.cycles then (s.put Reg.AST_CYCLES_MAX_CYCLES r.cycles).put Reg.AST_CYCLES_MAX_SLOT slot else s
    | 1 => s.bump Reg.AST_FAULT_TIME_NO_PROGRAM 1
    | 2 => told (s.bump Reg.AST_FAULT_PROG_BUDGET 1)
    | 3 => told (s.bump Reg.AST_FAULT_PROG_ADDR 1)
    | 4 => told (s.bump Reg.AST_FAULT_PROG_MEM 1)
    | 5 => s.bump Reg.AST_FAULT_TIME_DEADLINE 1
    | _ => s.bump Reg.AST_FAULT_TIME_ENGINE 1
  let us := (rhe ((s.now - x.tSeal : Nat) : Int) 1000).toNat
  if s.get Reg.AST_LATE_US < us then s.putSat Reg.AST_LATE_US us else s

/-- An outcome is written: disposition, judging fields, and the next state of Table 7-6 with the plan of an ejection (R245). -/
def State.outcome (s : State) (slot : Nat) (r : RunEnd) : State :=
  match s.sheaf slot with
  | none => s
  | some x =>
    let dflt := decide (r.status ≠ 0 ∨ r.verdict = 3)
    let disp := if dflt then s.get Reg.TRK_CTRL_DEFAULT_DISP else r.verdict
    let y := { x with
      verdict := r.verdict, disp := disp, klass := r.klass, status := r.status, cycles := r.cycles, feats := r.feats, engine := r.engine,
      tOutcome := s.now, state := if disp = 0 then 4 else 5 }
    let s := (((s.putSheaf y).disarm (Timer.deadline slot)).countOutcome x r).queueUpdate
    if disp = 0 then s.reachDone slot else s.makePlan slot (decide (disp = 2)) dflt

/-- A run ends with an outcome, and its engine is free. -/
def State.endRun (s : State) (e slot : Nat) (r : RunEnd) : State := ((s.freeEngine e).outcome slot r)

/-! ### Slot selection and queueing (R226, R230) -/

/-- Whether a rule matches a sheaf. -/
def State.ruleMatches (s : State) (r : Nat) (x : Sheaf) : Bool :=
  s.flag (Reg.AST_RULE_EN r) && s.flag (if x.ctx.pol = 0 then Reg.AST_RULE_HOT r else Reg.AST_RULE_COLD r) &&
    decide (s.get (Reg.AST_RULE_REQ r) &&& x.ctx.flags = s.get (Reg.AST_RULE_REQ r)) &&
    decide (4 * s.get (Reg.AST_RULE_MIN_AREA r) ≤ x.area)

/-- The slot of a sheaf: the first matching rule's, else DEFAULT_SLOT. -/
def State.slotOf (s : State) (x : Sheaf) : Nat :=
  match (List.range 4).find? (fun r => s.ruleMatches r x) with
  | some r => s.get (Reg.AST_RULE_SLOT r)
  | none => s.get Reg.AST_SELECT_DEFAULT_SLOT

/-- A slot's descriptor as it stands. -/
def State.binding (s : State) (n : Nat) : Binding :=
  { slot := n, area := s.get (Reg.AST_SLOT_PROG_AREA n), len := s.get (Reg.AST_SLOT_PROG_LEN n), budget := s.get (Reg.AST_SLOT_LIM_BUDGET n),
    deadlineUs := s.get (Reg.AST_SLOT_LIM_DEADLINE_US n), dbase := s.get (Reg.AST_SLOT_DBASE_DATA_BASE n),
    dlen := s.get (Reg.AST_SLOT_DLEN_DATA_LEN n) }

/-- Arm the deadline of a sheaf at a device time. -/
def State.armDeadline (s : State) (slot : Nat) (d : Int) : State := s.armDev (Timer.deadline slot) d

/-- A sheaf enters QUEUED for the first time: it binds to its slot; an empty slot ends it with NO_PROGRAM (R226, R230, R231). -/
def State.queueSheaf (s : State) (slot : Nat) : State :=
  match s.sheaf slot with
  | none => s
  | some x =>
    let b := s.binding (s.slotOf x)
    let d : Int := (x.tSeal : Int) + 1000 * (b.deadlineUs : Int)
    let d := match x.plan.latest with
      | some l => min d l
      | none => d
    let s := s.putSheaf { x with state := 3, bound := some b, deadline := some d }
    if b.len = 0 then s.outcome slot (RunEnd.bad 1 0 0xFF)
    else (s.armDeadline slot d).queueUpdate

/-! ### Engine faults (R232–R234) -/

/-- The working-engine count, and degradation (R442). -/
def State.workingUpdate (s : State) : State :=
  let n := 16 - popCount (s.get Reg.AST_STATUS_FAILED) 16
  let s := s.accrue
  let s := s.put Reg.AST_STATUS_WORKING n
  if n < 16 then s.degrade 2 else s

/-- An engine is declared failed: cause 1 stall, 2 fault limit, 3 self-test. -/
def State.failEngine (s : State) (e cause : Nat) : State :=
  let s := s.put Reg.AST_STATUS_FAILED (setBit (s.get Reg.AST_STATUS_FAILED) e true)
  let s := ((s.put (Reg.AST_ENG_STATE e) 3).put (Reg.AST_ENG_RATE e) 0).emit 0x0502 e cause
  (s.setDomain (9 + e) 0).workingUpdate

/-- One more fault of an engine; whether it is then declared failed (a stall always; else ENG_ERR_LIMIT faults within 1 s). -/
def State.countFault (s : State) (e cause : Nat) : State :=
  let x := s.engine e
  let recent := s.time.ticks :: x.faults.filter (fun t => decide (s.time.ticks < t + msTicks 1000))
  let s := (s.putEngine e { x with faults := recent, sheaf := none }).bump (Reg.AST_ENG_FAULTS e) 1
  if cause = 1 ∨ s.get Reg.AST_CTRL_ENG_ERR_LIMIT ≤ recent.length then s.failEngine e cause
  else s.put (Reg.AST_ENG_STATE e) 0

/-- A run is discarded by an engine fault: the sheaf is queued again, or ends with status ENGINE (R234). -/
def State.runFault (s : State) (e cause : Nat) : State :=
  let x := s.engine e
  let s := s.countFault e cause
  match x.sheaf with
  | none => s
  | some slot => match s.sheaf slot with
    | none => s
    | some y =>
      let budget := (y.bound.map (fun b => b.budget)).getD 0
      let fits : Bool := match y.deadline with
        | some d => decide (2 * (s.nowI + 500) + 5 * (budget : Int) ≤ 2 * d)
        | none => true
      if y.reruns < s.get Reg.AST_CTRL_RERUN_MAX ∧ fits then
        ((s.putSheaf { y with state := 3, used := e :: y.used, reruns := y.reruns + 1 }).bump Reg.AST_RERUNS_COUNT 1).queueUpdate
      else s.outcome slot (RunEnd.bad 6 x.cycles e)

/-! ### Lost entries (R202, R449) -/

/-- Entries of a plan change owner. -/
def reown (o n : Nat) (l : List (Nat × Nat)) : List (Nat × Nat) := l.map (fun p => if p.1 = o then (n, p.2) else p)

/-- The drill keeps the plan of a lost sheaf under an owner of its own. -/
def State.keepPlan (s : State) (slot : Nat) (p : Plan) : State :=
  let n := fastBase + 1024 + slot
  { s with
    drl := { s.drl with fast := Map.insert s.drl.fast (1024 + slot) p, pulls := s.drl.pulls.map (fun (q : PullIn) => { q with owners := reown slot n q.owners }) }
    vlv := { s.vlv with acts := s.vlv.acts.map (fun (a : Act) => { a with owners := reown slot n a.owners }) } }

/-- The body of a lost-entry record (Table 18-6). -/
def lostBody (t slot word path disp copies : Nat) : List Byte :=
  leBytes 8 t ++ leBytes 2 slot ++ leBytes 2 word ++ leBytes 1 path ++ leBytes 1 disp ++ leBytes 1 copies ++ List.replicate 205 0

/-- SHADOW_LIVE (Table 7-15). -/
def State.shadowUpdate (s : State) : State :=
  s.putSat Reg.TRK_SHADOW_SHADOW_LIVE (s.trk.shadows.filter (fun x => !x.silent)).length

/-- A shadow at its place by age: the oldest stands first. -/
def insertShadow (x : Shadow) : List Shadow → List Shadow
  | [] => [x]
  | y :: ys => if x.ctx.age < y.ctx.age then x :: y :: ys else y :: insertShadow x ys

/-- SHEAF_ENTRY_LOST: both copies of a word failed. -/
def State.loseSheaf (s : State) (slot word copies : Nat) : State :=
  match s.sheaf slot with
  | none => s
  | some x =>
    let dflt := s.get Reg.TRK_CTRL_DEFAULT_DISP
    let path := if x.state = 1 then 0 else if 5 ≤ x.state then 2 else 1
    let disp := if 5 ≤ x.state then x.disp else dflt
    let s := match s.runner slot with
      | some e => s.freeEngine e
      | none => s
    let s := { s.disarm (Timer.deadline slot) with trk := { s.trk with lostOnes := s.trk.lostOnes ++ [(⟨x.seq, lostBody s.now slot word path disp copies⟩ : LostEntry)] } }
    let s := (s.bump Reg.TRK_COPY_LOST 1).emit 0x0403 slot x.seq
    let s := if x.state = 1 then ({ s with trk := { s.trk with shadows := insertShadow ⟨false, x.ctx⟩ s.trk.shadows } }).shadowUpdate
      else if x.state = 5 then s.keepPlan slot x.plan
      else s
    let s := (s.freeSheaf slot).queueUpdate
    if path = 1 ∧ dflt = 1 then
      ({ s with drl := { s.drl with fast := Map.insert s.drl.fast (1024 + slot) x.plan } }).makePlan (fastBase + 1024 + slot) false true
    else s

/-- Whether a sheaf-store copy has been declared failed. -/
def State.copyFailed (s : State) (k : Nat) : Bool := s.flag (if k = 0 then Reg.TRK_STATUS_COPY0_FAILED else Reg.TRK_STATUS_COPY1_FAILED)

/-- One uncorrectable word of a copy: counted; after 64 the copy is declared failed, and written no more (R202; log entry 82). -/
def State.countCopyErr (s : State) (k : Nat) : State :=
  let n := s.trk.copyErr.getD k 0 + 1
  let s := { s with trk := { s.trk with copyErr := s.trk.copyErr.set k n } }
  if n = 64 ∧ !s.copyFailed k then
    let s := { s with trk := { s.trk with held := s.trk.held.set k (some s.trk.sheaves) } }
    ((s.put (if k = 0 then Reg.TRK_STATUS_COPY0_FAILED else Reg.TRK_STATUS_COPY1_FAILED) 1).emit 0x0402 k n).degrade 3
  else s

/-- One word met as uncorrectable (R202): repaired from the other copy, or the entry is lost. -/
def State.eccFact (s : State) (f : EccFact) : State :=
  let b0 := f.copy0 || s.copyFailed 0
  let b1 := f.copy1 || s.copyFailed 1
  if (s.sheaf f.slot).isNone ∨ !(f.copy0 || f.copy1) then s
  else
    let s1 := if f.copy0 ∧ !s.copyFailed 0 then s.countCopyErr 0 else s
    let s2 := if f.copy1 ∧ !s.copyFailed 1 then s1.countCopyErr 1 else s1
    if b0 ∧ b1 then s2.loseSheaf f.slot f.word (if s.copyFailed 0 ∨ s.copyFailed 1 then 1 else 2)
    else if (f.copy0 ∧ !s.copyFailed 0) ∨ (f.copy1 ∧ !s.copyFailed 1) then s2.bump Reg.TRK_COPY_REPAIRED 1 else s2

/-- The words met while entries are read. -/
def State.eccFacts (s : State) (fs : List EccFact) : State := fs.foldl State.eccFact s

end Sys2Proof.Machine
end

