-- ==== Sys2Proof/Machine/Aster.lean ====
section
/-!
DEFINITION. Aster engines and programs (spec/08_aster_classifier.md R208–R234): acceptance, one meaning per instruction over one
shared step of a run, deadlines, engine tests, and host writes of programs, data and slots. An instruction command acts on the engine
it names when that engine's next word is that instruction with those operands (log entry 30).
-/
namespace Sys2Proof.Machine

/-! ### Aster memory (Table 8-6) -/

def asterBase : Nat := 0x03000000
def progAddr (copy area i : Nat) : Nat := asterBase + 0x20000 * copy + 0x1000 * area + 4 * i
def scratchAddr (e off : Nat) : Nat := asterBase + 0x40000 + 0x1000 * e + off
def dataAddr (off : Nat) : Nat := asterBase + 0x50000 + off

/-- The words of a program area. -/
def State.programWords (s : State) (area len : Nat) : List Nat := (List.range len).map (fun i => (s.memWord (progAddr 0 area i)).toNat)

/-! ### Registers of an engine -/

def Engine.r (e : Engine) (i : Nat) : Int := (e.regs.getD i 0).toInt
def Engine.rw (e : Engine) (i : Nat) : Word := e.regs.getD i 0
def Engine.set (e : Engine) (i : Nat) (x : Int) : Engine := { e with regs := e.regs.set i (ofS x) }
def Engine.setW (e : Engine) (i : Nat) (w : Word) : Engine := { e with regs := e.regs.set i w }

/-- An engine at the start of a run (Table 8-1). -/
def Engine.start (x : Sheaf) (slot tick : Nat) (faults : List Nat) : Engine :=
  let n := fun (k : Nat) => BitVec.ofNat 32 k
  { sheaf := some x.slot,
    regs := [0, n x.lines, n x.width, n x.ctx.pol, n (x.ctx.flags + 65536 * x.pixflags), n x.ctx.vel, n x.area, ofS x.peak, n x.seq, n slot,
      n x.ctx.left] ++ List.replicate 21 0,
    l0 := 0, l1 := (x.lines : Int) - 1, k0 := 0, k1 := (x.width : Int) - 1, m := false, feats := List.replicate 4 0, idx := 0, cycles := 0,
    lastDone := tick, faults := faults }

/-! ### One instruction of a run (R211, R221, R232) -/

/-- What an instruction does: the run goes on with a new engine (and scratch), ends with a status, or ends with VERD. -/
inductive EngOut where
  | go (s : State) (e : Engine)
  | stop (status : Nat)
  | verd (verdict klass : Nat) (e : Engine)

/-- What an instruction works on. -/
structure RunCtx where
  n  : Nat
  e  : Engine
  x  : Sheaf
  b  : Binding

/-- One instruction of engine `st.engine`, if the word it fetches is the one that `is` recognises: budget, faults, effect. `taken` adds
cycles to the cost. -/
def State.aster (s : State) (st : EngStep) (is : Nat → Bool) (cost : RunCtx → Nat) (f : State → RunCtx → EngOut) : State :=
  let n := st.engine
  let e := s.engine n
  if 16 ≤ n ∨ s.engState n ≠ 1 then s
  else match e.sheaf with
    | none => s
    | some slot => match s.sheaf slot with
      | none => s
      | some x => match x.bound with
        | none => s
        | some b =>
          if !is (s.memWord (progAddr 0 b.area e.idx)).toNat then s
          else
            let s := s.elapse st.w
            if st.fault then s.runFault n 2
            else if st.bothBad then s.endRun n slot (RunEnd.bad 4 e.cycles n)
            else
              let x := x.imageErrors st.imgBad
              let s := s.putSheaf x
              let c : RunCtx := ⟨n, e, x, b⟩
              if b.budget < e.cycles + cost c then s.endRun n slot (RunEnd.bad 2 e.cycles n)
              else match f s c with
                | .go t g => t.putEngine n { g with cycles := e.cycles + cost c, lastDone := t.time.ticks }
                | .stop status => s.endRun n slot (RunEnd.bad status e.cycles n)
                | .verd v k g => s.endRun n slot ⟨0, v, k, g.feats, e.cycles + cost c, n⟩

/-- Go on at the next instruction. -/
def Engine.next (e : Engine) : Engine := { e with idx := e.idx + 1 }

/-- An instruction that writes register d from the registers. -/
def State.asterReg (s : State) (st : EngStep) (is : Nat → Bool) (cost d : Nat) (f : Engine → Int) : State :=
  s.aster st is (fun _ => cost) (fun t c => .go t ((c.e.set d (f c.e)).next))

/-- The same for bitwise results. -/
def State.asterBits (s : State) (st : EngStep) (is : Nat → Bool) (d : Nat) (f : Engine → Word) : State :=
  s.aster st is (fun _ => 1) (fun t c => .go t ((c.e.setW d (f c.e)).next))

/-! ### Arithmetic (R213, R214) -/

/-- DIV (Table 8-3). -/
def divide (a b : Int) : Int :=
  if b = 0 then (if 0 < a then 2147483647 else if a < 0 then -2147483648 else 0) else satS32 (rheS a b)

/-- The low five bits of a register. -/
def Engine.sh (e : Engine) (i : Nat) : Nat := (e.rw i).toNat % 32

/-- ADD: d = sat(a + b) (Table 8-3). -/
def execAsterAdd (x : EngStep) (d a b : Nat) (s : State) : Host.Outcome State Fault Refusal :=
  .next (s.asterReg x (isR 0x01 d a b 0) 1 d (fun e => satS32 (e.r a + e.r b)))

/-- SUB: d = sat(a − b) (Table 8-3). -/
def execAsterSub (x : EngStep) (d a b : Nat) (s : State) : Host.Outcome State Fault Refusal :=
  .next (s.asterReg x (isR 0x02 d a b 0) 1 d (fun e => satS32 (e.r a - e.r b)))

/-- MUL: d = sat(a × b) (Table 8-3). -/
def execAsterMul (x : EngStep) (d a b : Nat) (s : State) : Host.Outcome State Fault Refusal :=
  .next (s.asterReg x (isR 0x03 d a b 0) 2 d (fun e => satS32 (e.r a * e.r b)))

/-- MULS: d = sat(rhe(a × b / 2^fn)) (Table 8-3). -/
def execAsterMuls (x : EngStep) (d a b fn : Nat) (s : State) : Host.Outcome State Fault Refusal :=
  .next (s.asterReg x (isR 0x04 d a b fn) 2 d (fun e => satS32 (rhe (e.r a * e.r b) (2 ^ (fn % 32)))))

/-- DIV: d = sat(rhe(a / b)), and the stated results for b = 0 (Table 8-3). -/
def execAsterDiv (x : EngStep) (d a b : Nat) (s : State) : Host.Outcome State Fault Refusal :=
  .next (s.asterReg x (isR 0x05 d a b 0) 12 d (fun e => divide (e.r a) (e.r b)))

/-- AND: d = a AND b (Table 8-3). -/
def execAsterAnd (x : EngStep) (d a b : Nat) (s : State) : Host.Outcome State Fault Refusal :=
  .next (s.asterBits x (isR 0x06 d a b 0) d (fun e => e.rw a &&& e.rw b))

/-- OR: d = a OR b (Table 8-3). -/
def execAsterOr (x : EngStep) (d a b : Nat) (s : State) : Host.Outcome State Fault Refusal :=
  .next (s.asterBits x (isR 0x07 d a b 0) d (fun e => e.rw a ||| e.rw b))

/-- XOR: d = a XOR b (Table 8-3). -/
def execAsterXor (x : EngStep) (d a b : Nat) (s : State) : Host.Outcome State Fault Refusal :=
  .next (s.asterBits x (isR 0x08 d a b 0) d (fun e => e.rw a ^^^ e.rw b))

/-- MIN: d = min(a, b) (Table 8-3). -/
def execAsterMin (x : EngStep) (d a b : Nat) (s : State) : Host.Outcome State Fault Refusal :=
  .next (s.asterReg x (isR 0x09 d a b 0) 1 d (fun e => min (e.r a) (e.r b)))

/-- MAX: d = max(a, b) (Table 8-3). -/
def execAsterMax (x : EngStep) (d a b : Nat) (s : State) : Host.Outcome State Fault Refusal :=
  .next (s.asterReg x (isR 0x0A d a b 0) 1 d (fun e => max (e.r a) (e.r b)))

/-- ABS: d = sat(abs(a)) (Table 8-3). -/
def execAsterAbs (x : EngStep) (d a : Nat) (s : State) : Host.Outcome State Fault Refusal :=
  .next (s.asterReg x (isR 0x0B d a 0 0) 1 d (fun e => satS32 (e.r a).natAbs))

/-- SQRT: d = rhe(√a) for a ≥ 0, 0 for a < 0 (Table 8-3). -/
def execAsterSqrt (x : EngStep) (d a : Nat) (s : State) : Host.Outcome State Fault Refusal :=
  .next (s.asterReg x (isR 0x0C d a 0 0) 8 d (fun e => if e.r a < 0 then 0 else ((rheSqrt (e.r a).toNat 1 : Nat) : Int)))

/-- SLT: d = 1 if a < b, else 0 (Table 8-3). -/
def execAsterSlt (x : EngStep) (d a b : Nat) (s : State) : Host.Outcome State Fault Refusal :=
  .next (s.asterReg x (isR 0x0D d a b 0) 1 d (fun e => if e.r a < e.r b then 1 else 0))

/-- SHL: d = sat(a × 2^b[4:0]) (Table 8-3). -/
def execAsterShl (x : EngStep) (d a b : Nat) (s : State) : Host.Outcome State Fault Refusal :=
  .next (s.asterReg x (isR 0x0E d a b 0) 1 d (fun e => satS32 (e.r a * 2 ^ e.sh b)))

/-- SRA: d = rhe(a / 2^b[4:0]) (Table 8-3). -/
def execAsterSra (x : EngStep) (d a b : Nat) (s : State) : Host.Outcome State Fault Refusal :=
  .next (s.asterReg x (isR 0x0F d a b 0) 1 d (fun e => rhe (e.r a) (2 ^ e.sh b)))

/-- ADDI: d = sat(a + imm) (Table 8-3). -/
def execAsterAddi (x : EngStep) (d a imm : Nat) (s : State) : Host.Outcome State Fault Refusal :=
  .next (s.asterReg x (isI 0x10 d a imm) 1 d (fun e => satS32 (e.r a + immS imm)))

/-- LI: d = imm (Table 8-3). -/
def execAsterLi (x : EngStep) (d imm : Nat) (s : State) : Host.Outcome State Fault Refusal :=
  .next (s.asterReg x (isI 0x11 d 0 imm) 1 d (fun _ => immS imm))

/-- LIH: d = (imm16 × 2¹⁶) OR d[15:0], imm16 unsigned (Table 8-3). -/
def execAsterLih (x : EngStep) (d imm : Nat) (s : State) : Host.Outcome State Fault Refusal :=
  .next (s.asterBits x (isI 0x12 d 0 imm) d (fun e => BitVec.ofNat 32 (imm * 65536 + (e.rw d).toNat % 65536)))

/-- ANDI: d = a AND imm16, imm16 zero-extended (Table 8-3). -/
def execAsterAndi (x : EngStep) (d a imm : Nat) (s : State) : Host.Outcome State Fault Refusal :=
  .next (s.asterBits x (isI 0x13 d a imm) d (fun e => e.rw a &&& BitVec.ofNat 32 imm))

/-- SLTI: d = 1 if a < imm, else 0 (Table 8-3). -/
def execAsterSlti (x : EngStep) (d a imm : Nat) (s : State) : Host.Outcome State Fault Refusal :=
  .next (s.asterReg x (isI 0x14 d a imm) 1 d (fun e => if e.r a < immS imm then 1 else 0))

/-- SHLI: d = sat(a × 2^imm[4:0]) (Table 8-3). -/
def execAsterShli (x : EngStep) (d a imm : Nat) (s : State) : Host.Outcome State Fault Refusal :=
  .next (s.asterReg x (isI 0x15 d a imm) 1 d (fun e => satS32 (e.r a * 2 ^ (imm % 32))))

/-- SRAI: d = rhe(a / 2^imm[4:0]) (Table 8-3). -/
def execAsterSrai (x : EngStep) (d a imm : Nat) (s : State) : Host.Outcome State Fault Refusal :=
  .next (s.asterReg x (isI 0x16 d a imm) 1 d (fun e => rhe (e.r a) (2 ^ (imm % 32))))

/-! ### Data and scratch (R214, R221) -/

/-- The offset a + imm of a load or store of n bytes below a bound, aligned: none is an ADDR fault. -/
def asterOffset (a : Int) (imm n bound : Nat) : Option Nat :=
  let o := a + immS imm
  if 0 ≤ o ∧ o < bound ∧ o % n = 0 then some o.toNat else none

/-- A halfword, sign-extended. -/
def State.memHalfS (s : State) (a : Nat) : Int := ((BitVec.ofNat 16 (s.memH a)).toInt)

/-- LDW: d = data word at a + imm (R214). -/
def execAsterLdw (x : EngStep) (d a imm : Nat) (s : State) : Host.Outcome State Fault Refusal :=
  .next (s.aster x (isI 0x18 d a imm) (fun _ => 4) (fun t c => match asterOffset (c.e.r a) imm 4 c.b.dlen with
    | none => .stop 3
    | some o => if x.dataBad then .stop 4 else .go t ((c.e.setW d (t.memWord (dataAddr (c.b.dbase + o)))).next)))

/-- LDH: d = sign-extended data halfword at a + imm (R214). -/
def execAsterLdh (x : EngStep) (d a imm : Nat) (s : State) : Host.Outcome State Fault Refusal :=
  .next (s.aster x (isI 0x19 d a imm) (fun _ => 4) (fun t c => match asterOffset (c.e.r a) imm 2 c.b.dlen with
    | none => .stop 3
    | some o => if x.dataBad then .stop 4 else .go t ((c.e.set d (t.memHalfS (dataAddr (c.b.dbase + o)))).next)))

/-- LDS: d = scratch word at a + imm (Table 8-3). -/
def execAsterLds (x : EngStep) (d a imm : Nat) (s : State) : Host.Outcome State Fault Refusal :=
  .next (s.aster x (isI 0x1A d a imm) (fun _ => 2) (fun t c => match asterOffset (c.e.r a) imm 4 4096 with
    | none => .stop 3
    | some o => .go t ((c.e.setW d (t.memWord (scratchAddr c.n o))).next)))

/-- STS: scratch word at a + imm = d (Table 8-3). -/
def execAsterSts (x : EngStep) (d a imm : Nat) (s : State) : Host.Outcome State Fault Refusal :=
  .next (s.aster x (isI 0x1B d a imm) (fun _ => 2) (fun t c => match asterOffset (c.e.r a) imm 4 4096 with
    | none => .stop 3
    | some o => .go (t.setMemWord (scratchAddr c.n o) (c.e.rw d)) c.e.next))

/-! ### The image (R215–R218) -/

/-- WIN: the window's lines or columns, clipped to the box (R215). -/
def execAsterWin (x : EngStep) (a b fn : Nat) (s : State) : Host.Outcome State Fault Refusal :=
  .next (s.aster x (isR 0x20 0 a b fn) (fun _ => 1) (fun t c =>
    let lh : Int := (c.x.lines : Int) - 1
    let kh : Int := (c.x.width : Int) - 1
    .go t (if fn = 0 then { c.e.next with l0 := max 0 (c.e.r a), l1 := min lh (c.e.r b) }
      else if fn = 1 then { c.e.next with k0 := max 0 (c.e.r a), k1 := min kh (c.e.r b) }
      else { c.e.next with l0 := 0, l1 := lh, k0 := 0, k1 := kh })))

/-- PIX: d = pixel (line a, column b), or 0 with M set outside the box and for a marked pixel (R215). -/
def execAsterPix (x : EngStep) (d a b : Nat) (s : State) : Host.Outcome State Fault Refusal :=
  .next (s.aster x (isR 0x21 d a b 0) (fun _ => 3) (fun t c => match c.x.pixel (c.e.r a) (c.e.r b) with
    | some (v, false) => .go t { (c.e.set d v).next with m := false }
    | _ => .go t { (c.e.set d 0).next with m := true }))

/-- The window is empty. -/
def Engine.noWindow (e : Engine) : Bool := decide (e.l1 < e.l0 ∨ e.k1 < e.k0)

/-- The lines and columns of the window. -/
def Engine.winLines (e : Engine) : List Int := if e.noWindow then [] else (List.range (e.l1 - e.l0 + 1).toNat).map (fun (i : Nat) => e.l0 + (i : Int))
def Engine.winCols (e : Engine) : List Int := if e.noWindow then [] else (List.range (e.k1 - e.k0 + 1).toNat).map (fun (i : Nat) => e.k0 + (i : Int))

/-- T: the tile segments that the window touches (R218). -/
def RunCtx.segments (c : RunCtx) : Nat :=
  let base : Int := (c.x.ctx.left : Int) - c.x.ctx.winLeft
  (c.e.winLines.length * ((base + c.e.k1) / 16 - (base + c.e.k0) / 16 + 1).toNat)

/-- One pixel of the window with its box line and column. -/
structure WinPixel where
  l : Int
  k : Int
  v : Int
  marked : Bool

/-- The pixels of the window. -/
def RunCtx.window (c : RunCtx) : List WinPixel :=
  c.e.winLines.flatMap (fun l => c.e.winCols.filterMap (fun k => (c.x.pixel l k).map (fun p => ⟨l, k, p.1, p.2⟩)))

/-- The sum of a function over pixels. -/
def sumPx (f : WinPixel → Int) (l : List WinPixel) : Int := l.foldl (fun a p => a + f p) 0

/-- GRADGT: neighbours inside the window, both unmarked and both above the threshold. -/
def RunCtx.gradient (c : RunCtx) (a : Int) : Int :=
  c.e.winLines.foldl (fun acc l => c.e.winCols.foldl (fun acc k =>
    if k < c.e.k1 then
      match c.x.pixel l k, c.x.pixel l (k + 1) with
      | some (p, false), some (q, false) => if a < p ∧ a < q then acc + (q - p).natAbs else acc
      | _, _ => acc
    else acc) acc) 0

/-- The reduction of Table 8-5. -/
def RunCtx.reduce (c : RunCtx) (mode : Nat) (a : Int) : Int :=
  let all := c.window
  let px := all.filter (fun p => !p.marked)
  let gt := px.filter (fun p => decide (a < p.v))
  let lt := px.filter (fun p => decide (p.v < a))
  satS32 (match mode with
    | 0 => sumPx (fun p => p.v) px
    | 1 => (gt.length : Int)
    | 2 => (lt.length : Int)
    | 3 => px.foldl (fun m p => max m p.v) (-32768)
    | 4 => px.foldl (fun m p => min m p.v) 32767
    | 5 => rhe (sumPx (fun p => p.v * p.v) px) 256
    | 6 => ((all.filter (fun p => p.marked)).length : Int)
    | 7 => sumPx (fun p => p.v) gt
    | 8 => sumPx (fun p => p.v) lt
    | 9 => sumPx (fun p => p.k) gt
    | 10 => sumPx (fun p => p.l) gt
    | _ => c.gradient a)

/-- RED: d = a reduction over the window (R216). -/
def execAsterRed (x : EngStep) (d a mode : Nat) (s : State) : Host.Outcome State Fault Refusal :=
  .next (s.aster x (isR 0x22 d a 0 mode) (fun c => 4 + c.segments) (fun t c => .go t ((c.e.set d (c.reduce mode (c.e.r a))).next)))

/-- HIST: a histogram of the window in scratch words 0 to 63 (R217). -/
def execAsterHist (x : EngStep) (a b : Nat) (s : State) : Host.Outcome State Fault Refusal :=
  .next (s.aster x (isR 0x23 0 a b 0) (fun c => 68 + 2 * c.segments) (fun t c =>
    let bins := (c.window.filter (fun p => !p.marked)).foldl (fun (h : List Nat) p =>
      let j := (clampI 0 63 ((p.v - c.e.r a) / 2 ^ ((c.e.rw b).toNat % 16))).toNat
      h.set j (h.getD j 0 + 1)) (List.replicate 64 0)
    .go ((List.range 64).foldl (fun u j => u.setMemWord (scratchAddr c.n (4 * j)) (BitVec.ofNat 32 (bins.getD j 0))) t) c.e.next))

/-! ### Control (R211, R213, R231) -/

/-- BR: if the condition holds, continue at the target (Table 8-4). -/
def execAsterBr (x : EngStep) (cond a b target : Nat) (s : State) : Host.Outcome State Fault Refusal :=
  .next (s.aster x (isB cond a b target) (fun c => if condHolds cond (c.e.r a) (c.e.r b) c.e.m then 2 else 1) (fun t c =>
    .go t (if condHolds cond (c.e.r a) (c.e.r b) c.e.m then { c.e with idx := target } else c.e.next)))

/-- FEAT: a feature word = a (Table 8-3). -/
def execAsterFeat (x : EngStep) (k a : Nat) (s : State) : Host.Outcome State Fault Refusal :=
  .next (s.aster x (isR 0x32 0 a 0 k) (fun _ => 1) (fun t c => .go t { c.e.next with feats := c.e.feats.set k (c.e.rw a) }))

/-- VERD: ends the run with verdict, class and feature words (R211, R231). -/
def execAsterVerd (x : EngStep) (verdict a sel cls : Nat) (s : State) : Host.Outcome State Fault Refusal :=
  .next (s.aster x (isV verdict a sel cls) (fun _ => 1) (fun _ c =>
    .verd verdict (if sel = 1 then (clampI 0 0xFE (c.e.r a)).toNat else cls) c.e))

/-! ### Dispatch, deadlines, tests (R229, R230, R232, R233) -/

/-- Queued sheaves by deadline, ties to the lower sequence number (R229). -/
def insertQueued (x : Sheaf) : List Sheaf → List Sheaf
  | [] => [x]
  | y :: ys =>
    let dx := x.deadline.getD 0
    let dy := y.deadline.getD 0
    if dx < dy ∨ (dx = dy ∧ x.seq < y.seq) then x :: y :: ys else y :: insertQueued x ys
def State.queued (s : State) : List Sheaf := (s.trk.sheaves.filter (fun e => decide (e.2.state = 3))).foldr (fun e l => insertQueued e.2 l) []

/-- The lowest-numbered free working engine that a sheaf has not used. -/
def State.freeFor (s : State) (x : Sheaf) : Option Nat := (List.range 16).find? (fun e => decide (s.engState e = 0) && !x.used.contains e)

/-- The run that starts next: the first queued sheaf that some free engine may take. -/
def State.nextRun (s : State) : Option (Sheaf × Nat) :=
  s.queued.foldl (fun b x => match b with
    | some r => some r
    | none => (s.freeFor x).map (fun e => (x, e))) none

/-- Start a run of a sheaf on an engine. -/
def State.startRun (s : State) (x : Sheaf) (e : Nat) : State :=
  let slot := (x.bound.map (fun b => b.slot)).getD 0
  let s := s.putSheaf { x with state := 4, engine := e, runs := x.runs + 1 }
  let lo := scratchAddr e 0
  let s := { s with mem := Map.keep (fun a => decide (a < lo ∨ lo + 4096 ≤ a)) s.mem }
  let s := (s.putEngine e (Engine.start x slot s.time.ticks (s.engine e).faults)).put (Reg.AST_ENG_STATE e) 1
  (s.setPair Reg.AST_RUNS_LO (s.pair Reg.AST_RUNS_LO + 1)).queueUpdate

/-- ENGINE_ACCEPT (R229): w ticks later, with the sheaf-store words met as uncorrectable. -/
def execEngineAccept (w : Nat) (ecc : List EccFact) (s : State) : Host.Outcome State Fault Refusal :=
  .next (
    let s := (s.elapse w).eccFacts ecc
    match s.nextRun with
    | some (x, e) => if s.resetting 4 then s else s.startRun x e
    | none => s)

/-- The deadline of a sheaf ends it (R230): queued or running. -/
def State.deadlineEnd (s : State) (slot : Nat) : State :=
  match s.sheaf slot with
  | none => s
  | some x =>
    if x.state = 3 then s.outcome slot (RunEnd.bad 5 0 0xFF)
    else if x.state = 4 then
      match s.runner slot with
      | some e => s.endRun e slot (RunEnd.bad 5 (s.engine e).cycles e)
      | none => s
    else s

/-- DEADLINE_PASSED (R230). -/
def execDeadlinePassed (slot : Nat) (s : State) : Host.Outcome State Fault Refusal :=
  .next (match s.fire (Timer.deadline slot) with
    | none => s
    | some s => s.deadlineEnd slot)

/-- ENGINE_STALL (R232): no instruction completes for 2 µs. -/
def execEngineStall (e : Nat) (s : State) : Host.Outcome State Fault Refusal :=
  .next (if e < 16 ∧ s.engState e = 1 then (s.elapseTo ((s.engine e).lastDone + usTicks 2)).runFault e 1 else s)

/-- The result of a self-test (R232, R233): a failed engine that passes works again, one that fails stays failed. -/
def State.selfTested (s : State) (e : Nat) (pass : Bool) : State :=
  if bit (s.get Reg.AST_STATUS_FAILED) e then
    if pass then
      let s := s.put Reg.AST_STATUS_FAILED (setBit (s.get Reg.AST_STATUS_FAILED) e false)
      ((s.putEngine e { s.engine e with faults := [] }).put (Reg.AST_ENG_STATE e) 0).workingUpdate
    else ((s.bump (Reg.AST_ENG_FAULTS e) 1).put (Reg.AST_ENG_STATE e) 3).setDomain (9 + e) 0
  else if pass then s.put (Reg.AST_ENG_STATE e) 0
  else s.countFault e 3

/-- The 100 ms of an engine's idle self-test have passed (R232): the next interval runs from here (log entry 84). -/
def State.selftestDue (s : State) (e : Nat) : Option State := (s.fire (Timer.selftest e)).map (fun t => t.arm (Timer.selftest e) (msTicks 100))

/-- ENGINE_SELFTEST (R232): an idle engine has run its self-test, of w ticks, when its 100 ms have passed; one under RESTORE ends its own
after w ticks. -/
def execEngineSelftest (e w : Nat) (pass : Bool) (s : State) : Host.Outcome State Fault Refusal :=
  .next (
    if 16 ≤ e then s
    else if s.engState e = 2 then (s.elapse w).selfTested e pass
    else if s.engState e = 0 ∧ s.flag Reg.AST_CTRL_SELFTEST_ON then (match s.selftestDue e with
      | none => s
      | some t => (t.elapse w).selfTested e pass)
    else s)

/-- The counters of AST_CMD CLR_COUNTERS (Table 8-13). -/
def State.clearAst (s : State) : State :=
  ([Reg.AST_RERUNS, Reg.AST_FAULT_PROG, Reg.AST_FAULT_TIME, Reg.AST_CYCLES_MAX, Reg.AST_LATE].foldl (fun t a => t.setWord a 0) s).put
    Reg.AST_QUEUE_QUEUE_MAX 0

/-- RESTORE: a failed engine is powered and starts its self-test (R233). -/
def State.restoreEngine (s : State) (e : Nat) : State :=
  if bit (s.get Reg.AST_STATUS_FAILED) e ∧ s.engState e = 3 then (s.setDomain (9 + e) 2).put (Reg.AST_ENG_STATE e) 2 else s

/-- A write of AST_CMD. -/
def State.hostAstCmd (s : State) (w : Nat) : Option State :=
  let s := if bit w 0 then s.clearAst else s
  some (if bit w 1 then s.restoreEngine (bits w 2 4) else s)

/-- ENGINE_RESTORE (R233): RESTORE, and the result of the engine's self-test. -/
def execEngineRestore (e : Nat) (pass : Bool) (s : State) : Host.Outcome State Fault Refusal :=
  .next (
    let t := s.host Reg.AST_CMD (s.hostAstCmd (2 + 4 * (e % 16)))
    if s.reaches Reg.AST_CMD ∧ e < 16 ∧ t.engState e = 2 ∧ s.engState e = 3 then (t.elapse 500).selfTested e pass else t)

/-- AST_CLR_COUNTERS (Table 8-13). -/
def execAstClrCounters (s : State) : Host.Outcome State Fault Refusal := .next (s.host Reg.AST_CMD (s.hostAstCmd 1))

/-! ### Host writes (R219, R220, R224, R228) -/

/-- Whether an area is locked (R228): named by a slot in force or pending, or by a binding in QUEUED or JUDGING. -/
def State.areaLocked (s : State) (a : Nat) : Bool :=
  (List.range 16).any (fun n =>
    decide (0 < s.get (Reg.AST_SLOT_PROG_LEN n) ∧ s.get (Reg.AST_SLOT_PROG_AREA n) = a) ||
    decide (0 < s.pendGet (Reg.AST_SLOT_PROG_LEN n) ∧ s.pendGet (Reg.AST_SLOT_PROG_AREA n) = a)) ||
  s.trk.sheaves.any (fun e => (decide (e.2.state = 3 ∨ e.2.state = 4)) && (match e.2.bound with
    | some b => decide (0 < b.len ∧ b.area = a)
    | none => false))

/-- One word written to the Aster-memory window: none is REFUSED. -/
def State.hostAsterWord (s : State) (a : Nat) (w : Word) : Option State :=
  let o := a - asterBase
  if o < 0x20000 then if s.areaLocked (o / 0x1000) then none else some ((s.setMemWord a w).setMemWord (a + 0x20000) w)
  else if o < 0x50000 then none
  else if o < 0x200000 then some (s.setMemWord a w)
  else some s

/-- ASTER_MEMORY_WRITE (R220). -/
def execAsterMemoryWrite (addr : Nat) (words : List (BitVec 32)) (s : State) : Host.Outcome State Fault Refusal :=
  .next (if asterBase ≤ addr ∧ addr < asterBase + 0x200000 then s.hostFrame addr State.hostAsterWord words else s)

/-- The code of the check of a slot write (R224): 0 when it passes or LEN is 0. -/
def State.slotCheck (s : State) (n value : Nat) : Nat :=
  let len := (Reg.AST_SLOT_PROG_LEN n).of (BitVec.ofNat 32 value)
  if len = 0 then 0
  else if 1024 < len then 1
  else programCheck len (s.programWords ((Reg.AST_SLOT_PROG_AREA n).of (BitVec.ofNat 32 value)) len)

/-- A failing slot write leaves its code in LAST_CHECK. -/
def State.noteCheck (s : State) (n value : Nat) : State :=
  if s.slotCheck n value = 0 then s else s.put Reg.AST_STATUS_LAST_CHECK (s.slotCheck n value)

/-- A slot write: checked, then pending (R224, R227). -/
def State.hostSlotProg (s : State) (n value : Nat) : Option State :=
  if s.slotCheck n value = 0 then some (s.pend (Reg.AST_SLOT_PROG n) value) else none

/-- SLOT_PROG_WRITE (R224). -/
def execSlotProgWrite (n value : Nat) (s : State) : Host.Outcome State Fault Refusal :=
  .next (if n < 16 then
      let t := if s.reaches (Reg.AST_SLOT_PROG n) then s.noteCheck n value else s
      t.host (Reg.AST_SLOT_PROG n) (t.hostSlotProg n value)
    else s)

end Sys2Proof.Machine
end

