-- ==== Sys2Proof/Machine/Ethernet.lean ====
section
/-!
DEFINITION. Ethernet ports, received frames, the record stream and the event stream (spec/12_ethernet_ptp.md).
-/
namespace Sys2Proof.Machine

/-! ### Sending (R321–R323) -/

/-- ETH_MAC as a 48-bit number. -/
def State.mac (s : State) : Nat := s.get Reg.ETH_MAC_LO_MAC + s.get Reg.ETH_MAC_HI_MAC * 2 ^ 32

/-- Whether ETH_MAC is a unicast address other than zero (R319). -/
def State.macGood (s : State) : Bool := decide (s.mac ≠ 0) && !bit s.mac 40

/-- Whether a port is READY. -/
def State.portReady (s : State) (p : Nat) : Bool := s.flag (Reg.ETH_P_STATUS_READY p)

/-- The 802.1Q tag of transmitted frames (R322). -/
def State.txTag (s : State) : Option Nat :=
  if s.flag Reg.ETH_VLAN_EN then some (s.get Reg.ETH_VLAN_VID + s.get Reg.ETH_VLAN_PCP * 8192) else none

/-- The packets of one command start here. -/
def State.newPackets (s : State) : State := { s with eth := { s.eth with out := [] } }

/-- The one's complement sum of 16-bit words, big-endian; an odd last byte is padded with zero. -/
def onesSum : List Byte → Nat
  | [] => 0
  | [a] => 256 * a.toNat
  | a :: b :: r => 256 * a.toNat + b.toNat + onesSum r

/-- The UDP checksum over the pseudo-header, the UDP header and the payload; 0 is sent as 0xFFFF. -/
def udpChecksum (p : Packet) : Nat :=
  let len := 8 + p.payload.length
  let t := onesSum (beBytes 4 p.sip ++ beBytes 4 p.dip ++ beBytes 2 17 ++ beBytes 2 len ++ beBytes 2 p.sport ++ beBytes 2 p.dport ++ beBytes 2 len ++
    p.payload)
  let c := 65535 - (if t = 0 then 0 else (t - 1) % 65535 + 1)
  if c = 0 then 65535 else c

/-- The order in which a port serves its packets: PTP, ARP replies, record, event, line (R324). The raw-row stream has its port alone. -/
def Packet.rank (p : Packet) : Nat :=
  if p.kind = 2 then 0
  else if p.kind = 1 then 1
  else [5, 4, 2, 3].getD ((p.payload.getD 3 0).toNat - 1) 5

/-- A packet joins those that wait at its port, behind those that are served before it and those of its own stream. -/
def serve (p : Packet) : List Packet → List Packet
  | [] => [p]
  | q :: qs => if q.port = p.port ∧ p.rank < q.rank then p :: q :: qs else q :: serve p qs

/-- The fields that every frame has from the JT4096 itself: its MAC and IPv4 address on every port (R319), the tag (R322), and for an IPv4 packet
DF, the next identification, TTL and the UDP checksum (R321). -/
def State.framed (s : State) (p : Packet) : Packet :=
  let q := { p with smac := s.mac, sip := s.get Reg.ETH_IP_ADDR, tag := s.txTag }
  if p.kind = 1 then q
  else
    let q := { q with df := true, ident := s.eth.ident, ttl := s.get Reg.ETH_CTRL_TTL }
    { q with csum := udpChecksum q }

/-- Transmit a frame; every IPv4 packet takes the next identification (R321). -/
def State.transmit (s : State) (p : Packet) : State :=
  { s with eth := { s.eth with
      ident := if p.kind = 1 then s.eth.ident else (s.eth.ident + 1) % 65536
      out := serve (s.framed p) s.eth.out } }

/-- A UDP packet before the fields of `framed`. -/
def udpPacket (kind port dmac dip sport dport : Nat) (payload : List Byte) : Packet :=
  { kind := kind, port := port, dmac := dmac, smac := 0, sip := 0, df := false, csum := 0, tag := none, dip := dip, sport := sport, dport := dport,
    ident := 0, ttl := 0, payload := payload }

/-- The FLAGS bit 0 of a stream header: device time has taken the master's time (Table 12-3). -/
def State.syncedBit (s : State) : Nat := if s.flag Reg.PTP_STATUS_SYNCED then 1 else 0

/-- The 32 bytes of a stream header, big-endian (Table 12-3). -/
def streamHeader (stream flags len seq time info part port : Nat) : List Byte :=
  beBytes 2 0x4A52 ++ beBytes 1 1 ++ beBytes 1 stream ++ beBytes 2 flags ++ beBytes 2 len ++ beBytes 8 seq ++ beBytes 8 time ++
    beBytes 4 info ++ beBytes 2 part ++ beBytes 1 port ++ beBytes 1 0

/-- Send one stream packet: stream st (0 line, 1 raw-row, 2 record, 3 event) from port p (R321, R323). -/
def State.sendStream (s : State) (st p flags seq info part : Nat) (payload : List Byte) : State :=
  s.transmit (udpPacket 0 p (s.get (Reg.ETH_S_DMAC_LO_DMAC st) + s.get (Reg.ETH_S_DMAC_HI_DMAC st) * 2 ^ 32) (s.get (Reg.ETH_S_DIP_DIP st))
    (s.get Reg.ETH_CTRL_BASE_PORT + st) (s.get (Reg.ETH_S_CTRL_DPORT st))
    (streamHeader (st + 1) (s.syncedBit + flags) payload.length seq s.now info part p ++ payload))

/-! ### Received frames (R320, Table 12-2) -/

/-- The PTP port, when PTP is enabled. -/
def State.ptpPort (s : State) (p : Nat) : Bool := s.flag Reg.PTP_CTRL_EN && decide (s.get Reg.PTP_CTRL_PORT = p)

/-- The MTU of a port (Table 12-1). -/
def State.mtu (s : State) (p : Nat) : Nat := if s.flag (Reg.ETH_P_CTRL_JUMBO p) then 9000 else 1500

/-- The check that a received frame fails first, named by the field that counts it; none when it passes all (Table 12-2). -/
def State.rxFails (s : State) (p : Nat) (f : RxFrame) : Option Field :=
  let max := s.mtu p + (if f.tag.isSome then 22 else 18)
  if !s.portReady p then some (Reg.ETH_P_DROP_EARLY p)
  else if !f.fcsOk ∨ f.length < 64 ∨ max < f.length then some (Reg.ETH_P_DROP_FORMAT p)
  else if !(decide (f.dmac = s.mac) || (decide (f.dmac = 2 ^ 48 - 1) && decide (f.etherType = 0x0806)) ||
      (decide (f.dmac = 0x01005E000181) && s.ptpPort p)) then some (Reg.ETH_P_DROP_ADDR p)
  else if (if s.flag Reg.ETH_VLAN_EN then decide (f.tag.map (· % 4096) ≠ some (s.get Reg.ETH_VLAN_VID)) else f.tag.isSome) then
    some (Reg.ETH_P_DROP_ADDR p)
  else if f.etherType = 0x0806 then
    (if f.arpRequest ∧ f.arpTarget = s.get Reg.ETH_IP_ADDR then none else some (Reg.ETH_P_DROP_OTHER p))
  else if f.etherType ≠ 0x0800 then some (Reg.ETH_P_DROP_OTHER p)
  else if !f.ipOk then some (Reg.ETH_P_DROP_FORMAT p)
  else if !(decide (f.dstIp = s.get Reg.ETH_IP_ADDR) || (decide (f.dstIp = 0xE0000181) && s.ptpPort p)) then
    some (Reg.ETH_P_DROP_ADDR p)
  else if f.proto ≠ 17 then some (Reg.ETH_P_DROP_OTHER p)
  else if !f.udpOk then some (Reg.ETH_P_DROP_FORMAT p)
  else if f.dstPort = s.get Reg.ETH_CTRL_BASE_PORT + 2 ∧ f.srcIp = s.get (Reg.ETH_S_DIP_DIP 2) then
    (if f.jrVer = 1 then none else some (Reg.ETH_P_DROP_OTHER p))
  else if (f.dstPort = 319 ∨ f.dstPort = 320) ∧ s.ptpPort p then none
  else some (Reg.ETH_P_DROP_OTHER p)

/-- A received frame: dropped and counted, or handed on (R320). -/
def State.received (s : State) (p : Nat) (f : RxFrame) (k : State → State) : State :=
  match s.rxFails p f with
  | some c => s.bump c 1
  | none => k s

/-- A frame that no message command stands for: on the PTP ports it is a message that the JT4096 ignores (management, signalling, peer delay),
counted in PTP_COUNTS (R335). -/
def State.ignored (s : State) (f : RxFrame) : State :=
  if f.etherType = 0x0800 ∧ (f.dstPort = 319 ∨ f.dstPort = 320) then s.bump Reg.PTP_COUNTS_DROPPED 1 else s

/-- FRAME_DROPPED (R320, R335). -/
def execFrameDropped (p : Nat) (f : RxFrame) (s : State) : Host.Outcome State Fault Refusal :=
  if p < 4 then .next (s.received p f (fun t => t.ignored f)) else .fault .noSuchPart

/-- ARP_REQUEST: answered on the same port (R320). -/
def execArpRequest (p : Nat) (f : RxFrame) (s : State) : Host.Outcome State Fault Refusal :=
  if p < 4 then
    .next (s.received p f (fun s =>
      if f.etherType = 0x0806 then
        s.newPackets.transmit (udpPacket 1 p f.smac f.srcIp 0 0
          (beBytes 6 s.mac ++ beBytes 4 (s.get Reg.ETH_IP_ADDR) ++ beBytes 6 f.smac ++ beBytes 4 f.srcIp))
      else s))
  else .fault .noSuchPart

/-! ### Ports (R318, R319, R403, R404) -/

/-- The aggregate bits of ETH_STATUS follow the ports. -/
def State.portBits (s : State) : State :=
  let word := fun (f : Nat → Field) => (List.range 4).foldl (fun acc p => acc + (if s.flag (f p) then 2 ^ p else 0)) 0
  (s.put Reg.ETH_STATUS_READY (word Reg.ETH_P_STATUS_READY)).put Reg.ETH_STATUS_LINK (word Reg.ETH_P_STATUS_LINK)

/-- The port of the record stream other than the one in use. -/
def State.otherRecordPort (s : State) : Nat :=
  if s.get Reg.ETH_STATUS_REC_PORT = s.get (Reg.ETH_S_CTRL_BACKUP 2) then s.get (Reg.ETH_S_CTRL_PORT 2)
  else s.get (Reg.ETH_S_CTRL_BACKUP 2)

/-- The record-port class is degraded when the record stream has no READY backup left (R442). -/
def State.recordPortCheck (s : State) : State :=
  if s.recordStreamOn && s.flag (Reg.ETH_S_CTRL_BACKUP_EN 2) && !s.portReady s.otherRecordPort then s.degrade 6 else s

/-- Whether records may go out now: the stream is enabled and its port is READY. -/
def State.recordsFlow (s : State) : Bool := s.recordStreamOn && s.portReady (s.get Reg.ETH_STATUS_REC_PORT)

/-- A port loses LINK, and READY with it (R319). -/
def State.linkLost (s : State) (p : Nat) : State :=
  let had := s.flag (Reg.ETH_P_STATUS_LINK p)
  let s := if had then s.bump (Reg.ETH_P_STATUS_LINK_DOWNS p) 1 else s
  let wasReady := s.portReady p
  let s := ((s.put (Reg.ETH_P_STATUS_LINK p) 0).put (Reg.ETH_P_STATUS_READY p) 0).disarm (Timer.portReady p)
  let s := s.portBits
  if wasReady then (s.arm (Timer.failover p) (msTicks (s.get Reg.ETH_REC_TIME_FAILOVER_MS))).recordPortCheck else s

/-- PORT_LINK_CHANGE: LINK holds while no fault is signalled and the bit error rate is good (R319). -/
def State.linkChange (s : State) (p : Nat) (link lf rf hiBer : Bool) (corrected uncorrected : Nat) : State :=
  if s.domain (25 + p) ≠ 2 then s
  else
    let s := (((s.putFlag (Reg.ETH_P_STATUS_LOCAL_FAULT p) lf).putFlag (Reg.ETH_P_STATUS_REMOTE_FAULT p) rf).putFlag
      (Reg.ETH_P_STATUS_HI_BER p) hiBer)
    let s := (s.bump (Reg.ETH_P_FEC_CORRECTED p) corrected).bump (Reg.ETH_P_FEC_UNCORRECTED p) uncorrected
    if link && !lf && !rf && !hiBer then
      (if s.flag (Reg.ETH_P_STATUS_LINK p) then s
       else ((s.put (Reg.ETH_P_STATUS_LINK p) 1).arm (Timer.portReady p) (msTicks 10)).portBits)
    else s.linkLost p

/-- PORT_LINK_CHANGE (R319). -/
def execPortLinkChange (p : Nat) (link localFault remoteFault hiBer : Bool) (corrected uncorrected : Nat) (s : State) :
    Host.Outcome State Fault Refusal :=
  if p < 4 then .next (s.linkChange p link localFault remoteFault hiBer corrected uncorrected) else .fault .noSuchPart

/-- PORT_READY: after LINK has held for 10 ms, with MODE above 0 and a good ETH_MAC (R319). A port that lacks one of these becomes READY once it
has it. -/
def execPortReady (p : Nat) (s : State) : Host.Outcome State Fault Refusal :=
  if p < 4 then
    .next (if s.get (Reg.ETH_P_CTRL_MODE p) = 0 ∨ !s.macGood then s
      else match s.fire (Timer.portReady p) with
        | none => s
        | some s =>
          let s := ((s.put (Reg.ETH_P_STATUS_READY p) 1).disarm (Timer.failover p)).portBits
          if s.recordsFlow then s.arm Timer.noRecord (msTicks 100) else s)
  else .fault .noSuchPart

/-- The effect of an ETH_Pp_CTRL write besides its value: the link restarts, and the port's domain follows MODE (R319, R403). -/
def State.restartPort (s : State) (p : Nat) : State :=
  let s := s.linkLost p
  if s.get (Reg.ETH_P_CTRL_MODE p) = 0 then s.setDomain (25 + p) 0
  else if 5 ≤ s.get Reg.CFG_PHASE_PHASE ∧ s.get Reg.CFG_PHASE_PHASE ≤ 6 then s.setDomain (25 + p) 2
  else s

/-- PORT_RETAIN: MODE above 0 and no signal at the lane for 1 s (Table 16-2, R404). -/
def execPortRetain (p : Nat) (s : State) : Host.Outcome State Fault Refusal :=
  if p < 4 then
    .next (if s.domain (25 + p) = 2 ∧ s.get (Reg.ETH_P_CTRL_MODE p) ≠ 0 ∧ !s.flag (Reg.ETH_P_STATUS_LINK p) then
        s.setDomain (25 + p) 3
      else s)
  else .fault .noSuchPart

/-- PORT_WAKE: signal at a retained port's lane (R404). -/
def execPortWake (p : Nat) (s : State) : Host.Outcome State Fault Refusal :=
  if p < 4 then .next (if s.domain (25 + p) = 3 then s.setDomain (25 + p) 2 else s) else .fault .noSuchPart

/-! ### Stream assignment (R324, R331) -/

/-- Whether an enabled stream other than st is assigned to port p by a table of (EN, PORT) of the four streams. -/
def sharesPort (en : Nat → Bool) (port : Nat → Nat) (st p : Nat) : Bool :=
  (List.range 4).any (fun i => decide (i ≠ st) && en i && decide (port i = p))

/-- Whether the assignments keep the rules of R324 and R331 as far as they bear on stream i, for given port modes and PTP port: a port that is
on; the raw-row stream alone on its port; a backup other than PORT that carries no other stream. -/
def streamGood (ctrl : Nat → Nat) (portCtrl : Nat → Nat) (ptp : Option Nat) (i : Nat) : Bool :=
  let en := fun i => bit (ctrl i) 0
  let port := fun i => bits (ctrl i) 1 2
  let backup := bits (ctrl 2) 4 2
  let backed := en 2 && bit (ctrl 2) 3
  (!en i || decide (portCtrl (port i) % 4 ≠ 0)) &&
  (decide (i ≠ 1) || !en 1 || (decide (portCtrl (port 1) % 4 = 2) && bit (portCtrl (port 1)) 3 && !sharesPort en port 1 (port 1) &&
    decide (ptp ≠ some (port 1)) && !(backed && decide (backup = port 1)))) &&
  (decide (i = 1) || !en 1 || !en i || (decide (port i ≠ port 1) && !(decide (i = 2) && backed && decide (backup = port 1)))) &&
  (decide (i ≠ 2) || (decide (backup ≠ port 2) && (!backed || !sharesPort en port 2 backup))) &&
  (decide (i = 2) || !backed || !en i || decide (port i ≠ backup))

/-- Whether all four assignments keep the rules. -/
def streamsGood (ctrl : Nat → Nat) (portCtrl : Nat → Nat) (ptp : Option Nat) : Bool := (List.range 4).all (streamGood ctrl portCtrl ptp)

/-- The PTP port in force. -/
def State.ptpPortNow (s : State) : Option Nat := if s.flag Reg.PTP_CTRL_EN then some (s.get Reg.PTP_CTRL_PORT) else none

/-- The stream words in force, and the port words. -/
def State.streamCtrl (s : State) (i : Nat) : Nat := (s.word (Reg.ETH_S_CTRL i)).toNat
def State.portCtrl (s : State) (p : Nat) : Nat := (s.word (Reg.ETH_P_CTRL p)).toNat

/-- A host write of ETH_Pp_CTRL: REFUSED for a code of MODE that the table does not give and for FEC outside mode 2 (R483; log entry 91), and
where an enabled stream on the port could then not be assigned to it (R324). -/
def State.hostPortCtrl (s : State) (p value : Nat) : Option State :=
  let v := value % 16
  let ports := fun i => if i = p then v else s.portCtrl i
  allow (decide (v % 4 ≠ 3) && (!bit v 2 || decide (v % 4 = 2)) &&
      (List.range 4).all (fun i => decide (bits (s.streamCtrl i) 1 2 ≠ p) || !bit (s.streamCtrl i) 0 ||
        streamGood s.streamCtrl ports s.ptpPortNow i))
    ((s.setWord (Reg.ETH_P_CTRL p) (BitVec.ofNat 32 v)).restartPort p)

/-- PORT_CTRL_WRITE (R319). -/
def execPortCtrlWrite (p value : Nat) (s : State) : Host.Outcome State Fault Refusal :=
  if p < 4 then .next (s.host (Reg.ETH_P_CTRL p) (s.hostPortCtrl p value)) else .fault .noSuchPart

/-- Whether a written PTP_CTRL keeps the PTP port off the port of the raw-row stream (R324). -/
def State.ptpCtrlGood (s : State) (w : Nat) : Bool :=
  !bit w 0 || !bit (s.streamCtrl 1) 0 || decide (bits w 2 2 ≠ bits (s.streamCtrl 1) 1 2)

/-- A host write of ETH_Ss_CTRL: REFUSED where the assignment would break R324 or R331. The record stream then starts from its
configured port. -/
def State.hostStream (s : State) (st value : Nat) : Option State :=
  let v := value % 128 + value / 65536 % 65536 * 65536
  let good := streamGood (fun i => if i = st then v else s.streamCtrl i) s.portCtrl s.ptpPortNow st
  let s' := s.setWord (Reg.ETH_S_CTRL st) (BitVec.ofNat 32 v)
  let s' := if st = 0 ∧ !s.flag (Reg.ETH_S_CTRL_EN 0) then { s' with eth := { s'.eth with lineNext := s.walk.nextField } } else s'
  let s' := if st = 2 then
      let t := ((s'.put Reg.ETH_STATUS_REC_PORT (bits v 1 2)).put Reg.ETH_STATUS_FAILED_OVER 0).watchPort (bits v 1 2)
      if bit v 0 then t.arm Timer.noRecord (msTicks 100) else (t.disarm Timer.noRecord).freeSlots
    else s'
  allow good s'

/-- STREAM_ASSIGN (R324). -/
def execStreamAssign (st value : Nat) (s : State) : Host.Outcome State Fault Refusal :=
  if st < 4 then .next (s.host (Reg.ETH_S_CTRL st) (s.hostStream st value)) else .fault .noSuchPart

/-! ### The record stream (R327–R331) -/

/-- Records outstanding: sent and not acknowledged. -/
def State.outstanding (s : State) : Bool := decide (s.acked < s.eth.maxSent)

/-- The RPOS below which records may be sent now: released, and within the window of 32,768 above ACKED (R330). -/
def State.sendLimit (s : State) : Nat := Nat.min s.stg.nextRpos (s.acked + 32768)

/-- Records per packet at most: PER_PKT, and 5 on a port without JUMBO (R327). -/
def State.perPacket (s : State) : Nat :=
  let n := s.get Reg.ETH_REC_PER_PKT
  if s.flag (Reg.ETH_P_CTRL_JUMBO (s.get Reg.ETH_STATUS_REC_PORT)) then n else Nat.min n 5

/-- Start sending from ACKED again (R329), but not records whose slots are free. -/
def State.resend (s : State) : State := { s with eth := { s.eth with nextSend := Nat.max s.acked s.stg.freed, resendTo := s.eth.maxSent } }

/-- WINDOW_FULL: the released records reach the end of the window (R330). -/
def State.windowFlag (s : State) : State :=
  s.putFlag Reg.ETH_STATUS_WINDOW_FULL (s.recordStreamOn && decide (s.acked + 32768 ≤ s.stg.nextRpos))

/-- Send one record packet of n records from the next RPOS (R327, R323). -/
def State.sendRecords (s : State) (n : Nat) : State :=
  let a := s.eth.nextSend
  let again := decide (a < s.eth.resendTo)
  let n := if again then Nat.min n (s.eth.resendTo - a) else n
  let body := (List.range n).flatMap (fun k => Map.read (fun _ => []) s.stg.slots (a + k))
  let s := s.newPackets.sendStream 2 (s.get Reg.ETH_STATUS_REC_PORT) (if again then 4 else 0) a n 0 body
  let s := if again then s.bump Reg.ETH_REC_RESENT_RESENT n else s
  let fresh := !s.outstanding
  let s := { s with eth := { s.eth with nextSend := a + n, maxSent := Nat.max s.eth.maxSent (a + n),
                                        progressAt := if fresh then s.time.ticks else s.eth.progressAt } }
  let s := s.arm Timer.noRecord (msTicks 100)
  let s := if fresh then s.arm Timer.rto (msTicks (s.get Reg.ETH_REC_TIME_RTO_MS)) else s
  s.windowFlag

/-- The tick at which the next record to be sent may wait no longer: SEND_US after its release (R327). -/
def State.sendDue (s : State) : Nat := (Map.find s.stg.ticks s.eth.nextSend).getD 0 + usTicks (s.get Reg.ETH_REC_SEND_US)

/-- RECORD_PACKET_SEND: a full packet goes at once, a partial one SEND_US after its first record (R327). -/
def State.recordPacket (s : State) : State :=
  if !s.recordsFlow ∨ s.sendLimit ≤ s.eth.nextSend then s
  else
    let n := s.sendLimit - s.eth.nextSend
    if s.perPacket ≤ n then s.sendRecords s.perPacket else (s.elapseTo s.sendDue).sendRecords n

/-- RECORD_PACKET_SEND (R327). -/
def execRecordPacketSend (s : State) : Host.Outcome State Fault Refusal := .next s.recordPacket

/-- An acknowledgement (R328, R329): ACKED advances to a SEQ within the sent records; one beyond them is counted; NACK sends from
ACKED again. -/
def State.acknowledge (s : State) (seq : Nat) (nack : Bool) : State :=
  let s :=
    if s.acked < seq ∧ seq ≤ s.eth.maxSent then
      let s := s.setPair Reg.ETH_REC_ACKED_LO seq
      let s := { s with eth := { s.eth with progressAt := s.time.ticks, nextSend := Nat.max s.eth.nextSend seq } }
      let s := if s.outstanding then s.arm Timer.rto (msTicks (s.get Reg.ETH_REC_TIME_RTO_MS)) else s.disarm Timer.rto
      s.windowFlag.freeSlots
    else if s.eth.maxSent < seq then s.bump Reg.ETH_REC_RESENT_ACK_BAD 1
    else s
  if nack then s.resend else s

/-- RECORD_ACK (R328). -/
def execRecordAck (p : Nat) (f : RxFrame) (seq : Nat) (nack : Bool) (s : State) : Host.Outcome State Fault Refusal :=
  if p < 4 then .next (s.received p f (fun s => s.acknowledge seq nack)) else .fault .noSuchPart

/-- RETRANSMIT_TIMEOUT (R329): while records are outstanding; the sending itself waits for a READY port. -/
def execRetransmitTimeout (s : State) : Host.Outcome State Fault Refusal :=
  .next (match s.fire Timer.rto with
    | none => s
    | some s =>
      if s.outstanding && s.recordStreamOn then s.resend.arm Timer.rto (msTicks (s.get Reg.ETH_REC_TIME_RTO_MS)) else s)

/-- KEEPALIVE (R330). -/
def execKeepalive (s : State) : Host.Outcome State Fault Refusal :=
  .next (match s.fire Timer.noRecord with
    | none => s
    | some s =>
      let s := s.arm Timer.noRecord (msTicks 100)
      if s.recordsFlow then s.newPackets.sendStream 2 (s.get Reg.ETH_STATUS_REC_PORT) 0 s.stg.nextRpos 0 0 [] else s)

/-- Move the record stream to a port and send from ACKED again there (R331, R329). The conditions of R331 are the new port's own from
here on (DEDUCED, log entry 11). -/
def State.moveRecords (s : State) (p : Nat) (failed : Bool) : State :=
  let t := (((s.put Reg.ETH_STATUS_REC_PORT p).putFlag Reg.ETH_STATUS_FAILED_OVER failed).resend).watchPort p
  { t with eth := { t.eth with progressAt := t.time.ticks } }

/-- Whether the port in use meets a condition of R331, with the state at the moment it meets the first. -/
def State.recordsStuck (s : State) : Option State :=
  let lacks := Timer.failover (s.get Reg.ETH_STATUS_REC_PORT)
  let dead := if s.outstanding then [s.eth.progressAt + msTicks (s.get Reg.ETH_REC_TIME_ACK_DEAD_MS)] else []
  (((s.due lacks).toList ++ dead).min?).map (fun t => (s.elapseTo t).disarm lacks)

/-- RECORD_FAILOVER: to BACKUP, or back to a READY configured port when the backup itself meets a condition (R331). -/
def State.failover (s : State) : State :=
  if !(s.recordStreamOn && s.flag (Reg.ETH_S_CTRL_BACKUP_EN 2)) then s
  else match s.recordsStuck with
    | none => s
    | some t =>
      if t.flag Reg.ETH_STATUS_FAILED_OVER then
        (if t.portReady (t.get (Reg.ETH_S_CTRL_PORT 2)) then t.moveRecords (t.get (Reg.ETH_S_CTRL_PORT 2)) false else s)
      else
        let b := t.get (Reg.ETH_S_CTRL_BACKUP 2)
        ((t.moveRecords b true).emit 0x0801 b (t.acked)).recordPortCheck

/-- RECORD_FAILOVER (R331). -/
def execRecordFailover (s : State) : Host.Outcome State Fault Refusal := .next s.failover

/-- RETURN in ETH_CMD: back to the configured port, provided it is READY (R331). -/
def State.hostReturn (s : State) : State :=
  let p := s.get (Reg.ETH_S_CTRL_PORT 2)
  if s.flag Reg.ETH_STATUS_FAILED_OVER ∧ s.portReady p then s.moveRecords p false else s

/-- RETURN (R331). -/
def execEthReturn (s : State) : Host.Outcome State Fault Refusal := .next (s.host Reg.ETH_CMD (some s.hostReturn))

/-- CLR_COUNTERS in ETH_CMD (Table 12-9). -/
def State.clearEthCounters (s : State) : State :=
  (List.range 4).foldl (fun t p => ((t.setWord (Reg.ETH_P_DROP p) 0).setWord (Reg.ETH_P_FEC p) 0).put
    (Reg.ETH_P_STATUS_LINK_DOWNS p) 0) ((s.setWord Reg.ETH_REC_RESENT 0).setWord Reg.ETH_LOSS 0)

/-- ETH_CLR_COUNTERS (R320). -/
def execEthClrCounters (s : State) : Host.Outcome State Fault Refusal := .next (s.host Reg.ETH_CMD (some s.clearEthCounters))

/-! ### The event stream (R333, R334) -/

/-- The 32 bytes of an event entry, little-endian (Table 12-6). -/
def eventBytes (e : Event) : List Byte :=
  leBytes 8 e.epos ++ leBytes 8 e.time ++ leBytes 2 e.code ++ leBytes 1 e.sev ++ leBytes 1 0 ++ leBytes 4 e.index ++ leBytes 8 e.arg

/-- One event packet of up to 32 events; on a port that is not READY it is discarded and its events count as lost (R319). -/
def State.sendEvents (s : State) : State :=
  let es := s.eth.events.take 32
  let p := s.get (Reg.ETH_S_CTRL_PORT 3)
  let s := { s with eth := { s.eth with events := s.eth.events.drop 32 } }
  if s.portReady p then
    s.newPackets.sendStream 3 p 0 ((es.map Event.epos).headD 0) es.length 0 (es.flatMap eventBytes)
  else s.bump Reg.ETH_LOSS_EVT_LOST es.length

/-- EVENT_PACKET_SEND: a full packet goes at once, and events wait at most 1 ms from the first of them (R334). -/
def execEventPacketSend (s : State) : Host.Outcome State Fault Refusal :=
  .next (match s.eth.events with
    | [] => s
    | e :: _ => if 32 ≤ s.eth.events.length then s.sendEvents else (s.elapseTo (e.tick + msTicks 1)).sendEvents)

end Sys2Proof.Machine
end

