-- ==== Sys2Proof/Machine/Hkc.lean ====
section
/-!
DEFINITION. The housekeeping converter (spec/15_housekeeping_converter.md R385–R397): its sequence, scaling, self-calibration, and what its
results feed.
-/
namespace Sys2Proof.Machine

/-! ### Times (R386, R391, R392) -/

/-- T of a rate, in ticks (Table 15-2): D modulator cycles of 400 ns. -/
def ratePeriod (rate : Nat) : Nat := 40 * [125, 250, 500, 1125, 2500, 41667, 50000, 250000].getD rate 0

/-- The length of an entry: 50 µs + N × T. -/
def entryTicks (order rate : Nat) : Nat := usTicks 50 + order * ratePeriod rate

/-- The length of a calibration phase: 50 µs + 9 × T at CAL_RATE. -/
def State.phaseTicks (s : State) : Nat := usTicks 50 + 9 * ratePeriod (s.get Reg.HKC_CTRL_CAL_RATE)

/-! ### The sequence (R394, R395, R397) -/

/-- A field of a sequence word. -/
def seqField (w : Nat) (f : Field) : Nat := bits w f.lo f.width

/-- The built-in sequence: AIN4, AIN5, AIN6 and DIODE at RATE 1, order 2, gain 0 (R397). -/
def builtinEntry (n : Nat) : Nat := match [12, 13, 14, 21][n]? with
  | some src => src + 32 + 2 * 64 + 1 * 512
  | none => 0

/-- The sequence word of entry n in force. -/
def State.seqWord (s : State) (n : Nat) : Nat := if s.hkc.builtin then builtinEntry n else (s.word (Reg.HKC_SEQ n)).toNat

/-- Whether entry n is enabled. -/
def State.entryOn (s : State) (n : Nat) : Bool := decide (seqField (s.seqWord n) (Reg.HKC_SEQ_EN 0) = 1)

/-- The excitation output that a source uses (Table 15-1, R391). -/
def sourceOutput (src : Nat) : Option Nat :=
  if 8 ≤ src ∧ src ≤ 11 then some (src - 8) else if src = 15 then some 3 else none

/-- CAL_BUSY and EXC_BUSY follow the phases that run or wait. -/
def State.hkcBusy (s : State) : State :=
  let all := (match s.hkc.job with
    | some (.phase p) => [p]
    | _ => []) ++ s.hkc.phases
  let exc := fun (p : HkcPhase) => match p with
    | .exc _ => true
    | _ => false
  (s.putFlag Reg.HKC_STATUS_CAL_BUSY (all.any (fun p => !exc p))).putFlag Reg.HKC_STATUS_EXC_BUSY (all.any exc)

/-- OFS in use for a gain. -/
def State.ofsInUse (s : State) (g : Nat) : Nat :=
  match s.hkc.heldOfs with
  | some (h, w) => if h = g then w else s.get (Reg.HKC_OFS_OFS g)
  | none => s.get (Reg.HKC_OFS_OFS g)

/-- An entry starts, with its word and factors as they stand. -/
def State.startEntry (s : State) (n : Nat) : State :=
  let w := s.seqWord n
  let g := seqField w (Reg.HKC_SEQ_GAIN 0)
  let cur := match sourceOutput (seqField w (Reg.HKC_SEQ_SOURCE 0)) with
    | some k => s.get (Reg.HKC_IEXC_CUR k)
    | none => 0
  let job := HkcJob.entry n w (s.ofsInUse g) (s.get (Reg.HKC_GAIN_GAIN g)) cur
  (({ s with hkc := { s.hkc with job := some job, next := n + 1, turn := false } }).put Reg.HKC_STATUS_ENTRY n).arm Timer.hkcEntry
    (entryTicks (seqField w (Reg.HKC_SEQ_ORDER 0)) (seqField w (Reg.HKC_SEQ_RATE 0)))

/-- A phase starts. -/
def State.startPhase (s : State) (p : HkcPhase) (rest : List HkcPhase) : State :=
  (({ s with hkc := { s.hkc with job := some (.phase p), phases := rest, turn := true } }).arm Timer.hkcPhase s.phaseTicks).hkcBusy

/-- The pass is over: counted, and with RUN set the next one follows after PASS_GAP, or after 1 ms when every entry is disabled. -/
def State.endPass (s : State) : State :=
  let s := ({ s with hkc := { s.hkc with inPass := false, turn := false } }).bump Reg.HKC_PASS_COUNT 1
  let s := s.put Reg.HKC_STATUS_RUNNING 0
  if !s.flag Reg.HKC_CTRL_RUN then s
  else s.arm Timer.hkcPass (if (List.range 24).any s.entryOn then msTicks (s.get Reg.HKC_CTRL_PASS_GAP) else msTicks 1)

/-- The converter is free: a waiting phase takes it at an entry boundary, with one entry between two phases (R392); else the pass goes on. -/
def State.hkcNext (s : State) : State :=
  if s.hkc.job.isSome ∨ s.resetting 12 then s
  else
    let entry := if s.hkc.inPass then (List.range 24).find? (fun n => decide (s.hkc.next ≤ n) && s.entryOn n) else none
    match s.hkc.phases, entry with
    | p :: rest, some n => if s.hkc.turn then s.startEntry n else s.startPhase p rest
    | p :: rest, none => (if s.hkc.inPass then s.endPass else s).startPhase p rest
    | [], some n => s.startEntry n
    | [], none => if s.hkc.inPass then s.endPass else s

/-- A pass starts: the pending sequence set comes into force (R395). -/
def State.startPass (s : State) : State :=
  let s := (s.transfer inSetHkc).put Reg.HKC_STATUS_SET_PENDING 0
  (({ s with hkc := { s.hkc with inPass := true, next := 0 } }).put Reg.HKC_STATUS_RUNNING 1).hkcNext

/-- HKC_PASS_START (R394). -/
def execHkcPassStart (s : State) : Host.Outcome State Fault Refusal :=
  .next (match s.fire Timer.hkcPass with
    | none => s
    | some s => if s.hkc.inPass then s else s.startPass)

/-! ### Scaling (R387–R390) -/

/-- The pin voltage u in µV: (code − OFS / 256) × GAIN / 2³⁰ × LSB, exact. -/
def pinMicrovolt (code : Int) (ofs gain gcode : Nat) : Rat :=
  let o : Int := (BitVec.ofNat 32 ofs).toInt
  ((256 * code - o : Int) : Rat) / 256 * (gain : Rat) / 1073741824 * 6400000 / ((2 ^ gcode * 16777216 : Nat) : Rat)

/-- R / R0 − 1 of the IEC 60751 relation below 0 °C for t in µK, exact (R389). -/
def pt1000Below (t : Int) : Rat :=
  let x : Rat := (t : Rat) / 1000000
  39083 / 10000000 * x - 5775 / 10000000000 * x * x - 4183 / 1000000000000000 * (x - 100) * x * x * x

/-- The least t in µK above lo at which the relation reaches q, within 2^k of lo. -/
def pt1000Search (q : Rat) : Nat → Int → Int
  | 0, lo => lo + 1
  | k + 1, lo => if q ≤ pt1000Below (lo + 2 ^ k) then pt1000Search q k lo else pt1000Search q k (lo + 2 ^ k)

/-- t in µK of a resistance in Ω; none where the relation has no solution. Below 0 °C the spec asks for the solution to within 1 µK, which
the two nearest integers both are: the part's choice between them is open (log entry 5). -/
def pt1000 (r : Rat) : Option Int :=
  let q := r / 1000 - 1
  if 0 ≤ q then
    -- a = 3.9083e-3, b = −5.775e-7: t = a / (2 |b|) − sqrt ((a² − 4 |b| q) / (4 b²)) in °C
    let a : Rat := 39083 / 10000000
    let b : Rat := 5775 / 10000000000
    let d := a * a - 4 * b * q
    if d < 0 then none else some (-(rheSqrtSub (d / (4 * b * b) * 1000000000000) (a / (2 * b) * 1000000)))
  else some (pt1000Search q 31 (-2147483648) - (if Config.pt1000Low q then 1 else 0))

/-- Nominal excitation of an EXC code, in 10 pA (R391). -/
def nominalCurrent (exc : Nat) : Nat := [0, 5000000, 10000000, 25000000, 50000000, 100000000].getD exc 0

/-- The result of an entry: its value and whether its source is out of range. The value that R388 to R390 do not state (DIODE, a reserved
source, a Pt1000 without current or solution) is free (log entry 5). -/
def State.scaled (s : State) (word cur : Nat) (u : Rat) (ovr : Bool) : Int × Bool :=
  let src := seqField word (Reg.HKC_SEQ_SOURCE 0)
  let free := s.drawn.toInt
  if src < 8 then
    let c := fun (f : Nat → Field) => (s.getS (f src) : Rat)
    (satS32 (rheQ (c Reg.HKC_TH_C0_C0 + c Reg.HKC_TH_C1_C1 * u / 65536 + c Reg.HKC_TH_C2_C2 * u * u / 4294967296)), ovr)
  else if src < 11 then
    let i := if cur = 0 then nominalCurrent (seqField word (Reg.HKC_SEQ_EXC 0)) else cur
    if i = 0 then (free, true)
    else
      let r := u * 100000 / (i : Rat)
      match pt1000 r with
      | some t => (satS32 t, ovr || decide (r < 500 ∨ 2000 < r))
      | none => (free, true)
  else if src = 12 then (satS32 (rheQ (u * 20 / 1000)), ovr)
  else if src = 13 then (satS32 (rheQ (u * 10 / 1000)), ovr)
  else if src = 14 then (satS32 (rheQ (u * 5 / 1000)), ovr)
  else if 17 ≤ src ∧ src ≤ 20 then (satS32 (rheQ (u * (Config.tapRatio (src - 17) : Rat) / 65536000)), ovr)
  else if src = 11 ∨ src = 15 ∨ src = 16 ∨ src = 22 then (satS32 (rheQ u), ovr)
  else (free, ovr)

/-! ### What the results feed (R71, R145, R253, R263, R387) -/

/-- A reference reading: with OVR it is no new reading, and the reference counts as out of range. -/
def referenceReading (old : Option (Int × Bool)) (v : Int) (ovr : Bool) : Option (Int × Bool) :=
  if ovr then some ((old.map (fun p => p.1)).getD v, true) else some (v, false)

/-- The result of a source takes effect. -/
def State.sourceResult (s : State) (src : Nat) (v : Int) (ovr : Bool) : State :=
  if src < 8 then (if ovr then s.failTherm src 1 else s.thermReading src v)
  else if src = 8 then { s with cal := { s.cal with flagLatest := referenceReading s.cal.flagLatest v ovr } }
  else if src = 9 then { s with cal := { s.cal with plateLatest := referenceReading s.cal.plateLatest v ovr } }
  else if src = 12 then (if ovr then s else s.vboostResult v.toNat)
  else if src = 13 then (if ovr then s else { s with vlv := { s.vlv with vhold := some v.toNat } })
  else s

/-- A conversion ends (R386, R387, R396): the code is clamped where the input was beyond full scale. -/
def State.entryDone (s : State) (n word ofs gain cur : Nat) (code : Int) (ovr : Bool) : State :=
  let c := if ovr then (if 0 ≤ code then 8388607 else -8388608) else clampI (-8388608) 8388607 code
  let r := s.scaled word cur (pinMicrovolt c ofs gain (seqField word (Reg.HKC_SEQ_GAIN 0))) ovr
  let s := s.draw
  let s := ((s.put (Reg.HKC_RAW_CODE n) (c % 16777216).toNat).putFlag (Reg.HKC_RAW_OVR n) r.2).put (Reg.HKC_RAW_VALID n) 1
  (s.putS (Reg.HKC_VAL_VALUE n) r.1).sourceResult (seqField word (Reg.HKC_SEQ_SOURCE 0)) r.1 r.2

/-- HKC_ENTRY_DONE (R386): `code` is the converter's result, `ovr` an input beyond full scale or a modulator overload. -/
def execHkcEntryDone (code : Int) (ovr : Bool) (s : State) : Host.Outcome State Fault Refusal :=
  .next (match s.hkc.job with
    | some (.entry n word ofs gain cur) => (match s.fire Timer.hkcEntry with
      | none => s
      | some s => (({ s with hkc := { s.hkc with job := none } }).entryDone n word ofs gain cur code ovr).hkcNext)
    | _ => s)

/-! ### Calibration (R391, R392) -/

/-- Add phases; the converter takes them when it is free. -/
def State.addPhases (s : State) (ps : List HkcPhase) : State :=
  (({ s with hkc := { s.hkc with phases := s.hkc.phases ++ ps } }).hkcBusy).hkcNext

/-- Whether SELF_CAL or EXC_CAL runs. -/
def State.calibrating (s : State) : Bool := s.flag Reg.HKC_STATUS_CAL_BUSY || s.flag Reg.HKC_STATUS_EXC_BUSY

/-- A write of HKC_CMD: each command is REFUSED while either runs (a SELF_CAL of the same word included, R357), and SELF_CAL for gains 6
and 7. -/
def State.hostHkcCmd (s : State) (w : Nat) : State × Bool :=
  let g := bits w 1 3
  let r := thenAct (s, false) (bit w 0) (fun t => if t.calibrating ∨ 5 < g then none else some (t.addPhases [.offset g, .gain g]))
  thenAct r (bit w 4) (fun t => if t.calibrating then none else some (t.addPhases [.exc 0, .exc 1, .exc 2, .exc 3]))

/-- SELF_CAL (R392). -/
def execSelfCal (gain : Nat) (s : State) : Host.Outcome State Fault Refusal :=
  .next (s.hostDone Reg.HKC_CMD (s.hostHkcCmd (1 + 2 * (gain % 8))))

/-- EXC_CAL (R391). -/
def execExcCal (s : State) : Host.Outcome State Fault Refusal := .next (s.hostDone Reg.HKC_CMD (s.hostHkcCmd 16))

/-- Whether an enabled entry uses an excitation output. -/
def State.outputUsed (s : State) (k : Nat) : Bool :=
  (List.range 24).any (fun n => s.entryOn n && decide (seqField (s.seqWord n) (Reg.HKC_SEQ_EXC 0) ≠ 0 ∧
    sourceOutput (seqField (s.seqWord n) (Reg.HKC_SEQ_SOURCE 0)) = some k))

/-- The factor of a phase is written; both factors of a gain apply once its gain phase has ended. -/
def State.phaseDone (s : State) (p : HkcPhase) (factor : Nat) : State :=
  match p with
  | .offset g => ({ s with hkc := { s.hkc with heldOfs := some (g, s.get (Reg.HKC_OFS_OFS g)) } }).put (Reg.HKC_OFS_OFS g) factor
  | .gain g =>
    let s := { s with hkc := { s.hkc with heldOfs := none } }
    (s.put (Reg.HKC_GAIN_GAIN g) factor).put Reg.HKC_STATUS_UNCAL (setBit (s.get Reg.HKC_STATUS_UNCAL) g false)
  | .exc k => if s.outputUsed k then s.put (Reg.HKC_IEXC_CUR k) factor else s

/-- CAL_PHASE_DONE (R391, R392): `factor` is what the phase measured, in the unit of its register. -/
def execCalPhaseDone (factor : Nat) (s : State) : Host.Outcome State Fault Refusal :=
  .next (match s.hkc.job with
    | some (.phase p) => (match s.fire Timer.hkcPhase with
      | none => s
      | some s => ((({ s with hkc := { s.hkc with job := none } }).phaseDone p factor).hkcBusy).hkcNext)
    | _ => s)

/-! ### Start-up and host writes (R393, R395, R397) -/

/-- The converter powers up: gain 0 is self-calibrated, and the built-in sequence runs. -/
def State.hkcStart (s : State) : State :=
  let s := ((s.setDomain 33 2).arm Timer.boostStale (msTicks 100)).put Reg.HKC_STATUS_RUNNING 1
  ({ s with hkc := { HkcState.reset with inPass := true } }).addPhases [.offset 0, .gain 0]

/-- At commit the image's set replaces the built-in one: its uncalibrated gains are self-calibrated, and EXC_CAL runs. -/
def State.hkcCommit (s : State) : State :=
  let s := { s with hkc := { s.hkc with builtin := false, inPass := true, next := 0 } }.put Reg.HKC_STATUS_RUNNING 1
  let gains := (List.range 6).filter (fun g => bit (s.get Reg.HKC_STATUS_UNCAL) g && !(s.hkc.phases.any (fun p => decide (p = .gain g))) &&
    decide (s.hkc.job ≠ some (.phase (.offset g)) ∧ s.hkc.job ≠ some (.phase (.gain g))) &&
    (List.range 24).any (fun n => s.entryOn n && decide (seqField (s.seqWord n) (Reg.HKC_SEQ_GAIN 0) = g)))
  (s.disarm Timer.hkcPass).addPhases (gains.flatMap (fun g => [.offset g, .gain g]) ++ [.exc 0, .exc 1, .exc 2, .exc 3])

/-- Whether a sequence word passes R395. -/
def seqAllowed (w : Nat) : Bool :=
  let o := seqField w (Reg.HKC_SEQ_ORDER 0)
  let e := seqField w (Reg.HKC_SEQ_EXC 0)
  decide (1 ≤ o ∧ o ≤ 5 ∧ seqField w (Reg.HKC_SEQ_GAIN 0) ≤ 5 ∧ e ≤ 5) && (decide (e = 0) || (sourceOutput (seqField w (Reg.HKC_SEQ_SOURCE 0))).isSome)

/-- A write of HKC_CTRL: with RUN set an idle converter starts a pass. -/
def State.hkcCtrlEffect (s : State) : State :=
  if !s.flag Reg.HKC_CTRL_RUN then s.disarm Timer.hkcPass
  else if s.hkc.inPass ∨ (s.due Timer.hkcPass).isSome then s
  else s.arm Timer.hkcPass 0

end Sys2Proof.Machine
end

