-- ==== Sys2Proof/Machine/Relations.lean ====
section
/-!
DEFINITION. The ranges of register values (spec/00_scope.md R483, R484): the ranges that depend on the register's place or on several
fields of its word, and the relations between fields of different words.
-/
namespace Sys2Proof.Machine

/-- A field of the words that a table of words holds. -/
def Field.look (f : Field) (look : Nat → Word) : Nat := f.of (look f.addr)

/-- The profile whose words lie at an address (R266). -/
def profileOf (a : Nat) : Option Nat :=
  if Reg.VLV_PROF_0 0 ≤ a ∧ a < Reg.VLV_PROF_0 20 then some ((a - Reg.VLV_PROF_0 0) / 32) else none

/-- An IPv4 address of the multicast range 224.0.0.0/4, and a unicast one: neither multicast, nor 0.0.0.0, nor the broadcast address. -/
def multicastIp (w : Nat) : Bool := decide (w / 2 ^ 28 = 14)
def unicastIp (w : Nat) : Bool := !multicastIp w && decide (w ≠ 0 ∧ w ≠ 2 ^ 32 - 1)

/-- Ranges that hold within one word beyond those of single fields: PEAK_MA and HOLD_MA of a valve profile, or 0 in an AUX profile (Table
10-16); a sequence word (R395); DATA_BASE, a multiple of 4 (R225); a unicast ETH_IP, a DIP of streams 2 and 3 that is no multicast address, and FEC
in mode 2 only (Tables 12-9, 12-11; log entry 91). -/
def placeAllows (a : Nat) (w : Word) : Bool :=
  match profileOf a with
  | some p =>
    if a = Reg.VLV_PROF_0 p then
      let k := (Reg.VLV_PROF_0_PEAK_MA p).of w
      let h := (Reg.VLV_PROF_0_HOLD_MA p).of w
      decide (200 ≤ k ∨ (16 ≤ p ∧ k = 0)) && decide (50 ≤ h ∨ (16 ≤ p ∧ h = 0))
    else true
  | none =>
    if Reg.HKC_SEQ 0 ≤ a ∧ a < Reg.HKC_SEQ 24 then seqAllowed w.toNat
    else if Reg.AST_SLOT_PROG 0 ≤ a ∧ a < Reg.AST_SLOT_PROG 16 ∧ a % 16 = 8 then decide (w.toNat % 4 = 0)
    else if a = Reg.ETH_IP then unicastIp w.toNat
    else if a = Reg.ETH_S_DIP 2 ∨ a = Reg.ETH_S_DIP 3 then !multicastIp w.toNat
    else if (List.range 4).any (fun p => decide (a = Reg.ETH_P_CTRL p)) then !bit w.toNat 2 || decide (w.toNat % 4 = 2)
    else true

/-- Whether a word is in range as far as the word itself tells (R483). -/
def wordInRange (r : RegRow) (a w : Nat) : Bool := r.allows w && placeAllows a (BitVec.ofNat 32 w)

/-- The relations of a profile (Table 10-16). -/
def profileRelations (look : Nat → Word) (p : Nat) : Bool :=
  let peak := (Reg.VLV_PROF_0_PEAK_MA p).look look
  let hold := (Reg.VLV_PROF_0_HOLD_MA p).look look
  let rel := (Reg.VLV_PROF_2_RELEASE_MA p).look look
  let dipEnd := (Reg.VLV_PROF_3_DIP_END p).look look
  decide (hold ≤ peak) && decide (rel ≤ hold ∨ (16 ≤ p ∧ hold = 0)) && decide ((Reg.VLV_PROF_3_DIP_START p).look look < dipEnd) &&
    decide (dipEnd ≤ (Reg.VLV_PROF_1_BOOST_MAX p).look look)

/-- The relations between fields that a register takes part in, for the words as they would stand (R484). -/
def relationsAt (look : Nat → Word) (a : Nat) : Bool :=
  match profileOf a with
  | some p => profileRelations look p
  | none =>
    if a = Reg.TRK_HOT then decide (Reg.TRK_HOT_HOT_EDGE.look look ≤ Reg.TRK_HOT_HOT_TH.look look)
    else if a = Reg.TRK_COLD then decide (Reg.TRK_COLD_COLD_EDGE.look look ≤ Reg.TRK_COLD_COLD_TH.look look)
    else if a = Reg.CAL_G_MIN ∨ a = Reg.CAL_G_MAX then decide (Reg.CAL_G_MIN_G_MIN.look look < Reg.CAL_G_MAX_G_MAX.look look)
    else if a = Reg.DRL_ONTIME then decide (Reg.DRL_ONTIME_MIN_ON.look look ≤ Reg.DRL_ONTIME_MAX_ON.look look)
    else if a = Reg.DRL_VLIMIT then decide (Reg.DRL_VLIMIT_V_FLOOR.look look ≤ Reg.DRL_VLIMIT_V_FULL.look look)
    else if Reg.DRL_CLASS_LEAD 0 ≤ a ∧ a < Reg.DRL_CLASS_LEAD 4 ∧ a % 16 = 0 then
      let k := (a - Reg.DRL_CLASS_LEAD 0) / 16
      decide ((Reg.DRL_CLASS_LEAD_LEAD_MIN k).look look ≤ (Reg.DRL_CLASS_LEAD_LEAD_MAX k).look look)
    else if Reg.DMA_CH_PACE 0 ≤ a ∧ a < Reg.DMA_CH_PACE 8 ∧ (a - Reg.DMA_CH_PACE 0) % 64 = 0 then
      let n := (a - Reg.DMA_CH_PACE 0) / 64
      decide ((Reg.DMA_CH_PACE_LO_PCT n).look look < (Reg.DMA_CH_PACE_HI_PCT n).look look)
    else if a = Reg.PWR_VID then
      decide (Reg.PWR_VID_VID_MIN.look look ≤ Reg.PWR_VID_VID_MAX.look look ∧ Reg.PWR_VID_HR_LOW.look look + 5 ≤ Reg.PWR_VID_HR_HIGH.look look)
    else if a = Reg.PWR_TRIP ∨ a = Reg.PWR_THROTTLE then
      decide (10 * Reg.PWR_THROTTLE_T_THROTTLE.look look + 4 * Reg.PWR_THROTTLE_SPAN14.look look + Reg.PWR_THROTTLE_SPAN5.look look <
        10 * Reg.PWR_TRIP_T_TRIP.look look)
    else if Reg.AST_SLOT_PROG 0 ≤ a ∧ a < Reg.AST_SLOT_PROG 16 ∧ (a % 16 = 8 ∨ a % 16 = 12) then
      let n := (a - Reg.AST_SLOT_PROG 0) / 16
      decide ((Reg.AST_SLOT_DBASE_DATA_BASE n).look look + (Reg.AST_SLOT_DLEN_DATA_LEN n).look look ≤ 0x1B0000)
    else true

/-- The registers whose fields stand in a relation. -/
def relationAddrs : List Nat :=
  [Reg.TRK_HOT, Reg.TRK_COLD, Reg.CAL_G_MIN, Reg.DRL_ONTIME, Reg.DRL_VLIMIT, Reg.PWR_VID, Reg.PWR_TRIP] ++ (List.range 4).map Reg.DRL_CLASS_LEAD ++
    (List.range 8).map Reg.DMA_CH_PACE ++ (List.range 16).map Reg.AST_SLOT_DBASE ++ (List.range 20).map Reg.VLV_PROF_0

/-- Every relation holds (R486). -/
def relationsHold (look : Nat → Word) : Bool := relationAddrs.all (relationsAt look)

end Sys2Proof.Machine
end

