-- ==== Sys2Proof/Machine/Glean.lean ====
section
/-!
DEFINITION. Gleaning and the quality figure (spec/06_calibration.md R153, R166–R169).
-/
namespace Sys2Proof.Machine

/-! ### Blind spans (R153) -/

/-- Whether a line lies in a blind span. -/
def State.blindLine (s : State) (n : Nat) : Bool :=
  match s.cal.blind with
  | none => false
  | some (a, none) => decide (a ≤ n)
  | some (a, some b) => decide (a ≤ n ∧ n ≤ b)

/-- Whether no blind span reaches line m or a later line. -/
def State.seenSince (s : State) (m : Nat) : Bool :=
  match s.cal.blind with
  | none => true
  | some (_, none) => false
  | some (_, some b) => decide (b < m)

/-! ### Which samples qualify (R166) -/

/-- W of R166. -/
def State.gleanReach (s : State) : Nat := ceilDiv (23 * 256) (s.get Reg.COR_WALK_STATUS_EFF_VEL) + s.get Reg.CAL_GAP_GUARD

/-- The columns that disqualify their neighbours in field lines a to b: a pixel beyond a threshold or with SAT, LOST, CLAMP, RANGE or
INTERP. -/
def State.badColumns (s : State) (a b : Nat) : List Nat :=
  (s.trk.marks.filter (fun e => decide (a ≤ e.1 ∧ e.1 ≤ b))).flatMap (fun e => e.2)

/-- Whether columns c − 1 to c + 1 of field lines a to b touch a sheaf's box, open or closed. -/
def State.inBox (s : State) (a b c : Nat) : Bool :=
  let hits := fun (o l le ri : Nat) => decide (o ≤ b ∧ a ≤ l ∧ le ≤ c + 1 ∧ c ≤ ri + 1)
  s.trk.boxes.any (fun x => hits x.1 x.2.1 x.2.2.1 x.2.2.2) ||
    s.trk.sheaves.any (fun e => decide (e.2.state = 1) && hits e.2.ctx.openLine e.2.ctx.lastLine e.2.ctx.left e.2.ctx.right)

/-- The columns of line m whose samples may qualify when field line n is formed. -/
def State.gleanColumns (s : State) (m n : Nat) : List Nat :=
  let a := m - s.get Reg.CAL_GAP_GUARD
  let bad := s.badColumns a n
  (List.range 4096).filter (fun c => !bad.contains c && !bad.contains (c + 1) && !(decide (0 < c) && bad.contains (c - 1)) && !s.inBox a n c)

/-! ### The sums and the update of D (R167) -/

/-- g_eff of a pixel in a line. -/
def State.gEff (s : State) (a : Nat) (dts : Int) : Rat :=
  ((s.memU (a + 4) : Nat) : Rat) / 65536 * (1 + ((s.memS (a + 12) * dts : Int) : Rat) / (256000000000000 : Nat))

/-- The updated D: a g_eff of zero has no stated update (a free value, log entry 5). -/
def State.gleanedD (s : State) (a : Nat) (dts sum : Int) (n : Nat) : State × Int × Bool :=
  let lim : Int := 256 * (s.get Reg.CAL_GLEAN_D_LIMIT : Int)
  let g := s.gEff a dts
  let step : Int := if g = 0 then (s.drawn.toInt) else rheQ (256 * ((sum : Rat) / (n : Nat)) / g / (2 ^ s.get Reg.CAL_GLEAN_GLEAN_SHIFT : Nat))
  let d := clampI (-lim) lim (s.memS (a + 20) + step)
  (if g = 0 then s.draw else s, d, decide (d = lim ∨ d = -lim))

/-- One more qualifying sample of a pixel: its sum, and after GLEAN_LINES samples the update of D that the next line boundary writes
(R107). -/
def State.gleanSample (s : State) (i : Nat) (eps dts : Int) : State :=
  let o := (Map.find s.cal.glean i).getD (0, 0)
  let sum := o.1 + eps
  let n := o.2 + 1
  if n < s.get Reg.CAL_GLEAN_GLEAN_LINES then { s with cal := { s.cal with glean := Map.insert s.cal.glean i (sum, n) } }
  else
    let r := s.gleanedD (bankBase s.activeBank + 32 * i) dts sum n
    { r.1 with cal := { r.1.cal with glean := Map.erase r.1.cal.glean i, writes := r.1.cal.writes ++ [(i, r.2.1, r.2.2)] } }

/-- One more qualifying sample for the quality figure, up to QUAL_SAMPLES a pixel. -/
def State.qualSample (s : State) (i : Nat) (eps : Int) : State :=
  let o := (Map.find s.cal.qual i).getD (0, 0, 0)
  if s.get Reg.CAL_QUAL_QUAL_SAMPLES ≤ o.2.2 then s
  else { s with cal := { s.cal with qual := Map.insert s.cal.qual i (o.1 + eps, o.2.1 + eps * eps, o.2.2 + 1) } }

/-- One sample of the row history, if it qualifies by its own value and its pixel record (R166). -/
def State.gleanPixel (s : State) (on : Bool) (m row c : Nat) (plate : Int) (dts : List (Option Int)) : State :=
  let i := row * 4160 + physOf c
  let a := bankBase s.activeBank + 32 * i
  match s.sample m row c with
  | none => s
  | some v =>
    if s.deadAt a ∨ s.memU (a + 4) = 0 then s
    else
      let s := if on then s.gleanSample i (v.1 - plate) (columnDts dts (physOf c)) else s
      if s.flag Reg.CAL_STATUS_QUAL_BUSY then s.qualSample i (v.1 - plate) else s

/-! ### The quality figure (R169) -/

/-- The image pixels of the active bank that are not DEAD. -/
def State.livePixels (s : State) : List Nat :=
  (List.range 24).flatMap (fun r => ((List.range 4096).map (fun c => r * 4160 + physOf c)).filter
    (fun i => !s.deadAt (bankBase s.activeBank + 32 * i)))

/-- The mean of a list of exact values that is not empty. -/
def meanR (l : List Rat) : Rat := l.foldl (· + ·) 0 / (l.length : Nat)

/-- A non-negative exact square root, rounded to a u32. -/
def sqrtU32 (q : Rat) : Nat := Nat.min (rheSqrt (max 0 q).num.toNat (max 0 q).den) 4294967295

/-- The figure is written and told; over no pixel at all its values are open (free values, log entry 5). -/
def State.qualityDone (s : State) (partly : Bool) : State :=
  let px := s.cal.qual.filter (fun e => decide (0 < e.2.2.2))
  let m := px.map (fun e => ((e.2.1 : Rat) / (e.2.2.2 : Nat)))
  let s2 := px.map (fun e => ((e.2.2.1 : Rat) / (e.2.2.2 : Nat) - ((e.2.1 : Rat) / (e.2.2.2 : Nat)) * ((e.2.1 : Rat) / (e.2.2.2 : Nat))))
  let err := px.map (fun e => (((e.2.2.1 : Rat) / (e.2.2.2 : Nat) - ((e.2.1 : Rat) / (e.2.2.2 : Nat)) * ((e.2.1 : Rat) / (e.2.2.2 : Nat))) / (e.2.2.2 : Nat)))
  let none_ := px.isEmpty
  let rms := if none_ then s.drawn.toNat else sqrtU32 (meanR (m.map (fun x => x * x)) - meanR err)
  let peak := if none_ then s.draw.drawn.toNat else (satU32 (rheQ (m.foldl (fun b x => max b (max x (-x))) 0))).toNat
  let noise := if none_ then s.draw.draw.drawn.toNat else sqrtU32 (meanR s2)
  let s := if none_ then s.draw.draw.draw else s
  let s := ((s.put Reg.CAL_QUAL_RMS_UK rms).put Reg.CAL_QUAL_PEAK_UK peak).put Reg.CAL_QUAL_NOISE_UK noise
  let s := (s.put Reg.CAL_QUAL_INFO_PIXELS px.length).putFlag Reg.CAL_QUAL_INFO_PARTIAL partly
  let s := ({ s.put Reg.CAL_STATUS_QUAL_BUSY 0 with cal := { s.cal with qual := [] } }).disarm Timer.qual
  s.emit 0x0306 px.length (rms + peak * 2 ^ 32)

/-- The measurement ends when every image pixel that is not DEAD has its samples. -/
def State.qualityCheck (s : State) : State :=
  if s.flag Reg.CAL_STATUS_QUAL_BUSY ∧ s.livePixels.all (fun i => decide (s.get Reg.CAL_QUAL_QUAL_SAMPLES ≤ ((Map.find s.cal.qual i).getD (0, 0, 0)).2.2)) then
    s.qualityDone false
  else s

/-- QUAL_TIMEOUT (R169). -/
def execQualTimeout (s : State) : Host.Outcome State Fault Refusal :=
  .next (match s.fire Timer.qual with
    | none => s
    | some t => if t.flag Reg.CAL_STATUS_QUAL_BUSY then t.qualityDone true else t)

/-! ### Field line n is formed (R166, R168) -/

/-- Samples of line m are evaluated. -/
def State.gleanLine (s : State) (m n : Nat) (plate : Int) : State :=
  let cols := s.gleanColumns m n
  let dts := match s.cor.env with
    | e :: _ => e.dts
    | [] => []
  let on := s.flag Reg.CAL_CTRL_GLEAN_ON
  let s := cols.foldl (fun t c => (List.range 24).foldl (fun u r => u.gleanPixel on m r c plate dts) t) s
  s.qualityCheck

/-- GLEANING: line n − W is evaluated once, unless throttling leaves it out (R168). -/
def State.glean (s : State) (n : Nat) : State :=
  let w := s.gleanReach
  let reach := decide (w ≤ 47)
  let blind := !s.seenSince (n - w)
  let s := (s.putFlag Reg.CAL_STATUS_GLEAN_REACH reach).putFlag Reg.CAL_STATUS_GLEAN_ACTIVE
    (s.flag Reg.CAL_CTRL_GLEAN_ON && reach && !s.flag Reg.CAL_STATUS_BLIND && s.cal.plateOk)
  let m := n - w
  if !reach ∨ n < w ∨ m < s.cal.gleanNext ∨ m < s.walk.histFrom then s
  else
    let d := dropStep s.cal.gleanAcc (1 - (s.get Reg.CAL_STATUS_GLEAN_16THS : Rat) / 16)
    let s := { s with cal := { s.cal with gleanNext := m + 1, gleanAcc := d.1 } }
    match findEnv s.cor.env m with
    | none => s
    | some e => match e.plate with
      | none => s
      | some p => if d.2 ∨ blind ∨ m < s.cal.lastSwap ∨ !s.cal.plateOk then s else s.gleanLine m n p

end Sys2Proof.Machine
end

