-- ==== Sys2Proof/Machine/Track.lean ====
section
/-!
DEFINITION. Object detection (spec/07_sheaf_tracking.md R179–R196): classes, runs, connections, the velocity fit, admission, shadows
and seals.
-/
namespace Sys2Proof.Machine

/-! ### Classes and runs (R182, R183) -/

/-- The class of a field pixel (Table 7-1): 2 hot core, 1 hot edge, 0 none, −1 cold edge, −2 cold core. -/
def State.pixelClass (s : State) (c : Nat) (p : FieldPixel) : Int :=
  match Map.find s.trk.bg c with
  | none => 0
  | some b =>
    let d := p.value - b
    if p.rows = 0 then 0
    else if anyFlag p.flags Pf.sat then 2
    else if 1000 * (s.get Reg.TRK_HOT_HOT_TH : Int) < d then 2
    else if 1000 * (s.get Reg.TRK_HOT_HOT_EDGE : Int) < d then 1
    else if d < -(1000 * (s.get Reg.TRK_COLD_COLD_TH : Int)) then -2
    else if d < -(1000 * (s.get Reg.TRK_COLD_COLD_EDGE : Int)) then -1
    else 0

/-- A run: polarity (0 hot, 1 cold), columns from left to right, core pixels, and its core and edge columns. -/
structure Run where
  pol   : Nat
  left  : Nat
  right : Nat
  core  : Nat
  cols  : List Nat
  deriving DecidableEq, Repr

/-- One more column of a run. -/
def Run.extend (r : Run) (c : Nat) (core : Bool) : Run :=
  { r with right := c, core := r.core + (if core then 1 else 0), cols := r.cols ++ [c] }

/-- The runs of one polarity, left to right: (column, class) pairs, gap allowed, the run being formed, those before it. -/
def formRuns (pol bridge : Nat) : List (Nat × Int) → Option Run → List Run
  | [], o => o.toList
  | (c, k) :: rest, o =>
    if k = 0 then formRuns pol bridge rest o
    else if decide (0 < k) = decide (pol = 0) then
      let core := decide (k = 2 ∨ k = -2)
      let fresh : Run := ⟨pol, c, c, if core then 1 else 0, [c]⟩
      match o with
      | none => formRuns pol bridge rest (some fresh)
      | some r => if c ≤ r.right + bridge + 1 then formRuns pol bridge rest (some (r.extend c core))
        else r :: formRuns pol bridge rest (some fresh)
    else o.toList ++ formRuns pol bridge rest none

/-- Insertion in order of the leftmost column, hot before cold (R190). -/
def insertRun (r : Run) : List Run → List Run
  | [] => [r]
  | q :: qs => if r.left < q.left ∨ (r.left = q.left ∧ r.pol ≤ q.pol) then r :: q :: qs else q :: insertRun r qs

/-- The runs of a field line, in order of their leftmost column. -/
def State.runsOf (s : State) (cls : List (Nat × Int)) : List Run :=
  let b := s.get Reg.TRK_SHAPE_BRIDGE
  let hot := if s.flag Reg.TRK_CTRL_HOT_EN then formRuns 0 b cls none else []
  let cold := if s.flag Reg.TRK_CTRL_COLD_EN then formRuns 1 b cls none else []
  cold.foldr insertRun (hot.foldr insertRun [])

/-! ### Connections (R184, R185) -/

/-- The columns of a run inside a window: none when it lies wholly outside. -/
def Run.clip (r : Run) (win : Nat) : Option (Nat × Nat) :=
  let a := Nat.max r.left win
  let b := Nat.min r.right (win + 511)
  if a ≤ b then some (a, b) else none

/-- Whether a run connects to a context. -/
def Ctx.touches (x : Ctx) (r : Run) : Bool :=
  decide (x.pol = r.pol) && (match r.clip x.winLeft with
    | some (a, b) => x.ext.any (fun p => decide (a ≤ p.2 + 1 ∧ p.1 ≤ b + 1))
    | none => false)

/-- What a run may extend: the sheaf of a slot, or a shadow or silent context by its age. -/
inductive Target where
  | sheaf (slot : Nat)
  | shadow (age : Nat)
  deriving DecidableEq, Repr

/-- The open sheaves in order of admission. -/
def State.openSheaves (s : State) : List Sheaf := s.bySeq.filter (fun x => decide (x.state = 1))

/-- The context that a run extends (Table 7-2). Contexts opened in this line take no part (R184). -/
def State.targetOf (s : State) (n : Nat) (r : Run) : Option Target :=
  match (s.openSheaves.filter (fun x => decide (x.ctx.openLine < n))).find? (fun x => x.ctx.touches r) with
  | some x => some (.sheaf x.slot)
  | none => (s.trk.shadows.find? (fun x => decide (x.ctx.openLine < n) && x.ctx.touches r)).map (fun x => .shadow x.ctx.age)

/-- The context of a target. -/
def State.targetCtx (s : State) : Target → Option Ctx
  | .sheaf slot => (s.sheaf slot).map (fun x => x.ctx)
  | .shadow age => (s.trk.shadows.find? (fun x => decide (x.ctx.age = age))).map (fun x => x.ctx)

/-- Change the context of a target. -/
def State.onCtx (s : State) (t : Target) (f : Ctx → Ctx) : State :=
  match t with
  | .sheaf slot => s.onSheaf slot (fun x => { x with ctx := f x.ctx })
  | .shadow age => { s with trk := { s.trk with shadows := s.trk.shadows.map (fun (x : Shadow) => if x.ctx.age = age then { x with ctx := f x.ctx } else x) } }

/-! Sheaf flags (Table 7-9). -/
namespace Sf
def touching : Nat := 1
def wide : Nat := 2
def long : Nat := 4
def continued : Nat := 8
def mem : Nat := 16
def link : Nat := 32
def reset : Nat := 64
def velNominal : Nat := 128
def edge : Nat := 256
def imgErr : Nat := 512
end Sf

/-! ### Seals (R186, R195, Table 7-3) -/

/-- A sheaf seals: its box is fixed, and the drill computes its flight (R236–R244). -/
def State.sealSheaf (s : State) (slot flag : Nat) : State :=
  match s.sheaf slot with
  | none => s
  | some x =>
    let lines := x.ctx.lastLine - x.ctx.openLine + 1
    let c := { x.ctx with flags := x.ctx.flags ||| flag }
    let r := s.sealPlan c lines
    let s := r.1.putSheaf { x with ctx := c, lines := lines, state := 2, tSeal := s.now, plan := r.2 }
    { s with trk := { s.trk with boxes := (c.openLine, c.lastLine, c.left, c.right) :: s.trk.boxes } }

/-- A shadow or silent context seals; a shadow takes the default disposition, on the drill's fast path when it is eject (R195). -/
def State.sealShadow (s : State) (age : Nat) : State :=
  match s.trk.shadows.find? (fun x => decide (x.ctx.age = age)) with
  | none => s
  | some x =>
    let s := ({ s with trk := { s.trk with shadows := s.trk.shadows.filter (fun y => decide (y.ctx.age ≠ age)) } }).shadowUpdate
    if !x.silent ∧ s.get Reg.TRK_CTRL_DEFAULT_DISP = 1 then s.fastPlan x.ctx else s

/-- A context seals. -/
def State.sealTarget (s : State) (t : Target) (flag : Nat) : State :=
  match t with
  | .sheaf slot => s.sealSheaf slot flag
  | .shadow age => s.sealShadow age

/-- Every open sheaf seals with a flag: LINK_LOST (R91), a detection reset (R446). -/
def State.sealOpen (s : State) (flag : Nat) : State := s.openSheaves.foldl (fun t x => t.sealSheaf x.slot flag) s

/-- Every shadow and silent context seals. -/
def State.sealShadows (s : State) : State := s.trk.shadows.foldl (fun t x => t.sealShadow x.ctx.age) s

/-- A context sealed with LONG in the line before: its context, its sequence number, and whether it is silent. -/
structure Long where
  ctx    : Ctx
  seq    : Option Nat
  silent : Bool
  deriving DecidableEq, Repr

/-- The target of a run whose extension would make its box longer than MAX_LINES. -/
def State.overlong (s : State) (n : Nat) (rs : List Run) : Option Target :=
  rs.findSome? (fun r => match s.targetOf n r with
    | some t => match s.targetCtx t with
      | some c => if s.get Reg.TRK_SHAPE_MAX_LINES < n - c.openLine + 1 then some t else none
      | none => none
    | none => none)

/-- LONG seals, one after the other: a sealed context is no target any more. The first argument bounds their number. -/
def State.sealLongs (s : State) (n : Nat) (rs : List Run) : Nat → List Long → State × List Long
  | 0, ls => (s, ls)
  | k + 1, ls => match s.overlong n rs with
    | none => (s, ls)
    | some t =>
      let l : Option Long := match t with
        | .sheaf slot => (s.sheaf slot).map (fun x => (⟨x.ctx, some x.seq, false⟩ : Long))
        | .shadow age => (s.trk.shadows.find? (fun x => decide (x.ctx.age = age))).map (fun x => (⟨x.ctx, none, x.silent⟩ : Long))
      State.sealLongs ((s.sealTarget t Sf.long).bump Reg.TRK_FORCED_LONG 1) n rs k (ls ++ l.toList)

/-! ### Extension (R184–R187, R204) -/

/-- The tiles of a box (R203). -/
def Ctx.tilesOf (c : Ctx) (last left right : Nat) : List Nat :=
  (List.range ((last - c.openLine) / 30 + 1)).flatMap (fun tr =>
    (List.range ((right - c.winLeft) / 16 + 1 - (left - c.winLeft) / 16)).map (fun k => tr * 32 + ((left - c.winLeft) / 16 + k)))

/-- A context after the runs of line n that extend it: the union of their clipped columns. -/
def Ctx.grow (c : Ctx) (n : Nat) (rs : List Run) : Ctx :=
  let cl := rs.filterMap (fun r => r.clip c.winLeft)
  let l := (cl.map (fun p => p.1)).foldl Nat.min 4095
  let r := maxN (cl.map (fun p => p.2))
  let left := Nat.min c.left l
  let right := Nat.max c.right r
  let wide := rs.any (fun q => decide (q.left < c.winLeft ∨ c.winLeft + 511 < q.right))
  let area := (rs.map (fun q => (q.cols.filter (fun k => decide (c.winLeft ≤ k ∧ k ≤ c.winLeft + 511))).length)).foldl (· + ·) 0
  { c with
    left := left, right := right, ext := cl, lastLine := n, areaSum := c.areaSum + area
    flags := c.flags ||| (if wide then Sf.wide else 0) ||| (if left = 0 ∨ right = 4095 then Sf.edge else 0) }

/-- A sheaf is extended in line n. -/
def State.extendSheaf (s : State) (n slot : Nat) (rs : List Run) : State :=
  s.onSheaf slot (fun x => { x with ctx := x.ctx.grow n rs, lines := n - x.ctx.openLine + 1 })

/-- The MEM seals of line n (Table 7-3), before its runs are handled: the sheaves that runs extend take their tiles in turn; one that cannot
have them seals as it stood after the line before, and its runs are discarded. -/
def State.memSeals (s : State) (n : Nat) : List (Target × List Run) → State × List (Target × List Run)
  | [] => (s.liveUpdate, [])
  | (.shadow age, rs) :: rest =>
    let r := s.memSeals n rest
    (r.1, (.shadow age, rs) :: r.2)
  | (.sheaf slot, rs) :: rest => match s.sheaf slot with
    | none => s.memSeals n rest
    | some x =>
      let c := x.ctx.grow n rs
      match s.takeTiles x (c.tilesOf n c.left c.right) with
      | none => ((s.sealSheaf slot Sf.mem).bump Reg.TRK_FORCED_MEM 1).memSeals n rest
      | some (t, y) =>
        let r := (t.putSheaf y).memSeals n rest
        (r.1, (.sheaf slot, rs) :: r.2)

/-- The targets of the runs of a line in order of their first run, each with its runs. -/
def groupRuns : List (Target × Run) → List (Target × List Run)
  | [] => []
  | (t, r) :: rest =>
    let g := groupRuns rest
    match g.find? (fun x => decide (x.1 = t)) with
    | some x => (t, r :: x.2) :: g.filter (fun y => decide (y.1 ≠ t))
    | none => (t, [r]) :: g

/-- TOUCHING: every open sheaf that a run touches, where it touches more than one (Table 7-2). -/
def State.touching (s : State) (n : Nat) (r : Run) : State :=
  let hit := s.openSheaves.filter (fun x => decide (x.ctx.openLine < n) && x.ctx.touches r)
  if hit.length ≤ 1 then s
  else hit.foldl (fun t x => t.onCtx (.sheaf x.slot) (fun c => { c with flags := c.flags ||| Sf.touching })) s

/-- The runs that extend a context are applied. -/
def State.extend (s : State) (n : Nat) (gs : List (Target × List Run)) : State :=
  gs.foldl (fun t g => match g.1 with
    | .sheaf slot => t.extendSheaf n slot g.2
    | .shadow age => t.onCtx (.shadow age) (fun c => c.grow n g.2)) s

/-! ### Velocity (R188, R189) -/

/-- The search for the crossing of row r in column c, from the newest of a list of environments back (R188). -/
def State.crossing (s : State) (r c : Nat) (level : Int) (hot : Bool) : List LineEnv → Option Rat
  | e1 :: e0 :: rest =>
    if e0.line + 1 ≠ e1.line then none
    else match s.sample e1.line r c, s.sample e0.line r c with
      | some v1, some v0 =>
        let past := fun (v : Int) => if hot then decide (level < v) else decide (v < level)
        if !past v0.1 && past v1.1 then
          some (e0.centre r + (e1.centre r - e0.centre r) * ((level - v0.1 : Int) : Rat) / ((v1.1 - v0.1 : Int) : Rat))
        else State.crossing s r c level hot (e0 :: rest)
      | _, _ => none
  | _ => none

/-- The edge level of a column: none while its background is not loaded. -/
def State.edgeLevel (s : State) (pol c : Nat) : Option Int :=
  (Map.find s.trk.bg c).map (fun b => if pol = 0 then b + 1000 * (s.get Reg.TRK_HOT_HOT_EDGE : Int) else b - 1000 * (s.get Reg.TRK_COLD_COLD_EDGE : Int))

/-- The earliest crossing of a row among the columns of a run (R188). -/
def State.rowCrossing (s : State) (n : Nat) (run : Run) (r : Nat) : Option Rat :=
  (List.range (run.right + 1 - run.left)).foldl (fun best i =>
    let c := run.left + i
    match s.edgeLevel run.pol c with
    | none => best
    | some level => match s.crossing r c level (decide (run.pol = 0)) (s.reachEnvs n), best with
      | some t, some b => some (min t b)
      | some t, none => some t
      | none, b => b) none

/-- A fit: rows, T_mean and r_mean, and, where the sum of squared times is not zero, slope (rows per ns) and residual in 1/256 row. -/
structure Fit where
  rows  : Nat
  tMean : Rat
  rMean : Rat
  line  : Option (Rat × Nat)
  deriving DecidableEq, Repr

/-- The least-squares line of row against time (R189). -/
def fitLine (pts : List (Nat × Rat)) : Fit :=
  let n := pts.length
  let tm : Rat := (pts.map (fun p => p.2)).foldl (· + ·) 0 / (n : Rat)
  let rm : Rat := ((pts.map (fun p => p.1)).foldl (· + ·) 0 : Nat) / (n : Rat)
  let sxx : Rat := (pts.map (fun p => (p.2 - tm) * (p.2 - tm))).foldl (· + ·) 0
  let sxy : Rat := (pts.map (fun p => (p.2 - tm) * ((p.1 : Rat) - rm))).foldl (· + ·) 0
  if sxx = 0 then ⟨n, tm, rm, none⟩
  else
    let nu := sxy / sxx
    let q : Rat := (pts.map (fun p => ((p.1 : Rat) - rm - nu * (p.2 - tm)) * ((p.1 : Rat) - rm - nu * (p.2 - tm)))).foldl (· + ·) 0 * 65536 / (n : Rat)
    ⟨n, tm, rm, some (nu, rheSqrt q.num.toNat q.den)⟩

/-- The velocity of an opening context: the fit, or the nominal walk speed with VEL_NOMINAL; the residual of a fit without a line has no
stated value (log entry 5). -/
def State.velocity (s : State) (e : LineEnv) (run : Run) (c : Ctx) : State × Ctx :=
  let f := fitLine ((List.range 24).filterMap (fun r => (s.rowCrossing e.line run r).map (fun t => (r, t))))
  let p : Rat := (e.period : Rat) / 100
  let good : Option (Rat × Nat) := match f.line with
    | some (nu, res) => if s.get Reg.TRK_VEL_MIN_ROWS ≤ f.rows ∧ 0 < nu ∧ res ≤ s.get Reg.TRK_VEL_RES_MAX then some (nu * 1000, res) else none
    | none => none
  let nu := match good with
    | some g => g.1
    | none => e.nu
  let eff := nu * p
  let c := { c with
    nu := nu, walkNu := max (1 / 4) (min 4 eff) / p, velClamp := decide (eff < 1 / 4 ∨ 4 < eff)
    tMean := if good.isSome then f.tMean else e.centre 23
    rMean := if good.isSome then f.rMean else 23
    vel := (satU32 (rheQ (65536 * eff))).toNat, velRows := f.rows, period := e.period
    flags := if good.isSome then c.flags else c.flags ||| Sf.velNominal }
  match f.line with
  | some l => (s, { c with velRes := Nat.min l.2 65535 })
  | none => (s.draw, { c with velRes := s.drawn.toNat % 65536 })

/-! ### Admission, shadows, silent contexts (R190–R194) -/

/-- The refusal cause of a candidate: 0 STOPPED, 1 RATE, 2 STORE, 3 MEMORY; none when it is admitted (Table 7-5). -/
def State.refusal (s : State) (c : Ctx) : Option Nat :=
  let tiles := (c.tilesOf c.openLine c.left c.right).length
  if !s.admitting then some 0
  else if s.trk.tokens < 1 then some 1
  else if 8192 ≤ s.liveSlots.length then some 2
  else if s.freeBlocks ≤ s.get Reg.TRK_BURST_BLOCK_FLOOR ∨ s.freeBlocks < tiles + (if 8 < tiles then 1 else 0) then some 3
  else none

/-- A sheaf as it is admitted. -/
def Sheaf.fresh (slot seq : Nat) (prev : Option Nat) (c : Ctx) (rflags now : Nat) : Sheaf :=
  { slot := slot, seq := seq, prevSeq := prev, state := 1, ctx := c, lines := 1, area := 0, peak := 0, pixflags := 0, tiles := [], dir := none,
    img := [], tSeal := 0, tOutcome := 0, rflags := rflags, tstat := 0, engine := 0, verdict := 0, disp := 0, klass := 0, status := 0, runs := 0,
    cycles := 0, feats := List.replicate 4 0, bound := none, deadline := none, used := [], reruns := 0, plan := Plan.empty, admitted := now }

/-- A candidate is admitted (R192): the next sequence number, a free slot, its tiles, and the mark-store trigger of R376. -/
def State.takeIn (s : State) (c : Ctx) (prev : Option Nat) : State :=
  match pickFree 8192 s.liveSlots s.drawn with
  | none => s
  | some slot =>
    let seq := s.seqNext
    let s := { s with free := s.free + 1, trk := { s.trk with tokens := s.trk.tokens - 1 } }
    let s := (s.setPair Reg.TRK_SEQ_NEXT_LO (seq + 1)).setPair Reg.TRK_ADMITTED_LO (s.pair Reg.TRK_ADMITTED_LO + 1)
    let x := Sheaf.fresh slot seq prev c ((if s.flag Reg.CFG_STATUS_SETTLING then 1 else 0) + (if s.flag Reg.CAL_STATUS_STALE then 2 else 0)) s.now
    let s := match s.takeTiles x (c.tilesOf c.openLine c.left c.right) with
      | some (t, y) => t.putSheaf y
      | none => s.putSheaf x
    (s.liveUpdate.markCheck).markWait

/-- The aggregate record of the millisecond being counted is issued (R196, R291): it waits for its place in the record stream. -/
def State.issueAggregate (s : State) : State :=
  match s.trk.refused with
  | none => s
  | some r =>
    let body := leBytes 8 (r.ms * 1000000) ++ leBytes 4 r.stopped ++ leBytes 4 r.rate ++ leBytes 4 r.store ++ leBytes 4 r.memory ++ leBytes 4 r.hot ++
      leBytes 4 r.cold ++ leBytes 4 r.spill ++ leBytes 1 (s.get Reg.TRK_CTRL_DEFAULT_DISP) ++ List.replicate 183 0
    { (s.disarm Timer.aggregate) with
      trk := { s.trk with refused := none }
      stg := { s.stg with aggregates := s.stg.aggregates ++ [(⟨s.seqNext, body⟩ : Aggregate)] } }

/-- The refusals of the millisecond of now: those of an earlier one are issued first. -/
def State.refusalsNow (s : State) : State × Refusals :=
  let ms := s.now / 1000000
  match s.trk.refused with
  | some r => if r.ms = ms then (s, r) else (s.issueAggregate.armDev Timer.aggregate ((ms + 1) * 1000000), ⟨ms, 0, 0, 0, 0, 0, 0, 0⟩)
  | none => (s.armDev Timer.aggregate ((ms + 1) * 1000000), ⟨ms, 0, 0, 0, 0, 0, 0, 0⟩)

/-- The counter of a refusal cause. -/
def refusedField (cause : Nat) : Field :=
  [Reg.TRK_REFUSED_STOPPED_COUNT, Reg.TRK_REFUSED_RATE_COUNT, Reg.TRK_REFUSED_STORE_COUNT, Reg.TRK_REFUSED_MEMORY_COUNT].getD cause Reg.TRK_REFUSED_STOPPED_COUNT

/-- A refused candidate becomes a shadow, or is counted and discarded when the shadow table is full (R190, R194, R196). -/
def State.refuseCandidate (s : State) (c : Ctx) (cause : Nat) : State :=
  let full := decide (1024 ≤ s.trk.shadows.length)
  let q := s.refusalsNow
  let r := q.2
  let one := fun (k : Nat) => if cause = k then 1 else 0
  let r := { r with
    stopped := r.stopped + one 0, rate := r.rate + one 1, store := r.store + one 2, memory := r.memory + one 3
    hot := r.hot + (1 - c.pol), cold := r.cold + c.pol, spill := r.spill + (if full then 1 else 0) }
  let s := { q.1 with trk := { q.1.trk with refused := some r } }
  let s := s.bump (refusedField cause) 1
  if full then s.bump Reg.TRK_SHADOW_SHADOW_OVERFLOW 1
  else ({ s with trk := { s.trk with shadows := s.trk.shadows ++ [(⟨false, c⟩ : Shadow)] } }).shadowUpdate

/-- A silent context opens (R193). -/
def State.openSilent (s : State) (c : Ctx) (again : Bool) : State :=
  let s := if again then s else s.bump Reg.CFG_PREADMIT_COUNT 1
  if 1024 ≤ s.trk.shadows.length then s
  else { s with trk := { s.trk with shadows := s.trk.shadows ++ [(⟨true, c⟩ : Shadow)] } }

/-- The context that a run opens, before its velocity (R185). -/
def State.freshCtx (s : State) (n : Nat) (r : Run) : Ctx :=
  let win := Nat.min ((r.left + r.right) / 2 - 248) 3584
  let base : Ctx :=
    { age := s.trk.nextAge, pol := r.pol, openLine := n, openTime := s.now, left := 4095, right := 0, winLeft := win, ext := [],
      lastLine := n, flags := 0, nu := 0, walkNu := 0, velClamp := false, tMean := 0, rMean := 0, vel := 0, velRes := 0, velRows := 0,
      period := 0, areaSum := 0 }
  base.grow n [r]

/-- The context sealed with LONG that a run continues: the lowest sequence number first. -/
def longOf (ls : List Long) (r : Run) : Option Long :=
  let hit := ls.filter (fun l => l.ctx.touches r)
  match (hit.filter (fun l => l.seq.isSome)).foldl (fun (b : Option Long) l => match b with
    | some x => if l.seq.getD 0 < x.seq.getD 0 then some l else b
    | none => some l) none with
  | some l => some l
  | none => hit.find? (fun l => l.silent)

/-- A run that extends nothing (Table 7-2, R190, R193); in a blind span nothing opens (R153). -/
def State.openRun (s : State) (e : LineEnv) (ls : List Long) (r : Run) : State :=
  let l := longOf ls r
  if s.blindLine e.line ∨ (l.isNone ∧ r.core < s.get Reg.TRK_SHAPE_MIN_CORE) then s
  else
    let c := s.freshCtx e.line r
    let s := { s with trk := { s.trk with nextAge := s.trk.nextAge + 1 } }
    let again : Bool := match l with
      | some x => x.silent
      | none => false
    if !s.step9 ∨ again then s.openSilent c again
    else
      let c := if l.isSome then { c with flags := c.flags ||| Sf.continued } else c
      let v := s.velocity e r c
      let s := v.1.accrue
      match s.refusal v.2 with
      | none => s.takeIn v.2 (l.bind (fun x => x.seq))
      | some cause => s.refuseCandidate v.2 cause

/-! ### One field line (R181, R206) -/

/-- BG_STEP (R181), from the number of hot and cold columns. -/
def State.bgStep (s : State) (cols : Nat) : State :=
  if s.get Reg.TRK_BG_STEP_COLS < cols then
    let k := s.trk.stepRun + 1
    let s := { s with trk := { s.trk with stepRun := k } }
    if s.get Reg.TRK_BG_STEP_LINES ≤ k ∧ !s.flag Reg.TRK_STATUS_BG_STEP then (s.put Reg.TRK_STATUS_BG_STEP 1).emit 0x0401 0 cols else s
  else { s.put Reg.TRK_STATUS_BG_STEP 0 with trk := { s.trk with stepRun := 0 } }

/-- The LONG seals of line n (Table 7-3). -/
def State.longSeals (s : State) (n : Nat) (rs : List Run) : State × List Long :=
  s.sealLongs n rs (s.openSheaves.length + s.trk.shadows.length) []

/-- The runs of line n that connect to nothing and are discarded for want of core pixels (Table 7-2). -/
def State.discards (s : State) (n : Nat) (ls : List Long) (rs : List Run) : List Run :=
  rs.filter (fun r => (s.targetOf n r).isNone && (longOf ls r).isNone && decide (r.core < s.get Reg.TRK_SHAPE_MIN_CORE))

/-- Runs of line n are connected, and what they open opens (Table 7-2), after the LONG seals and the MEM seals of the line. -/
def State.applyRuns (s : State) (e : LineEnv) (ls : List Long) (rs : List Run) : State :=
  let n := e.line
  let tagged := rs.map (fun r => (r, s.targetOf n r))
  let q := s.memSeals n (groupRuns (tagged.filterMap (fun p => p.2.map (fun t => (t, p.1)))))
  let s := (q.2.flatMap (fun g => g.2)).foldl (fun t r => t.touching n r) q.1
  let s := s.extend n q.2
  (tagged.filter (fun p => p.2.isNone)).foldl (fun t p => t.openRun e ls p.1) s

/-- Natural seals of line n (R186). -/
def State.naturalSeals (s : State) (n : Nat) : State :=
  let gap := s.get Reg.TRK_SHAPE_SEAL_GAP
  let s := (s.openSheaves.filter (fun x => decide (x.ctx.lastLine + gap ≤ n))).foldl (fun t x => t.sealSheaf x.slot 0) s
  (s.trk.shadows.filter (fun x => decide (x.ctx.lastLine + gap ≤ n))).foldl (fun t x => t.sealShadow x.ctx.age) s

/-- Whether a column lies in an open box that holds its background (R180). -/
def State.heldColumn (s : State) (c : Nat) : Bool :=
  s.openSheaves.any (fun x => decide (x.ctx.left ≤ c ∧ c ≤ x.ctx.right)) ||
    s.trk.shadows.any (fun x => decide (x.ctx.left ≤ c ∧ c ≤ x.ctx.right) && (!x.silent || !s.step9))

/-- BACKGROUND_UPDATE of one column (R179, R180). -/
def State.backgroundOf (s : State) (nonzero : Nat) (p : FieldPixel) (cls : Int) (c : Nat) : Option Int :=
  match Map.find s.trk.bg c with
  | none => if p.rows = nonzero then some p.value else none
  | some b =>
    if cls ≠ 0 ∨ p.rows = 0 ∨ s.heldColumn c then some b
    else some (satS32 (b + rhe (p.value - b) (2 ^ s.get Reg.TRK_BG_BG_SHIFT)))

/-- BACKGROUND_UPDATE (R179, R180), not in a blind span; the columns of a discarded run, bridged ones included (R183), take no update of a
loaded background (Table 7-2). -/
def State.updateBackground (s : State) (e : LineEnv) (px : List (Nat × FieldPixel)) (cls : List (Nat × Int)) (gone : List Run) : State :=
  if s.blindLine e.line then s
  else
    let bg := (px.zip cls).filterMap (fun x =>
      let kept := if gone.any (fun r => decide (r.left ≤ x.1.1 ∧ x.1.1 ≤ r.right)) then Map.find s.trk.bg x.1.1 else none
      (kept.or (s.backgroundOf e.named.length x.1.2 x.2.2 x.1.1)).map (fun b => (x.1.1, b)))
    { s with trk := { s.trk with bg := bg } }

/-- TRK_CLR_COUNTERS (Table 7-12): the extremes restart from what holds now. -/
def State.clearTrk (s : State) : State :=
  let s := (s.put Reg.TRK_PEAK_PEAK_LIVE (s.get Reg.TRK_LIVE_LIVE)).put Reg.TRK_PEAK_MIN_FREE (s.get Reg.TRK_LIVE_FREE_BLOCKS)
  let s := (List.range 4).foldl (fun t k => t.put (refusedField k) 0) s
  ((((s.put Reg.TRK_FORCED_LONG 0).put Reg.TRK_FORCED_MEM 0).put Reg.TRK_SHADOW_SHADOW_OVERFLOW 0).put Reg.TRK_COPY_REPAIRED 0).put
    Reg.TRK_LIFE_MAX_US 0

/-- TRK_CLR_COUNTERS (R207). -/
def execTrkClrCounters (s : State) : Host.Outcome State Fault Refusal := .next (s.host Reg.TRK_CMD (some s.clearTrk))

end Sys2Proof.Machine
end

