-- ==== Sys2Proof/Machine/Records.lean ====
section
/-!
DEFINITION. Records (spec/11_records_archive.md R287–R291, R296, R297; spec/18_faults_resets.md R449, R450): their order, their bytes, and
their release.
-/
namespace Sys2Proof.Machine

/-! ### Bytes (Tables 11-1, 11-2, 18-7) -/

/-- A record: header, body (bytes 0x20 to 0xFB) and CRC (R289). -/
def recordBytes (kind rflags rpos seq time : Nat) (body : List Byte) : List Byte :=
  let b := leBytes 1 kind ++ leBytes 1 1 ++ leBytes 2 rflags ++ leBytes 4 0 ++ leBytes 8 rpos ++ leBytes 8 seq ++ leBytes 8 time ++ body
  b ++ leBytes 4 (crc32 b).toNat

/-- One valve entry of an object record; an unused one has VALVE 0xFFFF and is zero otherwise (log entry 38). -/
def recordEntry (tView : Int) : Option PlanEntry → List Byte
  | none => leBytes 2 0xFFFF ++ leBytes 10 0
  | some e =>
    let rel : List Byte := match e.delay with
      | none => leBytes 4 0xFFFFFFFF
      | some d => sLe 4 (e.gate + d - tView)
    leBytes 2 e.valve ++ leBytes 2 e.flags ++ rel ++ leBytes 2 (Nat.min (rhe (e.onAct : Int) 1000).toNat 65535) ++ leBytes 2 (e.move.getD 0xFFFF)

/-- The body of an object record (Table 11-2). -/
def Sheaf.recordBody (x : Sheaf) : List Byte :=
  let p := x.plan
  leBytes 8 x.ctx.openLine ++ leBytes 8 x.ctx.openTime ++ leBytes 8 (x.prevSeq.getD (2 ^ 64 - 1)) ++ leBytes 2 x.ctx.flags ++
  leBytes 2 x.pixflags ++ leBytes 1 x.ctx.pol ++ leBytes 1 x.ctx.velRows ++ leBytes 2 x.ctx.velRes ++ leBytes 4 x.ctx.vel ++
  leBytes 4 x.ctx.period ++ leBytes 2 x.ctx.left ++ leBytes 2 x.ctx.right ++ leBytes 2 x.lines ++ leBytes 2 x.ctx.winLeft ++
  leBytes 4 x.area ++ sLe 2 x.peak ++ leBytes 1 ((x.bound.map (fun b => b.slot)).getD 0) ++ leBytes 1 x.engine ++
  leBytes 1 x.verdictByte ++ leBytes 1 x.klass ++ leBytes 1 x.status ++ leBytes 1 x.runs ++ leBytes 2 x.cycles ++ leBytes 1 x.tstat ++
  leBytes 1 0 ++ x.feats.flatMap (fun w => leBytes 4 w.toNat) ++ leBytes 8 x.tSeal ++ leBytes 8 x.tOutcome ++ sLe 8 p.tView ++
  sLe 8 p.tArrive ++ sLe 4 p.vView ++ leBytes 4 p.onNs ++ leBytes 2 p.flags ++ leBytes 1 p.entries.length ++ leBytes 1 p.outcome ++
  (List.range 8).flatMap (fun i => recordEntry p.tView p.entries[i]?)

/-- The body of a power-loss gap record (Table 18-7), from what the recovery recalled: KIND, exact or resumed counts, INFLIGHT, marks,
MPOS. -/
def gapBody (kind kflags inflight seqLow rposLow seqMark rposMark mpos : Nat) : List Byte :=
  leBytes 1 kind ++ leBytes 1 kflags ++ leBytes 2 0 ++ leBytes 4 inflight ++ leBytes 8 seqLow ++ leBytes 8 rposLow ++ leBytes 8 seqMark ++
  leBytes 8 rposMark ++ leBytes 8 mpos ++ List.replicate 172 0

/-! ### Staging a record (R287, R296, R303, R327) -/

/-- The archive side: the block is written when it fills, and at REC_FLUSH_US after the first of its records that the archive takes. -/
def State.archiveRecord (s : State) (rpos : Nat) : State :=
  if s.get Reg.NVH_CTRL_ARCH_MODE = 0 ∨ !s.regionUsed 0 then s
  else
    let s := if s.stg.timed = some (rpos / 16) then s
      else ({ s with stg := { s.stg with timed := some (rpos / 16) } }).arm Timer.recFlush (usTicks (s.get Reg.NVH_RECORD_REC_FLUSH_US))
    if rpos % 16 = 15 then (s.disarm Timer.recFlush).writeBlock else s

/-- A record takes the next RPOS and its slot in staging; KIND, RFLAGS, SEQ and body are given. -/
def State.stageRecord (s : State) (kind rflags seq : Nat) (body : List Byte) : State :=
  let rpos := s.stg.nextRpos
  let bytes := recordBytes kind rflags rpos seq s.now body
  let s := { s with stg := { s.stg with
    nextRpos := rpos + 1, slots := Map.insert s.stg.slots rpos bytes, ticks := Map.insert s.stg.ticks rpos s.time.ticks } }
  (((s.markCheck.markWait).archiveRecord rpos).freeSlots).windowFlag

/-! ### The order of release (R198, R288, R449, R450) -/

/-- What the record stream carries next. -/
inductive NextRecord where
  | gap (body : List Byte)
  | aggregate (a : Aggregate)
  | lost (e : LostEntry)
  | object (x : Sheaf)
  deriving DecidableEq, Repr

/-- The next record that is ready, if any: the power-loss gap record first; aggregate records whose lower numbers are all released; then
the next number's object or lost-entry record. -/
def State.nextRecord (s : State) : Option NextRecord :=
  match s.stg.gap with
  | some b => some (.gap b)
  | none =>
    match s.stg.aggregates.find? (fun a => decide (a.nextSeq ≤ s.stg.nextSeq)) with
    | some a => some (.aggregate a)
    | none =>
      match s.trk.lostOnes.find? (fun e => decide (e.seq = s.stg.nextSeq)) with
      | some e => some (.lost e)
      | none => ((s.trk.sheaves.find? (fun e => decide (e.2.state = 6 ∧ e.2.seq = s.stg.nextSeq))).map (fun e => NextRecord.object e.2))

/-- STAGING_FULL: a record that is ready waits for a slot (R297). -/
def State.stagingFull (s : State) : State := s.putFlag Reg.NVH_STATUS_STAGING_FULL (s.nextRecord.isSome && !s.slotFree)

/-- Whether the record function may release: it is not being reset, a slot is free, and no mark store is waited for (R297, R376). -/
def State.mayRelease (s : State) : Bool := s.slotFree && !s.rposWaits && !s.rst.running.any (fun r => decide (r.func = 7))

/-- One record is released. -/
def State.release (s : State) : NextRecord → State
  | .gap b => ({ s with stg := { s.stg with gap := none } }).stageRecord 4 0 s.stg.nextSeq b
  | .aggregate a => ({ s with stg := { s.stg with aggregates := s.stg.aggregates.erase a } }).stageRecord 2 0 a.nextSeq a.body
  | .lost e =>
    ({ s with cfg := { s.cfg with releasedAt := s.time.ticks }, trk := { s.trk with lostOnes := s.trk.lostOnes.erase e }, stg := { s.stg with nextSeq := e.seq + 1 } }).stageRecord 3 0 e.seq e.body
  | .object x =>
    (({ s with cfg := { s.cfg with releasedAt := s.time.ticks }, stg := { s.stg with nextSeq := x.seq + 1 } }).stageRecord 1 x.rflags x.seq x.recordBody).freeSheaf x.slot

/-- RECORD_RELEASE (R198): w ticks pass; `ecc` are the words met as uncorrectable while the entry is read (R202). -/
def execRecordRelease (w : Nat) (ecc : List EccFact) (s : State) : Host.Outcome State Fault Refusal :=
  .next (
    let s := s.elapse w
    let s := if s.mayRelease then s.eccFacts ecc else s
    match s.nextRecord with
    | none => s.stagingFull
    | some r => (if s.mayRelease then s.release r else s).stagingFull)

/-- AGGREGATE_RECORD (R196): the millisecond of the refusals has ended, and its aggregate record is issued. -/
def execAggregateRecord (s : State) : Host.Outcome State Fault Refusal :=
  .next (match s.fire Timer.aggregate with
    | none => s
    | some s => s.issueAggregate.stagingFull)

end Sys2Proof.Machine
end

