-- ==== Sys2Proof/Machine/Save.lean ====
section
/-!
DEFINITION. The save sequence and the held state (spec/16_power_thermal.md R415–R420, Table 16-6), the thermal trip, and what a restart
leaves (spec/19_register_map.md R458, Table 19-4).
-/
namespace Sys2Proof.Machine

/-! ### What a restart keeps (Table 19-4) -/

/-- The registers that a start keeps while VKEEP stays at or above 7.5 V. -/
def keptRegister (a : Nat) : Bool :=
  decide (a = Reg.PWR_SAVE_LAST ∨ a = Reg.HKC_STATUS ∨ (Reg.HKC_OFS 0 ≤ a ∧ a < Reg.HKC_OFS 6) ∨ (Reg.HKC_GAIN 0 ≤ a ∧ a < Reg.HKC_GAIN 6) ∨
    (Reg.HKC_IEXC 0 ≤ a ∧ a < Reg.HKC_IEXC 4))

/-- The block at the moment before a start: the commands that wait, the non-volatile array and its journal, the pins, and the kept
registers. -/
def State.restarted (s : State) : State :=
  let t : State := { State.reset with
    pending := s.pending, free := s.free, regs := s.regs.filter (fun e => keptRegister e.1)
    keep := { KeepState.reset with shadow := s.keep.shadow, run := s.keep.run }
    pwr := { PwrState.reset with pfi := s.pwr.pfi, arm := s.pwr.arm, chargeSwitch := s.pwr.chargeSwitch } }
  t.setWord Reg.HKC_STATUS (Reg.HKC_STATUS_UNCAL.into (Reg.resetWord Reg.HKC_STATUS) (s.get Reg.HKC_STATUS_UNCAL))

/-- With VKEEP below 7.5 V nothing is kept but the non-volatile array, its journal and the pins (R420). -/
def State.collapsed (s : State) : State :=
  { State.reset with
    pending := s.pending, free := s.free
    keep := { KeepState.reset with shadow := s.keep.shadow, run := s.keep.run }
    pwr := { PwrState.reset with pfi := s.pwr.pfi, arm := s.pwr.arm } }

/-! ### The save sequence (Table 16-6) -/

/-- Whether the save sequence may start: from the end of start-up step 2 on, and not in it (R416, R57). -/
def State.canSave (s : State) : Bool :=
  match s.cfg.stage with
  | .loading | .accepted | .running | .unconfigured => true
  | _ => false

/-- Every switched domain becomes FALLOW and loses its logic state and memory (step 4, R404). -/
def State.fallow (s : State) : State :=
  let s := (s.setDomains (List.range 36) 0).put Reg.RST_STATUS_BUSY 0
  { s with
    shadow := [], mem := Map.keep (fun a => decide (0x04000000 ≤ a)) s.mem
    time := { s.time with lines := false, lsync := [], timers := [] }
    eth := EthState.reset, ptp := PtpState.reset, nvh := NvhState.reset, dma := DmaState.reset, stg := RecState.reset, hkc := HkcState.reset
    rdo := RdoState.reset, cor := CorState.reset, walk := WalkState.reset, cal := CalState.reset, trk := TrkState.reset, ast := AstState.reset
    drl := DrlState.reset, vlv := VlvState.reset, rst := RstState.reset }

/-- The flash transfer is abandoned (step 4). -/
def State.dropFlash (s : State) : State :=
  { (s.put Reg.MPT_FL_STATUS_BUSY 0).put Reg.MPT_STATUS_MASTERING 0 with mpt := { s.mpt with flash := none, abandoned := false } }

/-- The bulk store of step 6: the next counter set, the SAVE mark entry with the latched counts, and the host pages whose store was pending
and had not begun (R370, R417, R418); a bulk store holds 256 pages at most (R367). -/
def State.bulkStore (s : State) (seq rpos inflight : Nat) : Store :=
  let mpos := s.pair Reg.KEP_MPOS_LO + 1
  let hosts := ((s.keep.queue.filter (fun st => decide (st.kind = .host))).flatMap (fun st => st.pages)).take 155
  ⟨.save, counterPages s s.nextGen ++ [(markPage mpos, markEntry 2 mpos s.seqMark s.rposMark seq rpos inflight)] ++ hosts, mpos, s.seqMark,
    s.rposMark, s.nextGen, false⟩

/-- A store in progress that has not committed is abandoned; the pending ones give way to the bulk store (R370). -/
def State.startBulk (s : State) (st : Store) : State :=
  let run := match s.keep.run with
    | some r => if r.committed then some r else none
    | none => none
  ({ s with keep := { s.keep with run := run, queue := [] } }).startStore st

/-- Sheaves admitted and not released (step 3). -/
def State.inflight (s : State) : Nat := s.seqNext - s.stg.nextSeq

/-- SAVE_SEQUENCE: steps 1 to 4 (R417), with VKEEP in mV at step 1. -/
def State.saveSequence (s : State) (cause mv : Nat) : State :=
  let s := { s.put Reg.PWR_SAVE_LAST_CAUSE cause with
    pwr := { s.pwr with save := some ⟨cause, s.time.ticks, mv, 0, 0, 0⟩, chargeSwitch := false, checking := false } }
  let s := ((((s.allLow.auxCut 0).auxCut 1).setEnabled false).closeAll).bumpCounter 1026 1
  let seq := s.seqNext
  let rpos := s.stg.nextRpos
  let n := s.inflight
  let s := { s with
    pwr := { s.pwr with save := some ⟨cause, s.time.ticks, mv, seq, rpos, n⟩ }
    cfg := { s.cfg with stage := .saving, reloading := false, reloadNext := none } }
  let st := s.bulkStore seq rpos n
  (s.dropFlash.fallow).startBulk st

/-- PFI_N_RECOGNISED (R416): before step 2 completes the start is retried later (R57). -/
def execPfiNRecognised (mv : Nat) (s : State) : Host.Outcome State Fault Refusal :=
  .next (
    let t := { s.put Reg.PWR_STATUS_PFI 1 with pwr := { s.pwr with pfi := true } }
    if s.canSave then t.saveSequence 1 mv else t)

/-- VKEEP_LOW_RECOGNISED (R416). -/
def execVkeepLowRecognised (mv : Nat) (s : State) : Host.Outcome State Fault Refusal :=
  .next (
    let t := s.put Reg.PWR_STATUS_VKEEP_LOW 1
    if s.canSave then t.saveSequence 2 mv else t)

/-- ½ × C × (V1² − V7²) in µJ, for C in µF and mV. -/
def saveEnergy (c v1 v7 : Nat) : Nat := (rhe ((c : Int) * ((v1 * v1 : Nat) - (v7 * v7 : Nat) : Int)) 2000000).toNat

/-- Steps 5 to 7: the bulk store is committed and written, and the part is held. -/
def State.bulkCommitted (s : State) (v : SaveState) (st : Store) (mv : Nat) : State :=
  let s := s.commitStore
  let s := { s with keep := { s.keep with shadow := putPages s.keep.shadow st.pages, run := none } }
  let s := ((s.bump ⟨Reg.KEP_STORES, 0, 32⟩ st.pages.length).put Reg.KEP_STATUS_BUSY 0).put Reg.KEP_STATUS_OP 0
  let s := (s.putSat Reg.PWR_SAVE_LAST_DURATION (rhe ((s.time.ticks - v.start : Nat) : Int) 1000).toNat).putSat Reg.PWR_SAVE_LAST_ENERGY_UJ
    (saveEnergy (s.get Reg.PWR_HOLDUP_C_UF) v.mv mv)
  { s.put Reg.PWR_STATUS_HELD 1 with cfg := { s.cfg with stage := .held } }

/-- SAVE_BULK_STORE_COMMIT (R417): w ticks later, with VKEEP in mV at step 7. -/
def execSaveBulkStoreCommit (w mv : Nat) (s : State) : Host.Outcome State Fault Refusal :=
  .next (match s.pwr.save, s.keep.run with
    | some v, some st => if st.kind = .save then (s.elapse w).bulkCommitted v st mv else s
    | _, _ => s)

/-- HELD_EXIT (R420): the charge switch closes and the part restarts at step 1; after cause 3 it restarts under R415 instead. Before a start
the command is the release of PFI_N alone. -/
def execHeldExit (s : State) : Host.Outcome State Fault Refusal :=
  .next (
    let c := (s.pwr.save.map (fun v => v.cause)).getD 0
    let t : State := { s.restarted with pwr := { s.restarted.pwr with pfi := false, chargeSwitch := true } }
    if s.cfg.stage = .held ∧ c ≠ 3 then t
    else if s.cfg.stage = .off then { s.put Reg.PWR_STATUS_PFI 0 with pwr := { s.pwr with pfi := false } }
    else s)

/-- VKEEP_COLLAPSE (R420). -/
def execVkeepCollapse (s : State) : Host.Outcome State Fault Refusal := .next s.collapsed

/-! ### The thermal trip (R412, R415) -/

/-- THERMAL_TRIP: the first region with a healthy sensor at T_TRIP; VKEEP in mV. -/
def State.tripCheck (s : State) (mv : Nat) : State :=
  match s.regionsAt s.tTrip with
  | z :: _ => if s.canSave then (s.emit 0x0905 z (u64OfInt (s.getS (Reg.PWR_TEMP_TEMP z)))).saveSequence 3 mv else s
  | [] => s

/-- THROTTLE_EVALUATION (R412): every 1 ms; VKEEP stands at mv mV. -/
def execThrottleEvaluation (mv : Nat) (s : State) : Host.Outcome State Fault Refusal :=
  .next (match s.fire Timer.throttle with
    | none => s
    | some s => ((s.arm Timer.throttle (msTicks 1)).throttleStep).tripCheck mv)

/-- THERMAL_TRIP_RESTART (R415): every region has stayed below T_TRIP − 20 K for 10 s. -/
def execThermalTripRestart (s : State) : Host.Outcome State Fault Refusal :=
  .next (match s.pwr.coolSince with
    | none => s
    | some t =>
      if s.cfg.stage = .held ∧ (s.pwr.save.map (fun v => v.cause)) = some 3 then (s.elapseTo (t + msTicks 10000)).restarted else s)

end Sys2Proof.Machine
end

