-- ==== Sys2Proof/Machine/StartUp.lean ====
section
/-!
DEFINITION. Start-up steps 1 to 4, the slot headers and the choice of a slot, and the unconfigured state
(spec/02_configuration_and_startup.md R33–R36, R45, R48–R49, R57, R59; spec/14_keep_store.md R380–R383; spec/18_faults_resets.md R450).
-/
namespace Sys2Proof.Machine

/-! ### Slot headers (Table 2-2, Table 2-7) -/

/-- A header that passes its checks, or the refusal code of the first that fails. -/
def parseHeader (b : List Byte) : Except Nat Header :=
  let u := fun (o n : Nat) => leNat ((b.drop o).take n)
  if u 0 4 ≠ 0x544C5256 ∨ u 0x14 4 ≠ 0x4A544096 then .error 0x01
  else if u 0x1C 4 ≠ (crc32 (b.take 0x1C)).toNat then .error 0x02
  else if u 4 2 ≠ 1 then .error 0x03
  else if u 8 4 < 64 ∨ 8388608 < u 8 4 ∨ u 8 4 % 4 ≠ 0 then .error 0x04
  else .ok ⟨u 8 4, u 0x0C 4, u 0x10 4, u 0x18 4⟩

/-- A slot's header as it was read; no answer is a flash read failure. -/
def readHeader (b : Option (List Byte)) : Except Nat Header :=
  match b with
  | some l => parseHeader l
  | none => .error 0x10

/-- The refusal and generation registers of slot A (0) or B (1). -/
def refuseReg (slot : Nat) : Nat := if slot = 0 then Reg.CFG_REFUSE_A else Reg.CFG_REFUSE_B
def genReg (slot : Nat) : Nat := if slot = 0 then Reg.CFG_GEN_A else Reg.CFG_GEN_B

/-- Enter a slot's header in the registers. -/
def State.noteSlot (s : State) (slot : Nat) (h : Except Nat Header) : State :=
  match h with
  | .ok x => s.setWord (genReg slot) (BitVec.ofNat 32 x.generation)
  | .error c => s.setWord (refuseReg slot) (BitVec.ofNat 32 c)

/-- The slots in the order in which they are tried: the higher GENERATION first, slot A on equal ones (R45); a reload may name one slot
(Table 2-13). -/
def slotOrder (a b : Option Header) (force : Nat) : List Nat :=
  let order := match a, b with
    | some x, some y => if x.generation < y.generation then [1, 0] else [0, 1]
    | some _, none => [0]
    | none, some _ => [1]
    | none, none => []
  order.filter (fun n => decide (force = 0 ∨ force = n + 1))

/-! ### Steps 3 to 5 -/

/-- UNCONFIGURED_ENTRY (R48): the bias ramps down, every switched domain becomes FALLOW, and the alert is set. What the always-on domain
holds of counts and positions stays. -/
def State.unconfigured (s : State) : State :=
  let t := ((s.fallow).put Reg.CFG_PHASE_PHASE 15).put Reg.CFG_STATUS_SLOT_USED 0
  { t.put Reg.MPT_ALERT_UNCONF 1 with stg := s.stg, eth := s.eth, cfg := { s.cfg with stage := .unconfigured } }

/-- The image of the next slot to be tried is read from its first record on; without one the part is unconfigured. -/
def State.nextSlot (s : State) : State :=
  match s.cfg.next with
  | [] => s.unconfigured
  | n :: rest => { s with cfg := { s.cfg with
      stage := .loading, slot := n, next := rest, index := 0, offset := 32, crc := 0xFFFFFFFF, regs := [], records := [] } }

/-- The read command that the Basic Flash Parameter Table allows (Table 2-1, R35, R36). -/
def readMode (f : FlashFacts) : Nat :=
  if !f.sfdp then 0
  else if f.has114 ∧ (f.quadFree ∨ f.quadSet) then 3
  else if f.has112 then 2
  else if f.has111 then 1
  else 0

/-- Step 4: SFDP, and both slot headers (R35, R36, R45). -/
def State.readFlash (s : State) (f : FlashFacts) : State :=
  let a := readHeader f.headA
  let b := readHeader f.headB
  let s := ((s.put Reg.CFG_STATUS_READ_MODE (readMode f)).putFlag Reg.CFG_STATUS_NO_SFDP (!f.sfdp)).noteSlot 0 a
  let s := s.noteSlot 1 b
  let order := slotOrder a.toOption b.toOption s.cfg.force
  State.nextSlot { s with cfg := { s.cfg with headA := a.toOption, headB := b.toOption, next := order, erase4k := f.erase4k, erase64k := f.erase64k } }

/-! ### Step 2 -/

/-- The gap record of a resumption of KIND 0, 2 or 3 (R450, Table 18-7): what the recovery recalled is KIND, exact or resumed counts, INFLIGHT,
marks and MPOS. -/
def State.gapRecord (s : State) (r : Nat × Nat × Nat × Nat × Nat × Nat × Nat) : State :=
  let (kind, se, re, infl, sm, rm, mpos) := r
  if kind = 1 then s
  else
    let lows : Nat × Nat := if kind = 2 then (se - infl, re - 32768) else if kind = 3 then (sm - 73728, rm - 73728) else (0, 0)
    let j := s.get Reg.KEP_RESUME_JOURNAL
    let kf := s.get Reg.KEP_STATUS_MARK_LOST + 2 * s.get Reg.KEP_STATUS_COUNT_LOST + (if j = 1 then 4 else 0) + (if j = 2 then 8 else 0)
    { s with stg := { s.stg with gap := some (gapBody kind kf (if kind = 2 then infl else 0) lows.1 lows.2 sm rm mpos) } }

/-- The identity page gives GEN_UID, or ID_BAD (R366, R462). -/
def State.identify (s : State) : State :=
  let p := Memory.bytes s.mem (keepPage 0) 64
  if leNat (p.take 4) = 0x494B524A ∧ leNat ((p.drop 0x3C).take 4) = (crc32 (p.take 0x3C)).toNat then
    s.setPair Reg.GEN_UID_LO (leNat ((p.drop 8).take 8))
  else (s.setPair Reg.GEN_UID_LO 0).put Reg.GEN_STATUS_ID_BAD 1

/-- Step 2: recovery, the resumed positions, the hold-up check, and the converter's start (R380–R382, R397, R422). -/
def State.recoverAll (s : State) (old : KeepState) (k : KeepFacts) (h : HoldupFacts) : State :=
  let r := s.recover old k
  let s := (r.1.gapRecord r.2).identify
  let n := s.stg.nextRpos
  let s := { s with stg := { s.stg with freed := n, flushed := n, settled := n }, eth := { s.eth with first := n, nextSend := n, maxSent := n } }
  (s.holdupResult h).hkcStart

/-- START_UP: steps 1 to 4 (Table 2-8). The domain of the sensor-link receiver powers in step 3, the on-die SRAM in step 4. -/
def State.startUp (s : State) (f : FlashFacts) (k : KeepFacts) (h : HoldupFacts) : State :=
  let t := s.restarted
  let t := State.recoverAll { t with cfg := { t.cfg with force := s.cfg.force } } s.keep k h
  let t := { (t.setDomain 30 2).put Reg.CFG_PHASE_PHASE 2 with rdo := { t.rdo with biasMv := 2600 } }
  ((t.setDomain 35 2).put Reg.CFG_PHASE_PHASE 3).readFlash f

/-- START_UP (R49): with PFI_N asserted, or VKEEP below its threshold, the start stops before step 2 has completed, and is retried at the next
one (R57). -/
def execStartUp (f : FlashFacts) (k : KeepFacts) (h : HoldupFacts) (s : State) : Host.Outcome State Fault Refusal :=
  .next (if s.cfg.stage = .off ∧ !s.pwr.pfi ∧ !s.flag Reg.PWR_STATUS_VKEEP_LOW then s.startUp f k h else s)

/-- RST_N_PULSE (R59): a low pulse of at least 10 µs ends the run without a save sequence; its release is a START_UP. -/
def execRstNPulse (ns : Nat) (s : State) : Host.Outcome State Fault Refusal := .next (if ns < 10000 then s else s.restarted)

/-- PLL_LOCK (R425): device time starts at 0. -/
def execPllLock (s : State) : Host.Outcome State Fault Refusal :=
  .next (if s.cfg.stage = .off ∨ s.flag Reg.TBS_STATUS_PLL_LOCK then s
    else { s.put Reg.TBS_STATUS_PLL_LOCK 1 with time := { s.time with dev := 0 } })

end Sys2Proof.Machine
end

