-- ==== Sys2Proof/Machine/Image.lean ====
section
/-!
DEFINITION. The Vrelut image as it is read (spec/02_configuration_and_startup.md R37–R47, R485, R486; spec/19_register_map.md R460): the
checks of one record, the checks of the whole image, refusal and acceptance.
-/
namespace Sys2Proof.Machine

/-! ### Payloads -/

/-- The u32 at a byte offset of a payload. -/
def word32 (b : List Byte) (o : Nat) : Nat := leNat ((b.drop o).take 4)

/-- The pairs of words of a payload. -/
def wordPairs : List Byte → Nat → List (Nat × Nat)
  | _, 0 => []
  | b, n + 1 => (word32 b 0, word32 b 4) :: wordPairs (b.drop 8) n

/-- The words of a payload. -/
def wordList : List Byte → Nat → List Nat
  | _, 0 => []
  | b, n + 1 => word32 b 0 :: wordList (b.drop 4) n

/-- The u16 entries of a payload. -/
def halfList : List Byte → Nat → List Nat
  | _, 0 => []
  | b, n + 1 => leNat (b.take 2) :: halfList (b.drop 2) n

/-- The bits of a register's RW and RWS fields. -/
def RegRow.writable (r : RegRow) : Nat := r.fields.foldl (fun m f => if f.acc = .rw ∨ f.acc = .rws then m ||| (2 ^ f.width - 1) * 2 ^ f.lo else m) 0

/-! ### The content checks of each type (R40, R47, R460, R485): the lowest failing code, 0 for none -/

/-- A register write: code 0x09 for an address that is no writable register or ones outside its fields, 0x0A for a value out of range. -/
def pairCode (p : Nat × Nat) : Nat :=
  match regRow p.1 with
  | none => 0x09
  | some r =>
    if r.writable = 0 ∨ p.2 &&& r.writable ≠ p.2 then 0x09 else if wordInRange r p.1 p.2 then 0 else 0x0A

/-- The lowest code of a list of checks. -/
def lowestCode (l : List Nat) : Nat := l.foldl (fun b c => if c ≠ 0 ∧ (b = 0 ∨ c < b) then c else b) 0

def registerCode (r : ImageRecord) : Nat :=
  lowestCode ((wordPairs r.payload (r.plen / 8)).map pairCode ++ [if r.plen % 8 = 0 then 0 else 0x0B])

def pixelCode (r : ImageRecord) : Nat :=
  let n := word32 r.payload 4
  if r.plen < 8 ∨ 99840 < word32 r.payload 0 + n ∨ r.plen ≠ 8 + 32 * n then 0x0B else 0

def programCode (r : ImageRecord) : Nat :=
  let n := word32 r.payload 4
  if r.plen < 8 ∨ 15 < word32 r.payload 0 ∨ r.plen ≠ 8 + 4 * n then 0x0B
  else if programCheck n (wordList (r.payload.drop 8) n) = 0 then 0 else 0x0C

def dataCode (r : ImageRecord) : Nat := if r.plen < 4 ∨ 0x1B0000 < word32 r.payload 0 + (r.plen - 4) then 0x0B else 0

def scriptCode (r : ImageRecord) : Nat :=
  let n := word32 r.payload 4
  if r.plen < 8 ∨ 15 < word32 r.payload 0 ∨ n = 0 ∨ 256 < n ∨ r.plen ≠ 8 + 4 * n then 0x0B
  else if (wordList (r.payload.drop 8) n).all (fun w => decide (w / 16777216 ≤ 0x0F)) then 0 else 0x0B

/-- Whether word k of profile p passes Table 10-16. -/
def profileWordOk (p k w : Nat) : Bool :=
  if 6 ≤ k then decide (w = 0)
  else match regRow (Reg.VLV_PROF_0 p + 4 * k) with
    | some r => decide (w &&& r.writable = w) && wordInRange r (Reg.VLV_PROF_0 p + 4 * k) w
    | none => false

def profileCode (r : ImageRecord) : Nat :=
  let first := word32 r.payload 0
  let n := word32 r.payload 4
  let ws := wordList (r.payload.drop 8) ((r.plen - 8) / 4)
  let bad := (List.range ws.length).any (fun i => !profileWordOk (Nat.min (first + i / 8) 19) (i % 8) (ws.getD i 0))
  if bad then 0x0A else if r.plen < 8 ∨ 20 < first + n ∨ r.plen ≠ 8 + 32 * n then 0x0B else 0

/-- R240: reserved bits [14:10] of a map entry. -/
def mapCode (r : ImageRecord) : Nat :=
  let n := word32 r.payload 4
  if r.plen < 8 ∨ 4096 < word32 r.payload 0 + n ∨ r.plen ≠ 8 + 4 * ceilDiv n 2 then 0x0B
  else if (halfList (r.payload.drop 8) n).any (fun e => decide (e / 1024 % 32 ≠ 0)) then 0x0B else 0

/-- The entries of an ownership record (Table 2-5): resource, function, INVERT. -/
def ownEntries (r : ImageRecord) : List (Nat × Nat × Nat) :=
  (wordList (r.payload.drop 4) (word32 r.payload 0)).map (fun w => (w % 256, w / 256 % 256, w / 65536 % 2))

/-- The register of a resource. -/
def resourceReg (res : Nat) : Option Nat :=
  if res < 8 then some (Reg.CFG_PIN res) else if 0x10 ≤ res ∧ res ≤ 0x13 then some (Reg.CFG_TMR (res - 0x10)) else if res = 0x20 then some Reg.CFG_AUX1 else none

def ownCode (r : ImageRecord) : Nat :=
  if r.plen ≠ 4 + 4 * word32 r.payload 0 then 0x0B
  else if (ownEntries r).all (fun e => (resourceReg e.1).isSome && decide (e.2.1 ≤ 8)) then 0 else 0x0B

/-- The content check of a record of a known type. -/
def contentCode (r : ImageRecord) : Nat :=
  if r.type = 0x0001 then registerCode r
  else if r.type = 0x0002 then pixelCode r
  else if r.type = 0x0003 then (if r.plen = 4096 then 0 else 0x0B)
  else if r.type = 0x0004 then programCode r
  else if r.type = 0x0005 then dataCode r
  else if r.type = 0x0006 then scriptCode r
  else if r.type = 0x0007 then profileCode r
  else if r.type = 0x0008 then mapCode r
  else if r.type = 0x0009 then ownCode r
  else if r.type = 0x00FF then (if r.plen = 0 then 0 else 0x0B)
  else 0

/-! ### Registers of the image -/

def knownType (t : Nat) : Bool := decide (1 ≤ t ∧ t ≤ 9 ∨ t = 0xFF)

/-- The register words that a record writes, in image order (R41, R222). -/
def recordRegs (r : ImageRecord) : List (Nat × Nat) :=
  if r.type = 0x0001 then wordPairs r.payload (r.plen / 8)
  else if r.type = 0x0004 then [(Reg.AST_SLOT_PROG (word32 r.payload 0), word32 r.payload 0 + 256 * word32 r.payload 4)]
  else if r.type = 0x0006 then
    let n := word32 r.payload 4
    let ws := wordList (r.payload.drop 8) n
    (List.range 256).map (fun i => (Reg.CAL_SCRIPT_MEM (word32 r.payload 0) i, ws.getD i 0))
  else if r.type = 0x0007 then
    let ws := wordList (r.payload.drop 8) (8 * word32 r.payload 4)
    ((List.range ws.length).filter (fun i => decide (i % 8 < 6))).map (fun i => (Reg.VLV_PROF_0 (word32 r.payload 0 + i / 8) + 4 * (i % 8), ws.getD i 0))
  else if r.type = 0x0009 then
    (ownEntries r).filterMap (fun e => (resourceReg e.1).map (fun a => (a, e.2.1 + 256 * (if e.1 < 8 then e.2.2 else 0))))
  else []

/-- The word of a register at commit: the image's last value, or the default. -/
def imageWord (regs : List (Nat × Nat)) (a : Nat) : Word :=
  match regs.reverse.find? (fun p => decide (p.1 = a)) with
  | some p => BitVec.ofNat 32 p.2
  | none => Reg.resetWord a

/-! ### The whole image (R486) -/

/-- The class of a function: 1 to 7 pins (3 to 5 also timers), 8 AUX1. -/
def pinFunction (f : Nat) : Bool := decide (f ≤ 7)
def timerFunction (f : Nat) : Bool := decide (f = 0 ∨ (3 ≤ f ∧ f ≤ 5))
def auxFunction (f : Nat) : Bool := decide (f = 0 ∨ f = 8)

/-- Instance counts (R43): a function other than none and general input owns at most one pin, and at most one timer. -/
def countsOk (pins tmrs : List Nat) : Bool :=
  (List.range 7).all (fun f => decide (f = 0) || decide ((pins.filter (fun x => decide (x = f))).length ≤ 1)) &&
    (List.range 7).all (fun f => decide (f = 0) || decide ((tmrs.filter (fun x => decide (x = f))).length ≤ 1))

/-- The owners that the words of the ownership registers name: pins, timers, AUX1. -/
def ownersOf (look : Nat → Word) : List Nat × List Nat × Nat :=
  ((List.range 8).map (fun n => (Reg.CFG_PIN_FUNCTION n).look look), (List.range 4).map (fun n => (Reg.CFG_TMR_FUNCTION n).look look),
    Reg.CFG_AUX1_FUNCTION.look look)

/-- Conflicts of ownership, code 0x0D (R43, Table 2-5): a resource twice, INVERT on a timer or AUX1, a wrong class, too many instances. -/
def ownershipOk (entries : List (Nat × Nat × Nat)) (look : Nat → Word) : Bool :=
  let (pins, tmrs, aux) := ownersOf look
  decide ((entries.map (fun e => e.1)).eraseDups.length = entries.length) && entries.all (fun e => decide (e.1 < 8 ∨ e.2.2 = 0)) &&
    pins.all pinFunction && tmrs.all timerFunction && auxFunction aux && countsOk pins tmrs

/-- An enabled function owns all that Table 2-6 requires (R43): PPS_OUT, LSYNC and FTACH a pin and a timer; SYNC = 1 enables LSYNC. -/
def functionsOk (look : Nat → Word) : Bool :=
  let (pins, tmrs, _) := ownersOf look
  [3, 4, 5].all (fun f =>
    let wanted := pins.contains f || tmrs.contains f || (decide (f = 4) && decide (Reg.TBS_CTRL_SYNC.look look = 1))
    !wanted || (pins.contains f && tmrs.contains f))

/-- The stream assignments of R324. -/
def imageStreams (look : Nat → Word) : Bool :=
  streamsGood (fun i => (look (Reg.ETH_S_CTRL i)).toNat) (fun p => (look (Reg.ETH_P_CTRL p)).toNat)
    (if Reg.PTP_CTRL_EN.look look = 1 then some (Reg.PTP_CTRL_PORT.look look) else none)

/-- The refusal code of the whole-image checks, 0 for none. -/
def wholeCode (regs : List (Nat × Nat)) (records : List ImageRecord) : Nat :=
  let look := imageWord regs
  let entries := (records.filter (fun r => decide (r.type = 0x0009))).flatMap ownEntries
  if !relationsHold look then 0x0A
  else if !ownershipOk entries look then 0x0D
  else if !(functionsOk look && imageStreams look) then 0x0E
  else 0

/-! ### IMAGE_RECORD_CHECK -/

/-- The header of the slot that is being read. -/
def State.loadingHeader (s : State) : Header := ((if s.cfg.slot = 0 then s.cfg.headA else s.cfg.headB)).getD ⟨0, 0, 0, 0⟩

/-- IMAGE_REFUSED (R46): the code and the record; the other slot is tried. -/
def State.refuseImage (s : State) (code record : Nat) : State :=
  State.nextSlot (s.setWord (refuseReg s.cfg.slot) (BitVec.ofNat 32 (code + 256 * record)))

/-- The bytes of a record in flash but for its CRC, and with it. -/
def imageHead (r : ImageRecord) : List Byte := leBytes 2 r.type ++ leBytes 2 r.attr ++ leBytes 4 r.plen ++ r.payload

/-- The image is accepted; its values wait for commit. -/
def State.acceptImage (s : State) : State := { s with cfg := { s.cfg with stage := .accepted } }

/-- After the last record (R485, R486): BODY_CRC, the end record and COUNT, then the checks of the whole image. -/
def State.finishImage (s : State) (h : Header) (last : ImageRecord) : State :=
  if (s.cfg.crc ^^^ 0xFFFFFFFF).toNat ≠ h.bodyCrc then s.refuseImage 0x05 h.count
  else if last.type ≠ 0xFF ∨ s.cfg.index ≠ h.count then s.refuseImage 0x0F (s.cfg.index - 1)
  else
    let c := wholeCode s.cfg.regs s.cfg.records
    if c = 0 then s.acceptImage else s.refuseImage c h.count

/-- The check of one record, in the order of R485. -/
def State.checkRecord (s : State) (r : ImageRecord) : State :=
  let h := s.loadingHeader
  let i := s.cfg.index
  let next := s.cfg.offset + 12 + r.plen
  let content := contentCode r
  if !r.answered then s.refuseImage 0x10 i
  else if r.plen % 4 ≠ 0 ∨ h.length < next then s.refuseImage 0x07 i
  else if !knownType r.type ∧ r.attr % 2 = 0 then s.refuseImage 0x08 i
  else if r.rcrc ≠ (crc32 (imageHead r)).toNat then s.refuseImage 0x06 i
  else if content ≠ 0 then s.refuseImage content i
  else if r.type = 0xFF ∧ next ≠ h.length then s.refuseImage 0x0F i
  else
    let c := { s.cfg with
      index := i + 1, offset := next, crc := crc32Run s.cfg.crc (imageHead r ++ leBytes 4 r.rcrc)
      regs := s.cfg.regs ++ recordRegs r, records := s.cfg.records ++ [r] }
    let s := { s with cfg := c }
    if next = h.length then s.finishImage h r else s

/-- IMAGE_RECORD_CHECK (R485): a record of the image being read. -/
def execImageRecordCheck (r : ImageRecord) (s : State) : Host.Outcome State Fault Refusal :=
  .next (if s.cfg.stage = .loading ∧ !s.mpt.abandoned then s.checkRecord r else s)

end Sys2Proof.Machine
end

