-- ==== Sys2Proof/Machine/Ptp.lean ====
section
/-!
DEFINITION. Device time's servo and the pulse inputs and output (spec/12_ethernet_ptp.md R335–R339, spec/17_timing_crossings.md
R432).
-/
namespace Sys2Proof.Machine

/-! ### Master selection (R335) -/

/-- Whether the servo follows PTP. -/
def State.ptpOn (s : State) : Bool := s.flag Reg.PTP_CTRL_EN && !s.flag Reg.PTP_CTRL_SOURCE && !s.resetting 11

/-- A PTP message arrives: it passes the receive checks, PTP runs, and port and domain fit; else it is ignored and counted. -/
def State.ptpMessage (s : State) (p : Nat) (f : RxFrame) (domain : Nat) (k : State → State) : State :=
  s.received p f (fun s =>
    if s.ptpOn ∧ s.get Reg.PTP_CTRL_PORT = p ∧ s.get Reg.PTP_CTRL_DOMAIN = domain then k s
    else s.bump Reg.PTP_COUNTS_DROPPED 1)

/-- The standard dataset comparison: whether a is better than b (PRESUMED from IEEE 1588-2019, log entry 12). -/
def betterMaster (a b : Announce) : Bool :=
  let key := fun (m : Announce) => [m.priority1, m.clockClass, m.accuracy, m.variance, m.priority2, m.identity, m.steps, m.source]
  decide (key a < key b)

/-- 2^log seconds in ticks, for a logarithmic message interval. -/
def intervalTicks (log : Int) : Nat := if 0 ≤ log then msTicks (1000 * 2 ^ log.toNat) else msTicks 1000 / 2 ^ (-log).toNat

/-- Enter an Announce into the list of foreign masters. -/
def noteMaster (ms : List Master) (m : Announce) (p now : Nat) : List Master :=
  match ms.find? (fun x => x.data.source = m.source) with
  | none => ms ++ [⟨m, p, 1, now⟩]
  | some _ => ms.map (fun x => if x.data.source = m.source then
      ⟨m, p, if now ≤ x.last + 4 * intervalTicks m.logInterval then x.count + 1 else 1, now⟩ else x)

/-- The best qualified master: two Announces within four intervals, the last not older than four (log entry 12). -/
def bestMaster (ms : List Master) (now : Nat) : Option Master :=
  (ms.filter (fun x => decide (2 ≤ x.count ∧ now ≤ x.last + 4 * intervalTicks x.data.logInterval))).foldl
    (fun b x => match b with
      | none => some x
      | some y => if betterMaster x.data y.data then some x else some y) none

def State.servo (s : State) : Nat := s.get Reg.PTP_STATUS_STATE

/-- Take a master into use: FREE goes to ACQUIRING; another master in HOLDOVER goes to FREE first (Table 12-7). -/
def State.selectMaster (s : State) (m : Master) : State :=
  let changed := decide (s.ptp.selected ≠ some m.data.source)
  let s := s.setPair Reg.PTP_GM_LO m.data.identity
  let s := { s with ptp := { s.ptp with selected := some m.data.source, good := if changed then 0 else s.ptp.good } }
  if s.servo = 3 ∧ changed then (s.put Reg.PTP_STATUS_STATE 0).disarm Timer.ptpFree
  else if s.servo = 0 then s.put Reg.PTP_STATUS_STATE 1
  else s

/-- ANNOUNCE (R335). -/
def State.announce (s : State) (p : Nat) (m : Announce) : State :=
  let s := { s with ptp := { s.ptp with masters := noteMaster s.ptp.masters m p s.time.ticks } }
  match bestMaster s.ptp.masters s.time.ticks with
  | none => s
  | some b => s.selectMaster b

def execPtpAnnounce (p : Nat) (f : RxFrame) (m : Announce) (s : State) : Host.Outcome State Fault Refusal :=
  if p < 4 then .next (s.ptpMessage p f m.domain (fun s => s.announce p m)) else .fault .noSuchPart

/-! ### The servo (R336) -/

/-- The new frequency correction: the servo's own filter (log entry 13), the change limited to SLEW_PPM in LOCKED. -/
def State.steer (s : State) (offset : Int) (limited : Bool) : State :=
  let f := s.getS Reg.PTP_FREQ_FREQ
  let g := Config.servoFreq f offset s.ptp.syncLog
  let w : Int := 1000 * (s.get Reg.PTP_SERVO_SLEW_PPM : Int)
  s.putS Reg.PTP_FREQ_FREQ (if limited then clampI (f - w) (f + w) g else g)

/-- One measured offset (ns, device minus master) drives the servo (Table 12-7). -/
def State.servoStep (s : State) (offset : Int) : State :=
  let s := (s.putS Reg.PTP_OFFSET_OFFSET offset).bump Reg.PTP_COUNTS_SYNCS 1
  let s := { s with ptp := { s.ptp with syncTick := s.time.ticks } }
  let s := s.arm Timer.ptpHold (4 * intervalTicks s.ptp.syncLog)
  let near := decide (-(s.get Reg.PTP_SERVO_LOCK_NS : Int) < offset ∧ offset < (s.get Reg.PTP_SERVO_LOCK_NS : Int))
  match s.servo with
  | 1 =>
    let good := if near then s.ptp.good + 1 else 0
    let s := { s with ptp := { s.ptp with good := good } }
    let s := s.steer offset false
    if good < 16 then s
    else
      let s := s.put Reg.PTP_STATUS_STATE 2
      let far := decide (1000 * (s.get Reg.PTP_SERVO_STEP_US : Int) < offset ∨ offset < -(1000 * (s.get Reg.PTP_SERVO_STEP_US : Int)))
      if far then { s.put Reg.PTP_STATUS_STEP_PENDING 1 with ptp := { s.ptp with stepBy := -offset } } else s
  | 2 =>
    let s := if s.flag Reg.PTP_STATUS_STEP_PENDING then { s with ptp := { s.ptp with stepBy := -offset } } else s
    s.steer offset true
  | 3 => (s.put Reg.PTP_STATUS_STATE 2).disarm Timer.ptpFree
  | _ => s

/-- A complete Sync of the selected master: t1 is its corrected origin time, t2 its receive time. -/
def State.syncDone (s : State) (t1 t2 : Int) : State :=
  let s := { s with ptp := { s.ptp with lastSync := some (t1, t2), sync := none } }
  let s := if s.due Timer.delayReq = none then s.arm Timer.delayReq (intervalTicks s.ptp.delayLog) else s
  s.servoStep (t2 - t1 - (s.get Reg.PTP_DELAY_DELAY : Int))

/-- SYNC (R335): one-step, or two-step to wait for its Follow_Up. -/
def State.sync (s : State) (m : SyncMsg) : State :=
  if s.ptp.selected ≠ some m.source then s.bump Reg.PTP_COUNTS_DROPPED 1
  else
    let s := s.putFlag Reg.PTP_STATUS_TWO_STEP m.twoStep
    let s := { s with ptp := { s.ptp with syncLog := m.logInterval } }
    if m.twoStep then { s with ptp := { s.ptp with sync := some m, syncTick := s.time.ticks } }
    else s.syncDone (m.origin + m.correction) m.received

def execPtpSync (p : Nat) (f : RxFrame) (m : SyncMsg) (s : State) : Host.Outcome State Fault Refusal :=
  if p < 4 then .next (s.ptpMessage p f m.domain (fun s => s.sync m)) else .fault .noSuchPart

/-- FOLLOW_UP (R335): of the same sequenceId, within 1 s. -/
def State.followUp (s : State) (m : FollowMsg) : State :=
  match s.ptp.sync with
  | some y =>
    if y.seqId = m.seqId ∧ y.source = m.source ∧ s.time.ticks ≤ s.ptp.syncTick + msTicks 1000 then
      s.syncDone (m.origin + m.correction + y.correction) y.received
    else s.bump Reg.PTP_COUNTS_DROPPED 1
  | none => s.bump Reg.PTP_COUNTS_DROPPED 1

def execPtpFollowUp (p : Nat) (f : RxFrame) (m : FollowMsg) (s : State) : Host.Outcome State Fault Refusal :=
  if p < 4 then .next (s.ptpMessage p f m.domain (fun s => s.followUp m)) else .fault .noSuchPart

/-- DELAY_RESP (R335): the mean path delay from the last Sync and this answer. -/
def State.delayResp (s : State) (m : RespMsg) : State :=
  match s.ptp.delayReq, s.ptp.lastSync with
  | some (q, t3), some (t1, t2) =>
    if m.own ∧ m.seqId = q ∧ s.ptp.selected = some m.source then
      let d := rhe ((t2 - t1) + (m.received - m.correction - t3)) 2
      let s := s.putSat Reg.PTP_DELAY_DELAY d.toNat
      let s := { s with ptp := { s.ptp with delayReq := none, delayLog := m.logInterval } }
      s.arm Timer.delayReq (intervalTicks m.logInterval)
    else s.bump Reg.PTP_COUNTS_DROPPED 1
  | _, _ => s.bump Reg.PTP_COUNTS_DROPPED 1

def execPtpDelayResp (p : Nat) (f : RxFrame) (m : RespMsg) (s : State) : Host.Outcome State Fault Refusal :=
  if p < 4 then .next (s.ptpMessage p f m.domain (fun s => s.delayResp m)) else .fault .noSuchPart

/-- The 44 bytes of a Delay_Req (layout PRESUMED from IEEE 1588-2019, log entry 12). -/
def delayReqBytes (mac domain seqId : Nat) : List Byte :=
  beBytes 1 1 ++ beBytes 1 2 ++ beBytes 2 44 ++ beBytes 1 domain ++ beBytes 1 0 ++ beBytes 2 0 ++ beBytes 8 0 ++ beBytes 4 0 ++
    beBytes 3 (mac / 2 ^ 24) ++ beBytes 2 0xFFFE ++ beBytes 3 mac ++ beBytes 2 1 ++ beBytes 2 seqId ++ beBytes 1 1 ++ beBytes 1 0x7F ++
    beBytes 10 0

/-- DELAY_REQ: at the stated interval the JT4096 asks for the path delay (R335). -/
def execPtpDelayReq (s : State) : Host.Outcome State Fault Refusal :=
  .next (match s.fire Timer.delayReq with
    | none => s
    | some s =>
      let s := s.arm Timer.delayReq (intervalTicks s.ptp.delayLog)
      if s.ptpOn ∧ s.ptp.selected.isSome ∧ s.portReady (s.get Reg.PTP_CTRL_PORT) then
        let s := { s with ptp := { s.ptp with delayReq := some (s.ptp.reqId, (s.now : Int)), reqId := (s.ptp.reqId + 1) % 65536 } }
        s.newPackets.transmit (udpPacket 2 (s.get Reg.PTP_CTRL_PORT) 0x01005E000181 0xE0000181 319 319
          (delayReqBytes s.mac (s.get Reg.PTP_CTRL_DOMAIN) ((s.ptp.delayReq.map Prod.fst).getD 0)))
      else s)

/-- PTP_HOLDOVER: no Sync for 4 Sync intervals (Table 12-7). -/
def execPtpHoldover (s : State) : Host.Outcome State Fault Refusal :=
  .next (match s.fire Timer.ptpHold with
    | none => s
    | some t =>
      if t.servo = 2 then
        ((t.put Reg.PTP_STATUS_STATE 3).emit 0x0802 (t.get Reg.PTP_CTRL_PORT) (u64OfInt (t.getS Reg.PTP_OFFSET_OFFSET))).arm
          Timer.ptpFree (msTicks (1000 * t.get Reg.PTP_CTRL_HOLDOVER_S))
      else t)

/-- HOLDOVER_EXPIRY: after HOLDOVER_S the servo returns to FREE, its frequency held (Table 12-7). -/
def execHoldoverExpiry (s : State) : Host.Outcome State Fault Refusal :=
  .next (match s.fire Timer.ptpFree with
    | none => s
    | some t => if t.servo = 3 then { t.put Reg.PTP_STATUS_STATE 0 with ptp := { t.ptp with selected := none, good := 0 } } else t)

/-- TIME_STEPPED: a pending step sets device time to the master's time (R337). The event holds the time after, its ARG the time
before. -/
def State.stepTime (s : State) : State :=
  let before := s.now
  let dev : Int := (s.time.dev : Int) + s.ptp.stepBy * 2 ^ 32
  let s := { s with time := { s.time with dev := dev.toNat } }
  let s := ((s.put Reg.PTP_STATUS_STEP_PENDING 0).put Reg.PTP_STATUS_SYNCED 1).bump Reg.PTP_COUNTS_STEPS 1
  s.emit 0x0803 0 before

/-! ### Pulse inputs and PPS_OUT (R338, R339, R432) -/

/-- A pulse meets the accumulator of an input: pending pulses at the core's last crossing, at most 15; a crossing takes 2 ticks
(R432). The answer is the new (since, count) and whether the pulse was taken. -/
def accumulate (since n now : Nat) : (Nat × Nat) × Bool :=
  if n = 0 ∨ since + 2 ≤ now then ((now, 1), true)
  else if n < 15 then ((since, n + 1), true)
  else ((since, n), false)

/-- An overrun: the flag and the event (R432). -/
def State.overrun (s : State) (f : Field) (input : Nat) : State := (s.put f 1).emit 0x0A02 input 0

/-- FTACH_PULSE: stamped and counted, once a pin and a timer own FTACH and step 6 has passed (R56, R432). PERIOD_US is
rounded down (DESIGN CHOICE, log entry 94). -/
def State.ftach (s : State) : State :=
  if s.cfg.stage ≠ .running ∨ !s.ownsAll 5 then s
  else
    let r := accumulate s.time.ftachAt s.time.ftachN s.time.ticks
    if r.2 then
      let us := match s.time.ftachLast with
        | some t => (s.now - t) / 1000
        | none => 0
      let s := (s.wrapAdd Reg.TBS_FTACH_COUNT 1).putSat Reg.TBS_FTACH_PERIOD_US us
      { s with time := { s.time with ftachAt := r.1.1, ftachN := r.1.2, ftachLast := some s.now } }
    else s.overrun Reg.TBS_FLAGS_OVR_FTACH 2

/-- FTACH_PULSE: w ticks after the last command (R432). -/
def execFtachPulse (w : Nat) (s : State) : Host.Outcome State Fault Refusal := .next (s.elapse w).ftach

/-- PPS_IN_EDGE: every edge is stamped; with SOURCE 1 it steers the servo (R338). -/
def State.ppsIn (s : State) : State :=
  let r := accumulate s.time.ppsAt s.time.ppsN s.time.ticks
  if r.2 then
    let s := s.setPair Reg.PTP_PPS_IN_LO s.now
    let s := { s with time := { s.time with ppsAt := r.1.1, ppsN := r.1.2 } }
    if s.flag Reg.PTP_CTRL_EN ∧ s.flag Reg.PTP_CTRL_SOURCE then
      let near : Int := rhe (s.now : Int) 1000000000 * 1000000000
      let s := { s with ptp := { s.ptp with syncLog := 0 } }
      let s := if s.servo = 0 then { s.put Reg.PTP_STATUS_STATE 1 with ptp := { s.ptp with good := 0 } } else s
      s.servoStep ((s.now : Int) - near)
    else s
  else s.overrun Reg.TBS_FLAGS_OVR_PPS 0

/-- PPS_IN_EDGE: w ticks after the last command (R338, R432). -/
def execPpsInEdge (w : Nat) (s : State) : Host.Outcome State Fault Refusal :=
  .next (if s.cfg.stage = .off then s else (s.elapse w).ppsIn)

/-- The ticks until device time reaches the next whole second. -/
def State.ticksToSecond (s : State) : Nat :=
  let unit := 1000000000 * 2 ^ 32
  ceilDiv ((s.time.dev / unit + 1) * unit - s.time.dev) s.tickInc

/-- PPS_OUT_PULSE: at the next whole second of device time the pin that owns PPS_OUT rises for WIDTH_MS (R339). -/
def execPpsOutPulse (s : State) : Host.Outcome State Fault Refusal :=
  .next (if s.cfg.stage = .running ∧ s.ownsAll 3 ∧ s.flag Reg.TBS_STATUS_PLL_LOCK then
      let s := s.elapse s.ticksToSecond
      { s with time := { s.time with ppsOut := s.time.ticks + msTicks (s.get Reg.PTP_PPS_WIDTH_MS) } }
    else s)

end Sys2Proof.Machine
end

