-- ==== Sys2Proof/Machine/Snapshot.lean ====
section
/-!
DEFINITION. The order of maintenance channels and the automatic snapshot (spec/11_records_archive.md R309, R317).
-/
namespace Sys2Proof.Machine

/-- STATE of a channel: 0 idle, 1 running, 2 paused, 3 halted (Table 11-15). -/
def State.chState (s : State) (n : Nat) : Nat := s.get (Reg.DMA_CH_STATUS_STATE n)

/-- The working copy of a channel. -/
def State.channel (s : State) (n : Nat) : Channel := s.dma.channels.getD n Channel.reset
def State.setChannel (s : State) (n : Nat) (c : Channel) : State := { s with dma := { s.dma with channels := s.dma.channels.set n c } }

/-- Whether a maintenance channel has a transfer that has not ended. -/
def State.maintBusy (s : State) : Bool := [4, 5, 6, 7].any (fun n => decide (s.chState n ≠ 0))

/-- RUNNING and HALTED of DMA_STATUS follow the channels. -/
def State.dmaBits (s : State) : State :=
  let w := fun (k : Nat) => (List.range 8).foldl (fun a n => a + (if s.chState n = k then 2 ^ n else 0)) 0
  (s.put Reg.DMA_STATUS_RUNNING (w 1)).put Reg.DMA_STATUS_HALTED (w 3)

/-- A pending field of MODE. -/
def Channel.op (c : Channel) : Nat := bits c.mode 0 2
def Channel.srcW (c : Channel) : Nat := 2 ^ bits c.mode 6 2
def Channel.dstW (c : Channel) : Nat := 2 ^ bits c.mode 8 2
def Channel.srcDrive (c : Channel) : Bool := bit c.mode 10
def Channel.dstDrive (c : Channel) : Bool := bit c.mode 11

/-- Whether the drive takes maintenance reads and writes: it is ready, with its label, and region 3 is in use. -/
def State.maintDrive (s : State) : Bool :=
  decide (s.get Reg.NVH_STATUS_DRIVE = 3) && s.nvh.labelOk && !s.flag Reg.NVH_STATUS_LAYOUT_BAD && s.regionUsed 3

/-- The drive's command for the maintenance transfer that runs is awaited within CMD_MS from now (R307). -/
def State.maintWait (s : State) : State :=
  if s.maintDrive && [4, 5, 6, 7].any (fun n => decide (s.chState n = 1) && ((s.channel n).srcDrive || (s.channel n).dstDrive || (s.channel n).auto))
  then s.arm Timer.maintIo (msTicks (s.get Reg.NVH_TIMEOUT_CMD_MS)) else s.disarm Timer.maintIo

/-- A transfer begins: its channel runs, with its error fields clear. -/
def State.beginTransfer (s : State) (n : Nat) : State :=
  let s := ((s.put (Reg.DMA_CH_STATUS_STATE n) 1).put (Reg.DMA_CH_STATUS_QUEUED n) 0).put (Reg.DMA_CH_STATUS_MISMATCH n) 0
  ((((s.put (Reg.DMA_CH_STATUS_ERR n) 0).put (Reg.DMA_CH_STATUS_RETRIES n) 0).put (Reg.DMA_CH_PROGRESS_DONE n) 0).setWord (Reg.DMA_CH_ERROR n) 0).dmaBits.maintWait

/-- A maintenance transfer starts, or waits behind the one that runs (R309). -/
def State.startMaint (s : State) (n : Nat) (c : Channel) : State :=
  let s := s.setChannel n c
  if s.maintBusy then { s.put (Reg.DMA_CH_STATUS_QUEUED n) 1 with dma := { s.dma with queue := s.dma.queue ++ [n] } }
  else s.beginTransfer n

/-- The next waiting maintenance transfer starts. -/
def State.nextMaint (s : State) : State :=
  match s.dma.queue with
  | [] => s
  | n :: rest => if s.maintBusy then s else ({ s with dma := { s.dma with queue := rest } }).beginTransfer n

/-- AUTO_SNAPSHOT after an accepted shutter event (R317): skipped and counted while channel 5 is still at work; without region 3 there is
nowhere to write it (log entry 31). -/
def State.autoSnapshot (s : State) : State :=
  if !s.flag Reg.NVH_CTRL_SNAP_AUTO ∨ !s.regionUsed 3 then s
  else if s.chState 5 ≠ 0 ∨ 5 ∈ s.dma.queue then s.bump Reg.NVH_DROPS_SNAP_SKIPPED 1
  else s.startMaint 5 { Channel.reset with auto := true, bank := s.get Reg.COR_STATUS_ACTIVE_BANK }

end Sys2Proof.Machine
end

