-- ==== Sys2Proof/Machine/Solve.lean ====
section
/-!
DEFINITION. The averages, the solve and the plausibility checks of a shutter event (spec/06_calibration.md R157–R162).
-/
namespace Sys2Proof.Machine

/-! ### Averages (R157) -/

/-- Thermometer differences against a reference, as s32 (R16): none for a thermometer without a reading or a reference. -/
def dtsFrom (ts ref : List (Option Int)) : List (Option Int) :=
  (List.range 8).map (fun k => match ts.getD k none, ref.getD k none with
    | some a, some b => some (satS32 (a - b))
    | _, _ => none)

/-- The compensated value uc of a pixel in an averaging line, in units of 10⁻¹² / 256 counts; none where the line has no good sample. -/
def AvgLine.uc (l : AvgLine) (ref : List (Option Int)) (i : Nat) (ko kq : Int) : Option Int :=
  if l.bad.contains i then none
  else (Map.find l.u i).map (fun u =>
    let d := columnDts (dtsFrom l.therms ref) (i % 4160)
    u * 1000000000000 - ko * d * 1000000 - kq * d * d)

/-- Sum, sum of squares and count over the lines of a span that have a good sample. -/
def averageOf (ls : List AvgLine) (ref : List (Option Int)) (i : Nat) (ko kq : Int) : Int × Int × Nat :=
  ls.foldl (fun a l => match l.uc ref i ko kq with
    | some x => (a.1 + x, a.2.1 + x * x, a.2.2 + 1)
    | none => a) (0, 0, 0)

/-- Sums of every sample that is there, good or not (a DATA-failed pixel still has its averages). -/
def AvgLine.any (l : AvgLine) : AvgLine := { l with bad := [] }

/-! ### Measurement and prediction (R158, R159) -/

/-- e_inv of R158: the y that a table copy maps to a temperature, from entry i upward; none outside the table. -/
def State.eInv (s : State) (t : Nat) (x : Int) : Nat → Nat → Option Int
  | 0, _ => none
  | k + 1, i =>
    let a := s.tableEntry t i
    let b := s.tableEntry t (i + 1)
    let step : Int := 2 ^ s.get Reg.COR_RAD_STEP_STEP_LOG2
    let y := s.getS Reg.COR_RAD_BASE_BASE + i * step
    if a ≤ x ∧ x ≤ b then some (if a = b then y else y + rhe ((x - a) * step) (b - a))
    else State.eInv s t x k (i + 1)

/-- What a solve works with: the event's references, the solved conditions, and whether gain and offset are formed. -/
structure SolveEnv where
  tflag  : Int
  dF     : Int
  delta  : List (Option Int)
  yp     : Int
  gain   : Bool
  offset : Bool
  nPlate : Nat
  nFlag  : Nat
  deriving DecidableEq, Repr

/-- D and the stored flags of pixel i of the active bank as at the middle flag line (R165). -/
def State.solveOld (s : State) (i : Nat) : Int × Nat :=
  let a := bankBase s.activeBank + 32 * i
  match s.cal.frozen.find? (fun x => decide (x.1 = i)) with
  | some (_, d, f) => (d, f)
  | none => (s.memS (a + 20), s.storedFlags a)

/-- The prediction ok (R159): its dF term has no stated value for a gk of 0 (a free value, log entry 5). -/
def State.predicted (s : State) (v : SolveEnv) (i : Nat) (d : Int) (gk : Rat) : State × Rat :=
  let a := bankBase s.activeBank + 32 * i
  let base : Rat := (s.memS a : Rat) + ((s.memS (a + 8) * d : Int) : Rat) / 1000000 + ((s.memS (a + 16) * d * d : Int) : Rat) / 1000000000000 +
    ((s.solveOld i).1 : Rat)
  if gk = 0 then (s.draw, base + (s.drawn.toInt : Rat)) else (s, base + ((v.dF * 16777216 : Int) : Rat) / gk)

/-- What the solve makes of one pixel: its new record, and which checks failed (DATA, NOISE, OFFSET, GAIN). -/
structure PixelResult where
  bytes  : List Byte
  data   : Bool
  noise  : Bool
  offset : Bool
  gain   : Bool
  deriving DecidableEq, Repr

def PixelResult.fails (r : PixelResult) : Bool := r.data || r.noise || r.offset || r.gain

/-- A pixel record from the active one with new O, G, D and stored flags (Table 4-5). -/
def State.recordBytes (s : State) (a : Nat) (o : Int) (g : Nat) (flags : Nat) : List Byte :=
  sBytes o ++ leBytes 4 g ++ Memory.bytes s.mem (a + 8) 12 ++ leBytes 4 0 ++ Memory.bytes s.mem (a + 24) 2 ++ leBytes 2 flags ++ leBytes 4 0

/-- A pixel record as it stands. -/
def State.keptBytes (s : State) (a : Nat) : List Byte := Memory.bytes s.mem a 32

/-- The gain of a pixel at the temperatures of the event, gk (R159). -/
def State.gainAt (s : State) (a : Nat) (d : Int) : Rat :=
  ((s.memU (a + 4) : Nat) : Rat) * (1 + ((s.memS (a + 12) * d : Int) : Rat) / (256000000000000 : Nat))

/-- What SOLVE makes of pixel i of the active bank, with its prediction ok (R157–R162). -/
def State.pixelResult (s : State) (v : SolveEnv) (i : Nat) (ok : Rat) : PixelResult :=
  let p := i % 4160
  let a := bankBase s.activeBank + 32 * i
  let ko := s.memS (a + 8)
  let kq := s.memS (a + 16)
  let flags := (s.solveOld i).2
  let uncal := anyFlag flags Pf.uncal
  let d := columnDts v.delta p
  let gk := s.gainAt a d
  let good := (averageOf s.cal.plate s.cal.tsRef i ko kq).2.2 = v.nPlate ∧ (averageOf s.cal.flag s.cal.tsRef i ko kq).2.2 = v.nFlag
  let ap := averageOf (s.cal.plate.map AvgLine.any) s.cal.tsRef i ko kq
  let af := averageOf (s.cal.flag.map AvgLine.any) s.cal.tsRef i ko kq
  let up := rhe ap.1 (1000000000000 * (Nat.max 1 ap.2.2 : Nat))
  let om := rhe af.1 (1000000000000 * (Nat.max 1 af.2.2 : Nat))
  let n : Rat := (Nat.max 1 af.2.2 : Nat)
  let var : Rat := (af.2.1 : Rat) / n - ((af.1 : Rat) / n) * ((af.1 : Rat) / n)
  let quot : Option Rat := if up = om then none else some (((16777216 * (v.yp - v.tflag) : Int) : Rat) / ((up - om : Int) : Rat))
  let gm : Option Nat := match quot with
    | some x => if 0 < x then some (satU32 (rheQ x)).toNat else none
    | none => none
  let blend := fun (k : Rat) (m : Rat) (sh : Nat) => rheQ (k + (m - k) / (2 ^ sh : Nat))
  let oNew := if !v.offset then satS32 (rheQ ok) else if uncal then satS32 om else satS32 (blend ok om (s.get Reg.CAL_SOLVE_O_SHIFT))
  let gNew : Nat := match gm with
    | some m => if !v.gain then s.memU (a + 4) else if uncal then m else (satU32 (blend gk m (s.get Reg.CAL_SOLVE_G_SHIFT))).toNat
    | none => s.memU (a + 4)
  let cleared := flags &&& Pf.dead
  let dropped := s.cal.dropped.contains p
  let kept := flags ||| Pf.calKept ||| (if s.flag Reg.CAL_CTRL_DEAD_ON_REPEAT ∧ anyFlag flags Pf.calKept ∧ !dropped then Pf.dead else 0)
  let keptRec := if uncal then s.keptBytes a else s.recordBytes a (satS32 (rheQ ok)) (satU32 (rheQ gk)).toNat kept
  if !isImage p ∧ !dropped then ⟨s.recordBytes a oNew (s.memU (a + 4)) cleared, false, false, false, false⟩
  else if isImage p ∧ anyFlag flags Pf.dead then ⟨s.keptBytes a, false, false, false, false⟩
  else
    let fData := decide (¬ good)
    let limN : Rat := ((256 * s.get Reg.CAL_LIM_FAIL_LIM_NOISE : Nat) : Rat) * 1000000000000
    let fNoise := decide (limN * limN < var)
    let off : Rat := (om : Rat) - ok
    let lim : Rat := ((256 * s.get Reg.CAL_LIM_O_LIM_O : Nat) : Rat)
    let fOff := !uncal && decide (lim < off ∨ lim < -off)
    let fGain := v.gain && (match gm with
      | none => true
      | some m =>
        let dg : Rat := (m : Rat) - gk
        let lg : Rat := (s.get Reg.CAL_LIM_G_LIM_G_STEP : Rat) * gk / 10000
        decide (m < s.get Reg.CAL_G_MIN_G_MIN ∨ s.get Reg.CAL_G_MAX_G_MAX < m) || (!uncal && decide (lg < dg ∨ lg < -dg)))
    if dropped then ⟨keptRec, false, false, false, false⟩
    else if fData || fNoise || fOff || fGain then ⟨keptRec, fData, fNoise, fOff, fGain⟩
    else ⟨s.recordBytes a oNew gNew cleared, false, false, false, false⟩

/-- The result of pixel i from its prediction. -/
def State.solveFrom (s : State) (v : SolveEnv) (i : Nat) (q : State × Rat) : State × PixelResult := (q.1, s.pixelResult v i q.2)

/-- SOLVE for pixel i of the active bank. -/
def State.solvePixel (s : State) (v : SolveEnv) (i : Nat) : State × PixelResult :=
  s.solveFrom v i (s.predicted v i (columnDts v.delta (i % 4160))
    (s.gainAt (bankBase s.activeBank + 32 * i) (columnDts v.delta (i % 4160))))

/-- Count what failed. -/
def Solved.add (t : Solved) (r : PixelResult) : Solved :=
  let one := fun (b : Bool) => if b then 1 else 0
  { t with failing := t.failing + one r.fails, data := t.data + one r.data, noise := t.noise + one r.noise,
           offset := t.offset + one r.offset, gain := t.gain + one r.gain }

/-- Every pixel is solved; its record goes to the standby bank (R159, R161). -/
def State.solveAll (s : State) (v : SolveEnv) : State × Solved :=
  (List.range 99840).foldl (fun (t : State × Solved) i =>
    let r := t.1.solvePixel v i
    (r.1.putBytes (bankBase s.standbyBank + 32 * i) r.2.bytes, t.2.add r.2)) (s, ⟨0, 0, 0, 0, 0, !v.gain⟩)

/-- The references of a solve; `sel` is SOLVE's operand: bit 0 offset, bit 1 gain (R158). None: TPLATE lies outside the table. -/
def State.solveEnv (s : State) (sel : Nat) : Option SolveEnv :=
  let tf := s.cal.tflag.getD 0
  let tp := s.cal.tplate.getD 0
  let h := headerAddr s.activeBank
  let old := (List.range 8).map (fun k => if (s.cor.refSet.getD s.activeBank []).getD k false then some (s.memS (h + 8 + 4 * k)) else none)
  let near := decide ((tp - tf).natAbs < 1000 * s.get Reg.CAL_SOLVE_MIN_REF_DIFF)
  let env := fun (yp : Int) (gain : Bool) =>
    ({ tflag := tf, dF := tf - s.memS h, delta := dtsFrom s.cal.tsRef old, yp := yp, gain := gain, offset := bit sel 0,
       nPlate := (s.cal.plateLines.map (fun x => x.2)).getD 0, nFlag := (s.cal.flagLines.map (fun x => x.2)).getD 0 } : SolveEnv)
  match s.eInv s.activeTable tp 1023 0 with
  | none => none
  | some yp => some (env yp (bit sel 1 && !near))

/-- CAL_FAIL_WHY (Table 6-17). -/
def State.putWhy (s : State) (t : Solved) : State :=
  (((s.putSat Reg.CAL_FAIL_WHY_DATA t.data).putSat Reg.CAL_FAIL_WHY_NOISE t.noise).putSat Reg.CAL_FAIL_WHY_OFFSET t.offset).putSat
    Reg.CAL_FAIL_WHY_GAIN t.gain

/-- The solve and the checks end: records written, failures counted; reason 4 when TPLATE lies outside the table (R158, R163). -/
def State.solveDone (s : State) (sel : Nat) : State :=
  let s := { s with cal := { s.cal with solving := none } }
  match s.solveEnv sel with
  | none =>
    ({ s with cal := { s.cal with solved := some ⟨0, 0, 0, 0, 0, false⟩, reason := if s.cal.reason = 0 then 4 else s.cal.reason } }).putWhy
      ⟨0, 0, 0, 0, 0, false⟩
  | some v =>
    let r := s.solveAll v
    ({ r.1 with cal := { r.1.cal with solved := some r.2 } }).putWhy r.2

end Sys2Proof.Machine
end

