-- ==== Sys2Proof/Machine/Script.lean ====
section
/-!
DEFINITION. The Crocus sequencer (spec/06_calibration.md R146–R156, R163–R165, R171, R172): requests, scripts and their instructions, the
steps of a shutter event, and its end.
-/
namespace Sys2Proof.Machine

/-! ### Words and steps -/

/-- The running script and its word index. -/
def State.scriptNo (s : State) : Nat := s.get Reg.CAL_SCRIPT_STAT_SCRIPT
def State.scriptPc (s : State) : Nat := s.get Reg.CAL_SCRIPT_STAT_PC

/-- Word i of a script. -/
def State.scriptWord (s : State) (n i : Nat) : Nat := (s.word (Reg.CAL_SCRIPT_MEM n i)).toNat

/-- Whether this is the moment of a line boundary. -/
def State.atBoundary (s : State) : Bool := s.time.lines && decide (s.time.ticks = s.time.lineTick)

/-- The line at whose boundary a step begins. -/
def State.stepLine (s : State) : Nat := if s.atBoundary ∨ !s.time.lines then s.time.line else s.time.line + 1

/-- Whether the running script's next instruction is an opcode with an operand, and none is in progress. -/
def State.fetches (s : State) (op : Nat) (arg : Nat → Bool) : Bool :=
  let w := s.scriptWord s.scriptNo s.scriptPc
  s.flag Reg.CAL_STATUS_RUNNING && s.cal.op.isNone && s.cal.closing.isNone && !s.resetting 13 && decide (bits w 24 8 = op) && arg (bits w 0 24)

/-- AVG_LINES (Table 6-15). -/
def State.avgLines (s : State) : Nat := 64 * 2 ^ s.get Reg.CAL_SOLVE_AVG_CODE

/-- TRAVEL in lines, rounded up (R156). -/
def State.travelLines (s : State) : Nat := ceilDiv (10000 * s.get Reg.CAL_FLAG_TRAVEL) (s.get Reg.TBS_STATUS_PERIOD_NOW)

/-- The largest τ, in 0.1 µs, among the image pixels of the active bank that are not DEAD. -/
def State.tauMax (s : State) : Nat :=
  (List.range 24).foldl (fun b r => (List.range 4096).foldl (fun b c =>
    let a := pixelAddr s.activeBank r (physOf c)
    if s.deadAt a then b else Nat.max b (s.memH (a + 24))) b) 0

/-- S of Table 6-3 step 4. -/
def State.settleLines (s : State) : Nat :=
  let r := s.get Reg.CAL_FLAG_SETTLE
  let t := s.tauMax
  if r ≠ 0 then r else ceilDiv (4 * (if t = 0 then 140000 else 10 * t)) (s.get Reg.TBS_STATUS_PERIOD_NOW)

/-! ### The quiet view (R145, R150) -/

/-- Whether a reading of a reference is healthy; before its first reading it is not (DEDUCED, log entry 32). -/
def refHealthy : Option (Int × Bool) → Bool
  | some (v, wide) => !wide && decide (-20000000 ≤ v ∧ v ≤ 100000000)
  | none => false

/-- Whether the view is quiet at the boundary that begins the current line. -/
def State.quiet (s : State) : Bool :=
  let q := Nat.max (s.get Reg.CAL_GAP_QUIET_LINES) 96
  let calm := fun (l : Option Nat) => match l with
    | none => true
    | some n => decide (n + q < s.time.line)
  s.trk.sheaves.all (fun e => decide (e.2.state ≠ 1)) && s.trk.shadows.all (fun x => x.silent && s.step9) && calm s.cal.row0Bad &&
    calm s.cal.fieldBad && s.cal.flagOk && s.cal.plateOk

/-! ### Ends (R163, R172) -/

/-- Start-up step 8: ports, PCIe and the archive engine start, and the first shutter event is requested (R49, R306, Table 16-2). -/
def State.startUpStep8 (s : State) : State :=
  let s := s.put Reg.CFG_PHASE_PHASE 5
  let s := s.setDomains (((List.range 4).filter (fun p => decide (s.get (Reg.ETH_P_CTRL_MODE p) ≠ 0))).map (fun p => 25 + p)) 2
  ((s.setDomain 34 2).bringUp).requestShutter

/-- The standby bank is released without a swap. -/
def State.releaseStandby (s : State) : State := s.put Reg.CAL_STATUS_OWN_STANDBY 0

/-- The event is refused (R163): HOLDOFF silences the drift, interval and drift-limit sources (R147). -/
def State.refuseEvent (s : State) (reason : Nat) : State :=
  let f := (s.cal.solved.map (fun x => x.failing)).getD 0
  let s := ((s.put Reg.CAL_RESULT_OUTCOME 3).put Reg.CAL_RESULT_REASON reason).putSat Reg.CAL_RESULT_FAILED f
  let s := (s.bump Reg.CAL_COUNTS_REFUSED 1).releaseStandby
  let s := if s.cal.solved.isNone then s.putWhy ⟨0, 0, 0, 0, 0, false⟩ else s
  ({ s with cal := { s.cal with refused := true, silentUntil := s.time.ticks + msTicks (1000 * s.get Reg.CAL_LIM_FAIL_HOLDOFF) } }).emit 0x0304 reason f

/-- The script is over: what it held is released, a request that no CLOSE has served or that was held waits anew (R147, R151), and after the
start-up script step 8 follows. -/
def State.finishScript (s : State) (code : Nat) : State :=
  let wasStart := decide (s.get Reg.CFG_PHASE_PHASE = 4)
  let s := if code = 0x80 then ((s.put Reg.CAL_RESULT_OUTCOME 4).put Reg.CAL_RESULT_REASON 0).put Reg.CAL_RESULT_FAILED 0 else s
  let s := ((s.put Reg.CAL_STATUS_RUNNING 0).put Reg.CAL_STATUS_GAP_WAIT 0).put Reg.CAL_SCRIPT_STAT_EXIT code
  let s := if s.flag Reg.CAL_STATUS_OWN_STANDBY ∧ !s.cal.swapAsked then s.releaseStandby else s
  let want := s.cal.held || s.flag Reg.CAL_STATUS_PENDING
  let s := { s with cal := { s.cal with op := none, closing := none, trim := none, held := false, solving := none, during := false } }
  let s := (s.putFlag Reg.CAL_STATUS_PENDING want).releaseGap
  let s := if want then s.assertGap else s
  if wasStart then s.startUpStep8 else s

/-! ### Steps that begin at a boundary (Table 6-3) -/

/-- RESUME: the row history is emptied, the blind span ends, FGAP_N is released (R153, R154); the flag check of R155 follows. -/
def State.resumeNow (s : State) : State :=
  let n := s.time.line
  let s := s.discontinuity.suspendLine.releaseGap
  let s := match s.cal.blind with
    | some (a, none) => { s.bump Reg.CAL_BLIND_LINES_COUNT (n + 1 - a) with cal := { s.cal with blind := some (a, some n) } }
    | _ => s
  { s.put Reg.CAL_STATUS_BLIND 0 with cal := { s.cal with check := s.cal.check ++ [(n, false)] } }

/-- The line count that a step derives from a time when it begins (R156): TRAVEL for CLOSE and OPEN, S for a SETTLE without a count. -/
def State.derivedLines (s : State) (op : Nat) : Option Nat :=
  if op = 4 ∨ op = 7 then some s.travelLines
  else if op = 5 ∧ (s.cal.closing.isSome ∨ bits (s.scriptWord s.scriptNo s.scriptPc) 0 8 = 0) then some s.settleLines
  else none

/-- What the step in progress does when its first line begins. -/
def State.beginStep (s : State) (op : Nat) : State :=
  let s := match s.derivedLines op with
    | some n => { s with cal := { s.cal with untilLine := s.time.line + n } }
    | none => s
  if op = 4 then
    { (((s.auxRun 0 0 0).put Reg.CAL_STATUS_BLIND 1).put Reg.CAL_STATUS_PENDING 0) with
      cal := { s.cal with blind := some (s.time.line, none), closed := true } }
  else if op = 7 then s.auxRun 0 1 0
  else if op = 8 then s.resumeNow
  else s

/-- The readings of the middle line of plate and flag averaging (R145, R164). -/
def State.middleReadings (s : State) : State :=
  let mid : Option (Nat × Nat) → Bool := fun x => match x with
    | some (a, n) => decide (s.time.line = a + n / 2)
    | none => false
  let s := if s.cal.op = some 3 ∧ mid s.cal.plateLines then { s with cal := { s.cal with tplate := s.cal.plateNow } } else s
  if s.cal.op = some 6 ∧ mid s.cal.flagLines then { s with cal := { s.cal with tflag := s.cal.flagNow, tsRef := s.healthyReadings } } else s

/-- A step of n lines starts: at once when a line is just beginning, else at the next boundary. -/
def State.startStep (s : State) (op n : Nat) : State :=
  let a := s.stepLine
  let s := { s with cal := { s.cal with
    op := some op, start := a, untilLine := a + n
    plateLines := if op = 3 then some (a, n) else s.cal.plateLines
    flagLines := if op = 6 then some (a, n) else s.cal.flagLines
    frozen := if op = 6 then [] else s.cal.frozen
    check := if op = 6 then s.cal.check ++ [(a, true)] else s.cal.check } }
  if a = s.time.line then (s.beginStep op).middleReadings else s

/-- The end of a script that needs no closure, or has had it: an event whose flag did not close is refused with reason 2 (R155). -/
def State.finishClosing (s : State) (code : Nat) : State :=
  (if code = 0x81 ∧ s.cal.reason = 2 then s.refuseEvent 2 else s).finishScript code

/-- The script ends with an exit code; in a blind span it first gets OPEN, SETTLE and RESUME (R172). -/
def State.endScript (s : State) (code : Nat) : State :=
  match s.cal.blind with
  | some (_, none) => ({ s with cal := { s.cal with closing := some (code, 7), trim := none } }).startStep 7 s.travelLines
  | _ => s.finishClosing code

/-- The next word is due; past the script's last word, or at a word with no defined opcode (log entry 33), the script ends with 0xFE. -/
def State.jumpScript (s : State) (pc : Nat) : State :=
  let s := { s with cal := { s.cal with op := none } }
  if s.cal.lens.getD s.scriptNo 256 ≤ pc then s.endScript 0xFE
  else if 0x0F < bits (s.scriptWord s.scriptNo pc) 24 8 then (s.put Reg.CAL_SCRIPT_STAT_PC pc).endScript 0xFE
  else s.put Reg.CAL_SCRIPT_STAT_PC pc

def State.nextWord (s : State) : State := s.jumpScript (s.scriptPc + 1)

/-- A script starts. -/
def State.startScript (s : State) (n : Nat) (shutter : Bool) : State :=
  let s := (s.put Reg.CAL_STATUS_RUNNING 1).put Reg.CAL_SCRIPT_STAT_SCRIPT n
  let s := { s with cal := { s.cal with
    op := none, start := 0, untilLine := 0, gapPc := none, shutter := shutter, closed := false, sawPlate := false, sawFlag := false, during := false, closing := none
    plateLines := none, flagLines := none, plate := [], flag := [], dropped := [], tsRef := List.replicate 8 none, tflag := none, tplate := none
    reason := 0, solving := none, solved := none, check := [], trim := none, frozen := [] } }
  s.jumpScript 0

/-! ### The end of an event (R163, R164) -/

/-- The header of the new bank (R164). -/
def State.newHeader (s : State) : State :=
  let b := s.standbyBank
  let h := headerAddr b
  let put := fun (t : State) (off : Nat) (v : Option Int) => match v with
    | some x => (t.putBytes (h + off) (sBytes x)).noteHeader b (0x30C000 + off)
    | none => t
  let s := put (put s 0 s.cal.tflag) 4 s.cal.tplate
  let s := (List.range 8).foldl (fun t k => put t (8 + 4 * k) (s.cal.tsRef.getD k none)) s
  match s.cal.flagLines with
  | some (a, n) => s.putBytes (h + 0x28) (leBytes 8 (a + n - 1))
  | none => s

/-- The quality measurement starts anew at a swap (R169). -/
def State.qualityStart (s : State) : State :=
  ({ s.put Reg.CAL_STATUS_QUAL_BUSY 1 with cal := { s.cal with qual := [] } }).arm Timer.qual (msTicks (1000 * s.get Reg.CAL_QUAL_QUAL_TIMEOUT))

/-- The image pixels of a bank that carry DRIFT_LIMITED. -/
def State.limitedIn (s : State) (b : Nat) : Nat :=
  (List.range 24).foldl (fun n r => (List.range 4096).foldl (fun n c =>
    if bit (s.storedFlags (pixelAddr b r (physOf c))) 7 then n + 1 else n) n) 0

/-- The flag-averaging line in the header of a bank. -/
def State.headerLine (s : State) (b : Nat) : Nat := leNat (Memory.bytes s.mem (headerAddr b + 0x28) 8)

/-- Gleaning and quality start anew, and EVENT_LINE and DRIFT_LIMITED are those of the new bank (R164, R167, R169, Table 6-17). -/
def State.bankInForce (s : State) : State :=
  let b := s.activeBank
  let limited := s.limitedIn b
  let line := s.headerLine b
  let c := { s.cal with glean := [], writes := [], due := [], lastSwap := s.time.line }
  let t := State.qualityStart { s with cal := c }
  (t.setPair Reg.CAL_EVENT_LINE_LO line).put Reg.CAL_DRIFT_LIMITED_PIXELS limited

/-- The swap of an accepted event ends STALE and the ownership, starts the snapshot of R317 and, at the first event, step 9. -/
def State.swapEnds (s : State) : State :=
  let t := ((s.put Reg.CAL_STATUS_STALE 0).releaseStandby).autoSnapshot
  let c := { t.cal with swapAsked := false }
  let k := { t.trk with admitNext := t.trk.admitNext || !t.step9 }
  { t with cal := c, trk := k }

/-- What a bank swap brings with it when it takes effect for the line that begins: gleaning and quality anew, EVENT_LINE and DRIFT_LIMITED
of the new bank (R164, R167, R169, Table 6-17); for the swap of an accepted event also the end of the script step, of STALE and of the
ownership, the snapshot of R317, and at the first event step 9 (R50). -/
def State.swapDone (s : State) : State :=
  let s := s.bankInForce
  if !s.cal.swapAsked then s
  else
    let s := s.swapEnds
    if s.cal.op = some 10 then s.nextWord else s

/-- A swap asked for at the very boundary takes effect for the line that begins there (R105, Table 6-3 step 9): its environment is made
anew with the new bank. -/
def State.swapHere (s : State) : State :=
  let r := s.applySwaps
  if !r.2 then s
  else
    let s := (r.1.swapDone).substrate.suspendLine
    match s.cor.env with
    | e :: es => if e.line = s.time.line then { s with cor := { s.cor with env := { s.lineEnv e.lagOff with nu := e.nu } :: es } } else s
    | [] => s

/-- The event is accepted: it asks for the swap (R164). -/
def State.acceptEvent (s : State) (t : Solved) : State :=
  let out := if t.offsetOnly then 2 else 1
  let s := ((s.put Reg.CAL_RESULT_OUTCOME out).put Reg.CAL_RESULT_REASON 0).putSat Reg.CAL_RESULT_FAILED t.failing
  let s := (s.bump Reg.CAL_COUNTS_ACCEPTED 1).put Reg.CAL_STATUS_FIRST_DONE 1
  let s := (s.newHeader.emit 0x0305 out t.failing).bumpCounter 1027 1
  let s := { s.put Reg.COR_STATUS_SWAP_PENDING 1 with cal := { s.cal with refused := false, swapAsked := true, acceptedTick := some s.time.ticks } }
  if s.atBoundary then s.swapHere else s

/-- SWAP with a finished solve: R163 or R164. -/
def State.decideEvent (s : State) (t : Solved) : State :=
  let reason := if s.cal.reason ≠ 0 then s.cal.reason else if s.get Reg.CAL_LIM_FAIL_FAIL_MAX < t.failing then 1 else 0
  if reason = 0 then s.acceptEvent t else (s.refuseEvent reason).endScript 0x81

/-! ### The flag checks (R155) -/

/-- Whether the mean view matches the flag reading; without a good pixel or reading it is open (a free value, log entry 5). -/
def State.viewMatches (s : State) : State × Bool :=
  match s.cal.view, s.cal.flagNow with
  | some v, some f =>
    let d := v - (f : Rat)
    let tol : Rat := ((1000 * s.get Reg.CAL_FLAG_FLAG_TOL : Nat) : Rat)
    (s, decide (d ≤ tol ∧ -d ≤ tol))
  | _, _ => (s.draw, s.drawn.getLsbD 0)

/-- The flag has not closed: steps 6 to 8 run, and the event is refused with reason 2. -/
def State.flagStuck (s : State) : State :=
  ({ s.put Reg.CAL_STATUS_FLAG_STUCK 1 with cal := { s.cal with reason := 2 } }).endScript 0x81

/-- The comparison in the first line of step 5: also where the averaging of one line is already over; a script that has ended meanwhile is
left alone. -/
def State.closedCheck (s : State) : State :=
  let r := s.viewMatches
  if r.2 then r.1.put Reg.CAL_STATUS_FLAG_STUCK 0
  else if s.flag Reg.CAL_STATUS_RUNNING ∧ s.cal.closing.isNone then r.1.flagStuck
  else r.1.put Reg.CAL_STATUS_FLAG_STUCK 1

/-- The comparison in the line of step 8: a flag that has not opened gets the open profile again every 100 ms. -/
def State.openCheck (s : State) : State :=
  let r := s.viewMatches
  let apart : Bool := match s.cal.plateNow, s.cal.flagNow with
    | some p, some f => decide (1000 * s.get Reg.CAL_SOLVE_MIN_REF_DIFF ≤ (p - f).natAbs)
    | _, _ => false
  if r.2 ∧ apart then ((r.1.put Reg.MPT_ALERT_FLAG 1).emit 0x0303 0 0).arm Timer.flagRetry (msTicks 100) else r.1

/-- The checks of R155 on field line n, the first of step 5 or the line of step 8; and the end of the repeated openings. -/
def State.flagCheck (s : State) (n : Nat) : State :=
  let here := s.cal.check.filter (fun c => decide (c.1 = n))
  let s := { s with cal := { s.cal with check := s.cal.check.filter (fun c => decide (c.1 ≠ n)) } }
  let s := if here.any (fun c => c.2) then s.closedCheck else s
  if here.any (fun c => !c.2) then s.openCheck
  else if (s.due Timer.flagRetry).isNone then s
  else
    let r := s.viewMatches
    if r.2 then r.1 else r.1.disarm Timer.flagRetry

/-- FLAG_OPEN_RETRY: the open profile again, every 100 ms (R155). -/
def execFlagOpenRetry (s : State) : Host.Outcome State Fault Refusal :=
  .next (match s.fire Timer.flagRetry with
    | none => s
    | some s => (s.auxRun 0 1 0).arm Timer.flagRetry (msTicks 100))

/-! ### The line boundary (R148, R150, R152) -/

/-- The largest thermometer difference and its thermometer (R146, R148). -/
def State.largestDrift (s : State) : Nat × Nat :=
  (List.range 8).foldl (fun b k => match s.cor.held.getD k none with
    | some d => if b.1 < d.natAbs then (d.natAbs, k) else b
    | none => b) (0, 0)

/-- CAL_STALE, and the drift request while no script runs (R146–R148). -/
def State.driftCheck (s : State) : State :=
  let d := s.largestDrift
  let lost := s.flag Reg.COR_STATUS_SUBSTRATE_LOST
  let s := if 4000000 < d.1 ∧ !lost ∧ !s.flag Reg.CAL_STATUS_STALE then (s.put Reg.CAL_STATUS_STALE 1).emit 0x0301 d.2 d.1 else s
  if !s.flag Reg.CAL_STATUS_RUNNING ∧ !lost ∧ 1000 * s.get Reg.CAL_TRIG_DRIFT_TRIG < d.1 ∧ s.cal.silentUntil ≤ s.time.ticks then s.requestShutter else s

/-- The reference readings that take effect with the line (R145), and reason 3 for a reference that fails in steps 2 to 5. -/
def State.references (s : State) : State :=
  let value := fun (x : Option (Int × Bool)) => if refHealthy x then x.map (fun p => p.1) else none
  let fOk := refHealthy s.cal.flagLatest
  let pOk := refHealthy s.cal.plateLatest
  let during := s.flag Reg.CAL_STATUS_RUNNING && s.cal.during && s.cal.closing.isNone
  { s with cal := { s.cal with
      flagNow := value s.cal.flagLatest, plateNow := value s.cal.plateLatest, flagOk := fOk, plateOk := pOk
      reason := if during ∧ s.cal.reason = 0 ∧ !(fOk && pOk) then 3 else s.cal.reason } }

/-- QUIET_CHECK for GAP (R150): the quiet view ends the wait. -/
def State.gapCheck (s : State) : State :=
  if s.cal.op = some 2 ∧ s.quiet then ((s.put Reg.CAL_STATUS_GAP_WAIT 0).disarm Timer.gapTimeout).nextWord else s

/-- PLATE_RESTART (R152): the averages are discarded, and the script returns to its GAP (without one, to the PLATE itself: log entry 34); the
sequence keeps the standby bank (R165). -/
def State.plateCheck (s : State) : State :=
  let row : Bool := match s.cal.row0Bad with
    | some n => decide (s.cal.start ≤ n)
    | none => false
  if s.cal.op = some 3 ∧ (row ∨ s.trk.sheaves.any (fun e => decide (e.2.state = 1))) then
    let s := { s with cal := { s.cal with plate := [], plateLines := none, sawPlate := false, during := false, tplate := none } }
    s.jumpScript (s.cal.gapPc.getD s.scriptPc)
  else s

/-- What the sequencer does at the boundary of the line that has begun. -/
def State.calLine (s : State) : State :=
  let s := match s.cal.op with
    | some op => if s.cal.start = s.time.line ∧ op ∈ [3, 4, 5, 6, 7, 8] then
        (let s := s.beginStep op
         if op ≠ 8 then s else match s.cal.closing with
           | none => s.nextWord
           | some (code, _) => s.finishClosing code)
      else s
    | none => s
  (s.middleReadings.plateCheck.gapCheck).driftCheck

/-! ### Requests and commands (R146, R147, R151, R172) -/

/-- INTERVAL_REQUEST: the interval since the last accepted event has passed (R146). -/
def execIntervalRequest (s : State) : Host.Outcome State Fault Refusal :=
  .next (match s.cal.acceptedTick with
    | none => s
    | some t =>
      let n := s.get Reg.CAL_TRIG_MAX_INTERVAL
      if n = 0 then s else (s.elapseTo (Nat.max (t + msTicks (1000 * n)) s.cal.silentUntil)).requestShutter)

/-- CAL_GAP_TIMEOUT (R151): told, and told again after each further GAP_TIMEOUT. -/
def execCalGapTimeout (s : State) : Host.Outcome State Fault Refusal :=
  .next (match s.fire Timer.gapTimeout with
    | none => s
    | some s => (s.arm Timer.gapTimeout (msTicks (s.get Reg.CAL_GAP_GAP_TIMEOUT))).emit 0x0302 0 ((s.time.ticks - s.cal.fgapTick) / 100000))

/-- SHUTTER_SCRIPT_START: a pending request runs SHUTTER_SCRIPT once no script runs (R147, R172). -/
def execShutterScriptStart (s : State) : Host.Outcome State Fault Refusal :=
  .next (if s.flag Reg.CAL_STATUS_PENDING ∧ !s.flag Reg.CAL_STATUS_RUNNING then s.startScript (s.get Reg.CAL_CTRL_SHUTTER_SCRIPT) true else s)

/-- CANCEL (R147, R172): REFUSED for the first event after start-up and once CLOSE has begun; a shutter script that runs ends with 0x80, another
script goes on. -/
def State.cancelEvent (s : State) : Option State :=
  let run := s.flag Reg.CAL_STATUS_RUNNING
  if !s.flag Reg.CAL_STATUS_FIRST_DONE ∨ (run ∧ s.cal.closed) then none
  else
    let s : State := { s.put Reg.CAL_STATUS_PENDING 0 with cal := { s.cal with held := false } }
    some (if s.shutterRuns then s.finishScript 0x80 else if run ∧ s.cal.gapPc.isSome then s else s.releaseGap)

/-- CLR_COUNTERS in CAL_CMD (Table 6-13). -/
def State.clearCal (s : State) : State := ((s.setWord Reg.CAL_COUNTS 0).setWord Reg.CAL_BLIND_LINES 0).setWord Reg.CAL_GLEAN_UPDATES 0

/-- A write of CAL_CMD (Table 6-13): its actions in the order of their bits, each judged on its own (R357); in start-up step 7 the word
is REFUSED (R54). -/
def State.hostCalCmd (s : State) (w : Nat) : State × Bool :=
  if s.get Reg.CFG_PHASE_PHASE = 4 then (s, true)
  else
    let r := thenAct (s, false) (bit w 0) (fun t => some t.requestShutter)
    let r := thenAct r (bit w 1) State.cancelEvent
    let r := thenAct r (bit w 2) (fun t => if t.flag Reg.CAL_STATUS_RUNNING then none else some (t.startScript (bits w 3 4) false))
    thenAct r (bit w 7) (fun t => some t.clearCal)

/-- CAL_EVENT_REQUEST (R146). -/
def execCalEventRequest (s : State) : Host.Outcome State Fault Refusal := .next (s.hostDone Reg.CAL_CMD (s.hostCalCmd 1))

/-- CANCEL (R147). -/
def execCalCancel (s : State) : Host.Outcome State Fault Refusal := .next (s.hostDone Reg.CAL_CMD (s.hostCalCmd 2))

/-- RUN (R172): REFUSED while a script runs. -/
def execCalRun (script : Nat) (s : State) : Host.Outcome State Fault Refusal :=
  .next (s.hostDone Reg.CAL_CMD (s.hostCalCmd (4 + 8 * (script % 16))))

/-- CAL_CLR_COUNTERS (Table 6-13). -/
def execCalClrCounters (s : State) : Host.Outcome State Fault Refusal := .next (s.hostDone Reg.CAL_CMD (s.hostCalCmd 128))

/-- A write to the script memory: REFUSED for the running script (R171) and in start-up step 7 (R54); a word past the script's last becomes its
last (DESIGN CHOICE, log entry 81). -/
def State.hostScriptWord (s : State) (a : Nat) (w : Word) : Option State :=
  let n := (a - Reg.CAL_SCRIPT_MEM 0 0) / 1024
  let i := (a - Reg.CAL_SCRIPT_MEM 0 0) % 1024 / 4
  if s.get Reg.CFG_PHASE_PHASE = 4 ∨ (s.flag Reg.CAL_STATUS_RUNNING ∧ s.scriptNo = n) then none
  else some { s.setWord a w with cal := { s.cal with lens := s.cal.lens.set n (Nat.max (i + 1) (s.cal.lens.getD n 0)) } }

/-- SCRIPT_WRITE (R171). -/
def execScriptWrite (addr value : Nat) (s : State) : Host.Outcome State Fault Refusal :=
  .next (if Reg.CAL_SCRIPT_MEM 0 0 ≤ addr ∧ addr < Reg.CAL_SCRIPT_MEM 16 0 ∧ addr % 4 = 0 then s.host addr (s.hostScriptWord addr (BitVec.ofNat 32 value)) else s)

/-! ### The instructions (Table 6-7) -/

/-- END (R171). -/
def execCrocusEnd (code : Nat) (s : State) : Host.Outcome State Fault Refusal :=
  .next (if s.fetches 0 (fun a => decide (a % 256 = code)) then s.endScript code else s)

/-- WAIT (R171). -/
def execCrocusWait (lines : Nat) (s : State) : Host.Outcome State Fault Refusal :=
  .next (if s.fetches 1 (fun a => decide (a % 65536 = lines)) then
      { s with cal := { s.cal with op := some 1, start := s.time.line, untilLine := s.time.line + lines } }
    else s)

/-- A second wait of the same request, with FGAP_N still asserted: CAL_GAP_TIMEOUT follows at the next whole GAP_TIMEOUT after its assertion
(R151). -/
def State.waitGap (s : State) : State :=
  let g := msTicks (s.get Reg.CAL_GAP_GAP_TIMEOUT)
  if s.cal.fgap ∧ (s.due Timer.gapTimeout).isNone ∧ 0 < g then s.arm Timer.gapTimeout (g - (s.time.ticks - s.cal.fgapTick) % g) else s

/-- GAP (R149–R151): FGAP_N, and the wait for a quiet view. -/
def execCrocusGap (s : State) : Host.Outcome State Fault Refusal :=
  .next (if s.fetches 2 (fun _ => true) then
      ({ s with cal := { s.cal with op := some 2, gapPc := some s.scriptPc } }.put Reg.CAL_STATUS_GAP_WAIT 1).assertGap.waitGap
    else s)

/-- What the standby bank holds once host contents are overwritten: a copy of the active bank (R165; log entry 35). -/
def State.copyBank (s : State) : State :=
  let a := s.activeBank
  let b := s.standbyBank
  let s := s.putBytes (bankBase b) (Memory.bytes s.mem (bankBase a) 0x30C040)
  { s with cor := { s.cor with refSet := s.cor.refSet.set b (s.cor.refSet.getD a []) } }

/-- PLATE (R157, R165): ownership of the standby bank, and plate averaging. -/
def execCrocusPlate (lines : Nat) (s : State) : Host.Outcome State Fault Refusal :=
  .next (if s.fetches 3 (fun a => decide (a % 2048 = lines)) then
      (let s := s.copyBank.put Reg.CAL_STATUS_OWN_STANDBY 1
       let s := { s with cal := { s.cal with sawPlate := true, during := true, plate := [], solved := none, reason := 0 } }
       s.startStep 3 (if lines = 0 then s.avgLines else lines))
    else s)

/-- CLOSE (R153, R172): only after a GAP of the same run and with a quiet view. A view that is not quiet because a reference failed in step 2
and has not come back refuses the event with reason 3 (R163). -/
def execCrocusClose (s : State) : Host.Outcome State Fault Refusal :=
  .next (if s.fetches 4 (fun _ => true) then
      (if s.cal.gapPc.isSome ∧ s.quiet then s.startStep 4 s.travelLines
       else if s.cal.during ∧ s.cal.reason = 3 then ((s.put Reg.CAL_STATUS_PENDING 0).refuseEvent 3).endScript 0x81
       else s.endScript 0x82)
    else s)

/-- SETTLE. -/
def execCrocusSettle (lines : Nat) (s : State) : Host.Outcome State Fault Refusal :=
  .next (if s.fetches 5 (fun a => decide (a % 256 = lines)) then s.startStep 5 (if lines = 0 then s.settleLines else lines) else s)

/-- FLAG (R155, R157): the flag check in the first line, and flag averaging. -/
def execCrocusFlag (lines : Nat) (s : State) : Host.Outcome State Fault Refusal :=
  .next (if s.fetches 6 (fun a => decide (a % 2048 = lines)) then
      ({ s with cal := { s.cal with flag := [] } }).startStep 6 (if lines = 0 then s.avgLines else lines)
    else s)

/-- OPEN. -/
def execCrocusOpen (s : State) : Host.Outcome State Fault Refusal :=
  .next (if s.fetches 7 (fun _ => true) then s.startStep 7 s.travelLines else s)

/-- RESUME (R154): at a boundary it is done at once. -/
def execCrocusResume (s : State) : Host.Outcome State Fault Refusal :=
  .next (if s.fetches 8 (fun _ => true) then
      (if s.atBoundary then s.resumeNow.nextWord else s.startStep 8 0)
    else s)

/-- Whether a PLATE and a FLAG were in the same run. -/
def State.averaged (s : State) : Bool := s.cal.sawPlate && s.cal.sawFlag

/-- SOLVE (R158): starts, and the script goes on. -/
def execCrocusSolve (sel : Nat) (s : State) : Host.Outcome State Fault Refusal :=
  .next (if s.fetches 9 (fun a => decide (a % 4 = sel)) then
      (if !s.averaged then s.endScript 0x84 else ({ s with cal := { s.cal with solving := some sel, solved := none } }).nextWord)
    else s)

/-- SOLVE_COMPLETE (R164): a waiting SWAP goes on. -/
def execSolveComplete (s : State) : Host.Outcome State Fault Refusal :=
  .next (match s.cal.solving with
    | none => s
    | some sel =>
      let s := s.solveDone sel
      match s.cal.op, s.cal.solved with
      | some 10, some t => s.decideEvent t
      | _, _ => s)

/-- SWAP (R163, R164): it waits for the solve; without a SOLVE it ends the script like one without PLATE and FLAG (log entry 36). -/
def execCrocusSwap (s : State) : Host.Outcome State Fault Refusal :=
  .next (if s.fetches 10 (fun _ => true) then
      (if !s.averaged ∨ (s.cal.solving.isNone ∧ s.cal.solved.isNone) then s.endScript 0x84
       else
        let s := { s with cal := { s.cal with op := some 10 } }
        match s.cal.solved with
        | some t => s.decideEvent t
        | none => s)
    else s)

/-- Whether a JUMP_IF condition holds; an undefined condition does not (log entry 33). -/
def State.jumpHolds (s : State) (cond : Nat) : Bool :=
  if cond = 0 then true
  else if cond = 1 then s.cal.refused
  else if cond = 2 then s.admitting
  else if cond = 3 then !s.flag Reg.CAL_STATUS_FIRST_DONE
  else false

/-- JUMP_IF. -/
def execCrocusJumpIf (cond target : Nat) (s : State) : Host.Outcome State Fault Refusal :=
  .next (if s.fetches 14 (fun a => decide (bits a 16 8 = cond ∧ bits a 0 8 = target)) then
      (if s.jumpHolds cond then s.jumpScript target else s.nextWord)
    else s)

/-- EVENT. -/
def execCrocusEvent (code : Nat) (s : State) : Host.Outcome State Fault Refusal :=
  .next (if s.fetches 15 (fun a => decide (a % 256 = code)) then (s.emit 0x0307 s.scriptNo code).nextWord else s)

/-! ### Thermal settling (R170) -/

/-- The settling rate (R170), in K/min as µK: the largest change of a healthy thermometer against its oldest reading of the last 60 s (log
entry 75); none while no thermometer is healthy. `hist` holds the readings of each second, newest first. -/
def settlingRate (hist : List (List (Option Int))) : Option Nat :=
  (List.range 8).foldl (fun b k => match (hist.headD []).getD k none, (hist.filterMap (fun l => l.getD k none)).getLast? with
    | some a, some o => some (Nat.max (b.getD 0) (a - o).natAbs)
    | _, _ => b) none

/-- SETTLING_EVALUATION: once per second from commit; the flag clears from 60 s after commit on (R170). -/
def execSettlingEvaluation (s : State) : Host.Outcome State Fault Refusal :=
  .next (match s.fire Timer.settling with
    | none => s
    | some s =>
      let hist := (s.healthyReadings :: s.cal.settle).take 61
      let s := ({ s with cal := { s.cal with settle := hist } }).arm Timer.settling (msTicks 1000)
      match settlingRate hist with
      | some r => if s.time.commitTick + msTicks 60000 ≤ s.time.ticks ∧ r < 10000 * s.get Reg.CAL_SETTLE_RATE then
          s.put Reg.CFG_STATUS_SETTLING 0 else s
      | none => s)

end Sys2Proof.Machine
end

