-- ==== Sys2Proof/Machine/Trim.lean ====
section
/-!
DEFINITION. The trims (spec/06_calibration.md R173–R176): capacitor sets, skim sources, the DAC searches, host writes of trims, and the
end of a script step that counts lines (R171).
-/
namespace Sys2Proof.Machine

/-! ### Trim registers (Table 6-18) -/

/-- The capacitor set and the skim source of a furrow index. -/
def capOf (k : Nat) : Field := ⟨Reg.CAL_FTRIM (k / 4), 8 * (k % 4) + 4, 3⟩
def skimOf (k : Nat) : Field := ⟨Reg.CAL_FTRIM (k / 4), 8 * (k % 4), 4⟩

/-- The DAC of a headland furrow. -/
def headDac (h : Nat) : Field := ⟨Reg.CAL_DAC_HL (h / 4), 8 * (h % 4), 8⟩

/-- The furrow index of headland furrow h. -/
def headKey (h : Nat) : Nat := if h < 32 then furrowKey 0 h else furrowKey 64 h

/-- Image furrows, and furrows that are trimmed by selection: image furrows and spares. -/
def imageKey (k : Nat) : Bool := decide (k % 65 < 64) && isImage (64 * (k / 65) + k % 65)
def selectedKey (k : Nat) : Bool := decide (k ≤ 4224) && (decide (k % 65 = 64) || imageKey k)

/-- The image furrows of a group. -/
def groupImages (g : Nat) : List Nat := ((List.range 64).map (furrowKey g)).filter imageKey

/-- A trim write asks for a shutter event (R173); in a run that has not reached CLOSE its own event serves, if it comes (DEDUCED, log entry
37). -/
def State.trimmed (s : State) : State :=
  if s.flag Reg.CAL_STATUS_RUNNING ∧ s.cal.closed then s.requestShutter else (s.put Reg.CAL_STATUS_PENDING 1).assertGap

/-! ### Searches (R174, R175) -/

/-- How many trials a search makes. -/
def trimTrials (kind : Nat) : Nat := if kind = 0 then 8 else if kind = 1 then 16 else if kind = 4 then 8 else 12

/-- The mean of sums and counts; none without a code. -/
def meanCode (m : Map (Nat × Nat)) (k : Nat) : Option Rat :=
  match Map.find m k with
  | some (a, n) => if n = 0 then none else some ((a : Rat) / (n : Rat))
  | none => none

def magQ (q : Rat) : Rat := if q < 0 then -q else q

/-- The closer of two choices: ties keep the first, the lower number. -/
def nearer (old : Option (Rat × Nat)) (d : Rat) (choice : Nat) : Rat × Nat :=
  match old with
  | some (b, c) => if d < b then (d, choice) else (b, c)
  | none => (d, choice)

/-- Set the selection being tried in every furrow the search covers. -/
def State.tryChoice (s : State) (kind n : Nat) : State :=
  if kind = 0 then (List.range 4225).foldl (fun t k => if selectedKey k then t.put (capOf k) n else t) s
  else (List.range 4225).foldl (fun t k => if imageKey k then t.put (skimOf k) n else t) s

/-- The code that a channel tries. -/
def State.tryCode (s : State) (kind h code : Nat) : State :=
  if kind = 2 then s.put Reg.CAL_DAC_BIAS_CODE code
  else if kind = 3 then s.put Reg.CAL_DAC_SKIM_CODE code
  else s.put (headDac h) code

/-- Set what a trial tries. -/
def State.tryTrial (s : State) (t : TrimRun) : State :=
  if t.kind ≤ 1 then s.tryChoice t.kind t.trial
  else ((List.range t.sar.length).foldl (fun u h => u.tryCode t.kind h (t.sar.getD h ⟨0, 0, none⟩).code) s)

/-- A search starts: its first trial begins at once at a boundary, else at the next. -/
def State.startTrim (s : State) (op kind : Nat) : State :=
  let top := if kind = 4 then 128 else 2048
  let n := if kind ≤ 1 then 0 else if kind = 4 then 64 else 1
  let a := s.stepLine
  let t : TrimRun := ⟨kind, 0, a, [], [], [], [], [], List.replicate n ⟨top, 0, none⟩⟩
  ({ s with cal := { s.cal with
    op := some op, start := a, untilLine := a + trialLines kind (s.get Reg.TBS_STATUS_PERIOD_NOW), trim := some t } }).tryTrial t

/-- What the trial measured for furrow index k: distance from the target, none where it gave nothing usable. -/
def State.choiceDist (s : State) (t : TrimRun) (k : Nat) : Option Rat :=
  if t.kind = 0 then
    match meanCode t.hi k, meanCode t.lo k with
    | some h, some l => some (magQ (h - l - (s.get Reg.CAL_TRIM_TARGET_SPAN_TARGET : Nat)))
    | _, _ => none
  else if k ∈ t.sat then none
  else (meanCode t.row k).map (fun m => magQ (m - (s.get Reg.CAL_TRIM_TARGET_CODE_TARGET : Nat)))

/-- A selection trial ends. -/
def State.endChoice (s : State) (t : TrimRun) : TrimRun :=
  let best := (List.range 4225).foldl (fun b k =>
    if if t.kind = 0 then selectedKey k else imageKey k then
      match s.choiceDist t k with
      | some d => Map.insert b k (nearer (Map.find b k) d t.trial)
      | none => b
    else b) t.best
  { t with best := best }

/-- The median of the mean codes of the headland furrows. -/
def medianHead (t : TrimRun) : Option Rat :=
  let l := (List.range 64).filterMap (fun h => meanCode t.row (headKey h))
  let sorted := l.foldl (fun a x => (a.filter (fun y => decide (y ≤ x))) ++ [x] ++ a.filter (fun y => decide (x < y))) []
  let n := sorted.length
  if n = 0 then none
  else if n % 2 = 1 then some (sorted.getD (n / 2) 0)
  else some ((sorted.getD (n / 2 - 1) 0 + sorted.getD (n / 2) 0) / 2)

/-- What channel h measured: value minus target, and whether the value rises with the code. -/
def State.sarError (s : State) (t : TrimRun) (h biasMv : Nat) : Option Rat × Bool :=
  let target : Rat := (s.get Reg.CAL_TRIM_TARGET_CODE_TARGET : Nat)
  if t.kind = 2 then (some ((biasMv : Rat) - (s.get Reg.RDO_BIAS_BIAS_MV : Nat)), Config.biasRises)
  else if t.kind = 3 then ((medianHead t).map (fun m => m - target), Config.skimRises)
  else ((meanCode t.row (headKey h)).map (fun m => m - target), Config.headRises)

/-- One step of a binary search: the nearest code so far is kept (ties to the lower code), the bit tried stays unless the value lies beyond
the target, and the next lower bit is set. -/
def SarChan.next (c : SarChan) (e : Option Rat) (rises : Bool) (bitNo : Nat) : SarChan :=
  let near : Bool := match e, c.dist with
    | some d, some b => decide (magQ d < b) || (decide (magQ d = b) && decide (c.code < c.best))
    | some _, none => true
    | none, _ => false
  let keep : Bool := match e with
    | some d => if rises then decide (d ≤ 0) else decide (0 ≤ d)
    | none => false
  let base := if keep then c.code else c.code - 2 ^ bitNo
  { code := if bitNo = 0 then base else base + 2 ^ (bitNo - 1)
    best := if near then c.code else c.best
    dist := if near then e.map magQ else c.dist }

/-- A DAC trial ends. -/
def State.endSar (s : State) (t : TrimRun) (biasMv : Nat) : TrimRun :=
  let bitNo := (if t.kind = 4 then 7 else 11) - t.trial
  let sar := (List.range t.sar.length).map (fun h =>
    let r := s.sarError t h biasMv
    (t.sar.getD h ⟨0, 0, none⟩).next r.1 r.2 bitNo)
  let old := (t.sar.getD 0 ⟨0, 0, none⟩).best
  let new := (sar.getD 0 ⟨0, 0, none⟩).best
  { t with sar := sar, best := if t.kind = 2 ∧ (old ≠ new ∨ t.trial = 0) then [(0, ((biasMv : Rat), new))] else t.best }

/-- The result of a selection search (R174). -/
def State.setChoices (s : State) (t : TrimRun) : State :=
  let pick := fun (k : Nat) => ((Map.find t.best k).map (fun x => x.2)).getD 0
  if t.kind = 0 then (List.range 4225).foldl (fun u k => if selectedKey k then u.put (capOf k) (pick k) else u) s
  else
    let s := (List.range 4225).foldl (fun u k => if imageKey k then u.put (skimOf k) (pick k) else u) s
    (List.range 65).foldl (fun u g =>
      u.put (skimOf (furrowKey g 64)) (rheQ (medianSorted (sortAsc ((groupImages g).map (fun k => (pick k : Int)))))).toNat) s

/-- The result of a DAC search (R175): the bias is then the one measured at the code kept. -/
def State.setCodes (s : State) (t : TrimRun) : State :=
  let s := (List.range t.sar.length).foldl (fun u h => u.tryCode t.kind h (t.sar.getD h ⟨0, 0, none⟩).best) s
  match t.kind, Map.find t.best 0 with
  | 2, some (v, _) => { s with rdo := { s.rdo with biasMv := v.num.toNat } }
  | _, _ => s

/-- The running trial has had its lines. -/
def State.trialDone (s : State) (t : TrimRun) (biasMv : Nat) : State :=
  let t := if t.kind ≤ 1 then s.endChoice t else s.endSar t biasMv
  let s := if t.kind = 2 then { s with rdo := { s.rdo with biasMv := biasMv } } else s
  if t.trial + 1 < trimTrials t.kind then
    let a := s.stepLine
    let t := { t with trial := t.trial + 1, start := a, lo := [], hi := [], row := [], sat := [] }
    ({ s with cal := { s.cal with trim := some t, start := a, untilLine := a + trialLines t.kind (s.get Reg.TBS_STATUS_PERIOD_NOW) } }).tryTrial t
  else
    let s := if t.kind ≤ 1 then s.setChoices t else s.setCodes t
    (({ s with cal := { s.cal with trim := none } }).trimmed).nextWord

/-! ### The Crocus trims (R172, R174, R175) -/

/-- TRIM_CAP: only while admission is not active. -/
def execCrocusTrimCap (s : State) : Host.Outcome State Fault Refusal :=
  .next (if s.fetches 11 (fun _ => true) then (if s.admitting then s.endScript 0x83 else s.startTrim 11 0) else s)

/-- TRIM_SKIM. -/
def execCrocusTrimSkim (s : State) : Host.Outcome State Fault Refusal :=
  .next (if s.fetches 12 (fun _ => true) then (if s.admitting then s.endScript 0x83 else s.startTrim 12 1) else s)

/-- TRIM_DAC: 0 bias, 1 skim reference, 2 headland; another operand is undefined (log entry 33). -/
def execCrocusTrimDac (dac : Nat) (s : State) : Host.Outcome State Fault Refusal :=
  .next (if s.fetches 13 (fun a => decide (a = dac)) then
      (if s.admitting then s.endScript 0x83 else if 2 < dac then s.endScript 0xFE else s.startTrim 13 (2 + dac))
    else s)

/-! ### The end of a step that counts lines (R171, R172) -/

/-- The closure steps of a script that ends in a blind span: OPEN, SETTLE, RESUME. -/
def State.closingDone (s : State) (code step : Nat) : State :=
  if step = 7 then ({ s with cal := { s.cal with closing := some (code, 5) } }).startStep 5 s.settleLines
  else if s.atBoundary then (s.resumeNow).finishClosing code
  else s.startStep 8 0

/-- SCRIPT_LINES_DONE (R171): the lines of the step are over, and the script goes on. `biasMv` is the row bias as measured at the end of a
bias-DAC trial (R175). -/
def State.linesDone (s : State) (op biasMv : Nat) : State :=
  match s.cal.closing with
  | some (code, step) => if op = 8 then s else s.closingDone code step
  | none =>
    match s.cal.trim with
    | some t => s.trialDone t biasMv
    | none =>
      if op = 6 then ({ s with cal := { s.cal with sawFlag := true, during := false } }).nextWord
      else if op ∈ [1, 3, 4, 5, 7] then s.nextWord
      else s

/-- SCRIPT_LINES_DONE. -/
def execScriptLinesDone (biasMv : Nat) (s : State) : Host.Outcome State Fault Refusal :=
  .next (match s.cal.op with
    | none => s
    | some op => if s.flag Reg.CAL_STATUS_RUNNING ∧ s.time.lines ∧ s.cal.untilLine ≤ s.time.line then s.linesDone op biasMv else s)

/-! ### Host writes (R173, R176) -/

/-- The bits of an FTRIM word that exist: bytes of headland furrows and of indices above 4,224 do not. -/
def ftrimMask (w : Nat) : Nat := (List.range 4).foldl (fun m j => if selectedKey (4 * w + j) then m + 127 * 256 ^ j else m) 0

/-- A write to a trim register: REFUSED while admission is active and in start-up step 7 (R54, R176). -/
def State.hostTrim (s : State) (addr value : Nat) : Option State :=
  let old := (s.word addr).toNat
  let new := ((regRow addr).map (fun r => r.merge old value)).getD old
  let new := if Reg.CAL_FTRIM 0 ≤ addr then new &&& ftrimMask ((addr - Reg.CAL_FTRIM 0) / 4) else new
  allow (!s.admitting && decide (s.get Reg.CFG_PHASE_PHASE ≠ 4)) (s.setWord addr (BitVec.ofNat 32 new)).trimmed

/-- The addresses of the trim registers. -/
def isTrim (a : Nat) : Bool :=
  decide (a = Reg.CAL_DAC_BIAS ∨ a = Reg.CAL_DAC_SKIM) || (decide (a % 4 = 0) &&
    decide ((Reg.CAL_DAC_HL 0 ≤ a ∧ a < Reg.CAL_DAC_HL 16) ∨ (Reg.CAL_FTRIM 0 ≤ a ∧ a < Reg.CAL_FTRIM 1057)))

/-- TRIM_WRITE (R176). -/
def execTrimWrite (addr value : Nat) (s : State) : Host.Outcome State Fault Refusal :=
  .next (if isTrim addr then s.host addr (s.hostTrim addr value) else s)

end Sys2Proof.Machine
end

