-- ==== Sys2Proof/Machine/Lines.lean ====
section
/-!
DEFINITION. Lines and the line boundary (spec/17_timing_crossings.md R427, R428, R432, R436, spec/02_configuration_and_startup.md R50, R51,
R56, spec/01_architecture.md R28): the period in force, what every boundary carries, and the start of a line by the period, by LSYNC or
for want of it.
-/
namespace Sys2Proof.Machine

/-! ### The period in force (R414, R427, R89, R113) -/

/-- The throttle period of the line that begins: with internal sync the one of R414, kept while a stage-5 change is below 1 % or within
500 ms of the last; a configured period that has just changed is taken at once (DESIGN CHOICE, log entry 52). -/
def State.takeThrottle (s : State) (changed : Bool) : State :=
  let p := s.get Reg.TBS_PERIOD_PERIOD
  let q := if s.flag Reg.TBS_CTRL_SYNC then p else s.throttlePeriod p
  let cur := s.pwr.throttlePeriod
  let apart := decide (cur ≤ 100 * (if cur ≤ q then q - cur else cur - q))
  let due : Bool := match s.pwr.throttleAt with
    | some t => decide (t + msTicks 500 ≤ s.time.ticks)
    | none => true
  if changed ∨ cur = 0 ∨ s.flag Reg.TBS_CTRL_SYNC then { s with pwr := { s.pwr with throttlePeriod := q } }
  else if q ≠ cur ∧ apart ∧ due then { s with pwr := { s.pwr with throttlePeriod := q, throttleAt := some s.time.ticks } }
  else s

/-- PERIOD_NOW: the greatest of the throttle period, MIN_PERIOD_US and COR_MIN_PERIOD (R414). -/
def State.periodNow (s : State) : Nat :=
  Nat.max s.pwr.throttlePeriod (Nat.max (usTicks (s.get Reg.RDO_LINK_STATUS_MIN_PERIOD_US)) (s.get Reg.COR_MIN_PERIOD_MIN_PERIOD))

/-- The timebase set transfers, and the period of the line that begins is fixed (R28, R139, R436). -/
def State.takePeriod (s : State) : State :=
  let before := s.get Reg.TBS_PERIOD_PERIOD
  let s := (s.transfer inSetTbs).put Reg.TBS_STATUS_SET_PENDING 0
  let s := s.takeThrottle (decide (s.get Reg.TBS_PERIOD_PERIOD ≠ before))
  (s.put Reg.TBS_STATUS_PERIOD_NOW s.periodNow).fslowUpdate

/-! ### A pending step of device time (R337) -/

/-- Times that the model holds in device time and that measure durations move with a step, so that the step neither shortens nor lengthens
them (R425). -/
def State.shiftDevice (s : State) (d : Int) : State :=
  let mv := fun (t : Nat) => ((t : Int) + d).toNat
  { s with
    drl := { s.drl with
      theta := s.drl.theta.map (fun e => (e.1, (e.2.1, mv e.2.2))), eAt := mv s.drl.eAt, lastGate := s.drl.lastGate.map (fun e => (e.1, mv e.2)) }
    trk := { s.trk with tokenAt := mv s.trk.tokenAt }
    time := { s.time with ftachLast := s.time.ftachLast.map mv }
    vlv := { s.vlv with
      acts := s.vlv.acts.map (fun (a : Act) => ({ a with
        gate := a.gate + d, planned := a.planned + d, stop := a.stop + d, seen := a.seen + d, shares := a.shares.map (fun e => (e.1 + d, e.2)),
        release := a.release.map (fun r => r + d) } : Act))
      crossRel := s.vlv.crossRel.map (fun e => (e.1, e.2 + d))
      lsc := s.vlv.lsc.map (fun e => (e.1, (e.2.1, e.2.2 + d)))
      chop := s.vlv.chop.map (fun e => (e.1, e.2 + d))
      groupAt := s.vlv.groupAt.map (fun t => t + d)
      aux := s.vlv.aux.map (fun x => x.map (fun (a : Aux) => ({ a with gate := a.gate + d, release := a.release + d } : Aux))) } }

/-- Whether a pending step may be taken at this boundary. -/
def State.stepAllowed (s : State) : Bool :=
  s.flag Reg.PTP_STATUS_STEP_PENDING && (!s.admitting || s.flag Reg.CAL_STATUS_BLIND) && s.liveSlots.isEmpty && s.drl.fast.isEmpty

/-- TIME_STEPPED at a permitted boundary: also a history discontinuity. -/
def State.stepCheck (s : State) : State :=
  if s.stepAllowed then (s.stepTime.shiftDevice s.ptp.stepBy).discontinuity else s

/-! ### The boundary (R28) -/

/-- The roles of failed lanes move; a link that is lost there seals open sheaves with LINK, and a link that a READOUT reset has brought back
resumes field lines with a history discontinuity (R91, R92). -/
def State.linkBoundary (s : State) : State :=
  let before := s.linkLostNow
  let s := s.moveLanes
  let s := if s.linkLostNow ∧ !before then s.sealOpen Sf.link else s
  if s.rdo.waitLines ∧ !s.linkLostNow then
    let n := s.time.line
    ({ s with
      rdo := { s.rdo with waitLines := false, input := ⟨n, 0, 0, none, none, none⟩ }
      walk := { s.walk with nextField := n } }).discontinuity
  else s

/-- Readings of thermometers and references, swaps, gleaned updates, first readings and thermometer differences take effect. -/
def State.calBoundary (s : State) : State × Bool :=
  let s := s.thermBoundary.references
  let r := s.applySwaps
  let s := if r.2 then r.1.swapDone else r.1
  ((((s.applyGleaned r.2).firstReadings).substrate).swapProgress, r.2)

/-- The Aster, drill and Lupin sets transfer, but not while their function is being reset (R227, R236, R267, R447). -/
def State.setsBoundary (s : State) : State :=
  let s := if s.resetting 4 then s else (s.transfer inSetAst).put Reg.AST_STATUS_SET_PENDING 0
  let s := if s.resetting 5 then s else (s.transfer inSetDrl).put Reg.DRL_STATUS_SET_PENDING 0
  if s.resetting 6 then s else (s.transfer inSetVlv).put Reg.VLV_STATUS_SET_PENDING 0

/-- ADMISSION_START (R50): step 9 is complete at the boundary after the first accepted event. -/
def State.admissionStart (s : State) : State :=
  if s.trk.admitNext then { s.put Reg.CFG_PHASE_PHASE 6 with trk := { s.trk with admitNext := false } } else s

/-- VALVES_ENABLE (R51): ARM is asserted, step 9 complete, and the matrix not stopped (R281). -/
def State.valvesEnable (s : State) : State :=
  if s.pwr.arm && s.step9 && !s.flag Reg.VLV_STATUS_STOPPED && !s.flag Reg.VLV_STATUS_ENABLED then s.setEnabled true else s

/-- EXT_SYNC and LSYNC_PENDING (Table 17-7). -/
def State.syncBits (s : State) : State :=
  (s.putFlag Reg.TBS_STATUS_EXT_SYNC (s.flag Reg.TBS_CTRL_SYNC && !s.flag Reg.TBS_STATUS_LSYNC_LOST)).put Reg.TBS_STATUS_LSYNC_PENDING
    s.time.lsync.length

/-- Everything that takes effect as the current line begins. -/
def State.startLine (s : State) : State :=
  let s := { s with time := { s.time with lineTick := s.time.ticks }, rdo := { s.rdo with slot := 0 } }
  let s := ((s.keepFrames.linkBoundary).stepCheck).takePeriod
  let s := s.admissionStart
  let r := s.calBoundary
  let s := (r.1.beginEnv r.2).spareBoundary
  let s := (s.setsBoundary).valvesEnable
  (s.hotUpdate.calLine).syncBits

/-- The next line starts now. -/
def State.nextBoundary (s : State) : State := State.startLine { s with time := { s.time with line := s.time.line + 1 } }

/-- Line 0 starts now, and with it start-up step 7 (Table 2-8). -/
def State.lineZero (s : State) : State :=
  let s := State.startLine { s with
    time := { s.time with lines := true, line := 0 }
    rdo := { s.rdo with input := ⟨0, 0, 0, none, none, none⟩ }
    walk := { s.walk with nextField := 0, histFrom := 0 } }
  (s.put Reg.CFG_PHASE_PHASE 4).startScript 0 false

/-! ### The start of a line -/

/-- The period in force in ticks. -/
def State.periodTicks (s : State) : Nat := s.get Reg.TBS_STATUS_PERIOD_NOW

/-- Lines follow LSYNC now (R428). -/
def State.extSync (s : State) : Bool := s.flag Reg.TBS_CTRL_SYNC && !s.flag Reg.TBS_STATUS_LSYNC_LOST

/-- When the first pending pulse's line starts: the edge plus 200 ns, or the previous boundary plus P; line 0 has no previous boundary. -/
def State.pulseLine (s : State) : Option Nat :=
  s.time.lsync.head?.map (fun e => if s.time.lines then Nat.max (e + 20) (s.time.lineTick + s.periodTicks) else e + 20)

/-- The first pending pulse starts its line. -/
def State.takePulse (s : State) (t : Nat) : State :=
  let s := s.elapseTo t
  let s := { s with time := { s.time with lsync := s.time.lsync.drop 1 } }
  if s.time.lines then s.nextBoundary else s.lineZero

/-- LINE_BOUNDARY (R427, R428): P after the line before with internal sync or while LSYNC is lost; with external sync the line of the first
pending pulse, if there is one. -/
def execLineBoundary (s : State) : Host.Outcome State Fault Refusal :=
  .next (if !s.time.lines then s
    else if !s.extSync then (s.elapseTo (s.time.lineTick + s.periodTicks)).nextBoundary
    else match s.pulseLine with
      | some t => s.takePulse t
      | none => s)

/-- A pulse edge on the pin that owns LSYNC, with SYNC 1 (R56, R428, R432). -/
def State.lsyncEdge (s : State) : State :=
  if s.cfg.stage ≠ .running ∨ !s.ownsAll 4 ∨ !s.flag Reg.TBS_CTRL_SYNC then s
  else if 15 ≤ s.time.lsync.length then (s.overrun Reg.TBS_FLAGS_OVR_LSYNC 1).syncBits
  else
    let now := s.time.ticks
    let early := s.time.lines && decide (now + 20 < s.time.lineTick + s.periodTicks)
    let s := if early then s.bump Reg.TBS_LSYNC_EARLY 1 else s
    let s := { s.put Reg.TBS_STATUS_LSYNC_LOST 0 with time := { s.time with lsync := s.time.lsync ++ [now] } }
    match s.pulseLine with
    | some t => if t ≤ now + 20 then s.takePulse t else s.syncBits
    | none => s.syncBits

/-- LSYNC_PULSE, w ticks after the command before it (R428). -/
def execLsyncPulse (w : Nat) (s : State) : Host.Outcome State Fault Refusal := .next (s.elapse w).lsyncEdge

/-- LSYNC_LOST is set and told once, with the line that the JT4096 starts itself (R428; DEDUCED, log entry 53). -/
def State.loseLsync (s : State) (n : Nat) : State :=
  (((s.put Reg.TBS_STATUS_LSYNC_LOST 1).bump Reg.TBS_LSYNC_LOST_COUNT 1).put Reg.TBS_FLAGS_LOST_SEEN 1).emit 0x0A01 0 n

/-- When LSYNC is lost: LOST × P after the previous boundary (R428). -/
def State.lostAt (s : State) : Nat := s.time.lineTick + s.get Reg.TBS_CTRL_LOST * s.periodTicks

/-- No pending pulse starts a line by then. -/
def State.noPulseInTime (s : State) : Bool :=
  match s.pulseLine with
  | some t => decide (s.lostAt < t)
  | none => true

/-- LSYNC_LOST (R428): LOST × P after the previous boundary, and no pending pulse starts a line by then. -/
def execLsyncLost (s : State) : Host.Outcome State Fault Refusal :=
  .next (if s.time.lines ∧ s.extSync ∧ s.noPulseInTime then ((s.elapseTo s.lostAt).loseLsync (s.time.line + 1)).nextBoundary else s)

/-- LSYNC_START_TIMEOUT (R56): LOST × P after commit without a pulse, line 0 starts. -/
def execLsyncStartTimeout (s : State) : Host.Outcome State Fault Refusal :=
  .next (if s.cfg.stage = .running ∧ !s.time.lines ∧ s.time.lsync.isEmpty then
      ((s.elapseTo (s.time.commitTick + s.get Reg.TBS_CTRL_LOST * s.periodTicks)).loseLsync 0).lineZero
    else s)

/-- TBS_CMD CLR_COUNTERS: clears TBS_LSYNC (Table 17-7). -/
def State.clearTbs (s : State) : State := s.setWord Reg.TBS_LSYNC 0

/-- TBS_CLR_COUNTERS (Table 17-7). -/
def execTbsClrCounters (s : State) : Host.Outcome State Fault Refusal := .next (s.host Reg.TBS_CMD (some s.clearTbs))

/-- A write of ones to a W1C register clears those bits (R9). -/
def State.clearOnes (s : State) (a mask : Nat) : State :=
  let old := (s.word a).toNat
  s.setWord a (BitVec.ofNat 32 (old - (old &&& mask)))

/-- TBS_FLAGS_CLEAR (R432). -/
def execTbsFlagsClear (mask : Nat) (s : State) : Host.Outcome State Fault Refusal :=
  .next (s.host Reg.TBS_FLAGS (some (s.clearOnes Reg.TBS_FLAGS (mask % 16))))

end Sys2Proof.Machine
end

