-- ==== Sys2Proof/Machine/Commit.lean ====
section
/-!
DEFINITION. Commit (spec/02_configuration_and_startup.md R42, R49, R56, Table 2-8 step 6; spec/04_pixel_correction.md R103): every loaded value
takes effect, and the part runs.
-/
namespace Sys2Proof.Machine

/-! ### What the records load -/

/-- A register word at commit: RW and RWS fields; regions 8 to 11 and bytes of no furrow are discarded. -/
def State.loadReg (s : State) (p : Nat × Nat) : State :=
  let w := ((regRow p.1).map (fun r => r.merge (s.word p.1).toNat p.2)).getD p.2
  if Reg.PWR_REGION 8 ≤ p.1 ∧ p.1 < Reg.PWR_REGION 12 then s
  else if Reg.CAL_FTRIM 0 ≤ p.1 ∧ p.1 < Reg.CAL_FTRIM 1057 then s.setWord p.1 (BitVec.ofNat 32 (w &&& ftrimMask ((p.1 - Reg.CAL_FTRIM 0) / 4)))
  else s.setWord p.1 (BitVec.ofNat 32 w)

/-- A pixel record as it is kept: bits [7:4] of its flags, and no reserved word (Table 4-5). -/
def keptPixel (b : List Byte) : List Byte :=
  let f := ((b.drop 26).headD 0) &&& 0xF0
  b.take 26 ++ [f, 0] ++ leBytes 4 0

/-- Write pixel records from an address on. -/
def State.loadPixels (s : State) : Nat → Nat → List Byte → State
  | 0, _, _ => s
  | n + 1, a, b => (s.putBytes a (keptPixel (b.take 32))).loadPixels n (a + 32) (b.drop 32)

/-- The entries of a column-to-valve map record. -/
def State.loadMap (s : State) (first : Nat) (es : List Nat) : State :=
  { s with drl := { s.drl with map := (List.range es.length).foldl (fun m i => Map.insert m (first + i) (es.getD i 0)) s.drl.map } }

/-- What one record loads beside registers, in image order (R41). -/
def State.loadRecord (s : State) (r : ImageRecord) : State :=
  let u := word32 r.payload
  if r.type = 0x0002 then s.loadPixels (u 4) (bankBase 0 + 32 * u 0) (r.payload.drop 8)
  else if r.type = 0x0003 then s.putBytes (tableAddr 0) r.payload
  else if r.type = 0x0004 then (s.putBytes (progAddr 0 (u 0) 0) (r.payload.drop 8)).putBytes (progAddr 1 (u 0) 0) (r.payload.drop 8)
  else if r.type = 0x0005 then s.putBytes (dataAddr (u 0)) (r.payload.drop 4)
  else if r.type = 0x0006 then { s with cal := { s.cal with lens := s.cal.lens.set (u 0) (u 4) } }
  else if r.type = 0x0008 then s.loadMap (u 0) (halfList (r.payload.drop 8) (u 4))
  else s

/-- COEFFICIENT_BANK_COPY (R103): bank 0 and table copy 0 into bank 1 and table copy 1. -/
def State.copyImage (s : State) : State :=
  (s.putBytes (bankBase 1) (Memory.bytes s.mem (bankBase 0) 0x30C040)).putBytes (tableAddr 1) (Memory.bytes s.mem (tableAddr 0) 4096)

/-- Every value of the image in force. -/
def State.loadImage (s : State) : State :=
  let regs := s.cfg.regs
  let records := s.cfg.records
  (records.foldl State.loadRecord (regs.foldl State.loadReg s)).copyImage

/-! ### The part runs -/

/-- The functions take up their configuration: bias, walk speed and lag table, token bucket, record port, times. Every lane of the sensor
link holds block lock, until BLOCK_LOCK_LOST tells otherwise (DEDUCED, log entry 55). -/
def State.takeUp (s : State) : State :=
  let s := s.takePeriod
  let s := { s with
    rdo := { s.rdo with biasMv := s.get Reg.RDO_BIAS_BIAS_MV, lanes := List.replicate 4 { LinkLane.reset with lock := true } }
    walk := { s.walk with
      nu := (s.get Reg.COR_WALK_VEL_NOM_VEL : Rat) / (256 * s.periodUs), inUse := s.tableWanted }
    trk := { s.trk with tokens := (s.get Reg.TRK_BURST_BURST : Rat), tokenAt := s.now }
    drl := { s.drl with eAt := s.now }
    vlv := { s.vlv with idleSince := s.time.ticks }
    time := { s.time with commitTick := s.time.ticks }
    cfg := { s.cfg with stage := .running, records := [], regs := [] } }
  let s := (s.linkUpdate.layoutUpdate.put Reg.COR_LAG_DEPTH_IN_USE s.walk.inUse.1).put Reg.ETH_STATUS_REC_PORT (s.get (Reg.ETH_S_CTRL_PORT 2))
  let s := s.watchPort (s.get (Reg.ETH_S_CTRL_PORT 2))
  if s.recordStreamOn then s.arm Timer.noRecord (msTicks 100) else s

/-- What runs by the clock from commit on: the intervals of the self-tests too (R232; log entry 84); the second without a reading of R72 runs from here at the earliest (DEDUCED, log entry 43). -/
def State.armTimers (s : State) : State :=
  let s := ((s.arm Timer.countPeriod (msTicks (1000 * s.get Reg.KEP_CTRL_COUNT_PERIOD))).arm Timer.minute (msTicks 60000)).arm Timer.vcore (msTicks 1)
  let s := ((s.arm Timer.throttle (msTicks 1)).arm Timer.ballast (usTicks 100)).arm Timer.settling (msTicks 1000)
  let s := (List.range 16).foldl (fun t e => t.arm (Timer.selftest e) (msTicks 100)) s
  (List.range 8).foldl (fun t k => t.arm (Timer.thermStale k) (msTicks 1000)) s

/-- Step 6 (Table 2-8): lanes, engines, detection, walk, drill and matrix are ON; the alive expectation is any (R354); SETTLING is set (R52).
CFG_LOAD_TIME is rounded down to whole microseconds (DESIGN CHOICE, log entry 94). -/
def State.commit (s : State) : State :=
  let s := s.elapseTo (msTicks 240)
  let s := (s.setDomains (List.range 25 ++ [31, 32]) 2).loadImage
  let s := ((s.put Reg.CFG_STATUS_SLOT_USED (s.cfg.slot + 1)).put Reg.CFG_STATUS_SETTLING 1).put Reg.MPT_STATUS_EXPECT_ANY 1
  let s := s.setWord Reg.CFG_LOAD_TIME (BitVec.ofNat 32 (s.time.ticks / 100 - 40000))
  let s := ((s.takeUp).hkcCommit).armTimers
  if s.flag Reg.TBS_CTRL_SYNC then s.syncBits else s.lineZero

/-- COMMIT (R49): once an image is accepted. -/
def execCommit (s : State) : Host.Outcome State Fault Refusal := .next (if s.cfg.stage = .accepted then s.commit else s)

end Sys2Proof.Machine
end

