-- ==== Sys2Proof/Machine/Nvme.lean ====
section
/-!
DEFINITION. The answers of the drive (spec/11_records_archive.md R300–R306): identification, queues, label, search, and completed writes.
-/
namespace Sys2Proof.Machine

/-- Admin commands run: the drive is being enumerated and the controller is ready (Table 11-11 step 3). -/
def State.enumerating (s : State) : Bool := decide (s.get Reg.NVH_STATUS_DRIVE = 2) && s.nvh.outstanding

/-- Identify: an unsupported drive stays out (R305); else its usable capacity is held, 16 TiB at most (R299), and the features are set. -/
def State.identified (s : State) (present : Bool) (lba metadata : Nat) (nvm : Bool) (blocks : Nat) : State :=
  if !present ∨ (lba ≠ 512 ∧ lba ≠ 4096) ∨ metadata ≠ 0 ∨ !nvm then
    let s := (s.put Reg.NVH_STATUS_DRIVE 5).sendAll []
    (({ s with nvh := { s.nvh with outstanding := false } }).archiveUpdate).dropWrites.freeSlots
  else
    let s := ((s.setPair Reg.NVH_CAP_LO (Nat.min blocks (2 ^ 32))).putFlag Reg.NVH_LINK_LBA_512 (decide (lba = 512))).layoutUpdate
    s.sendAll s.featureCmds

/-- Set Features is answered: the pairs granted, four at most, get their queues (R306, Table 11-10). -/
def State.granted (s : State) (n : Nat) : State :=
  let s := s.put Reg.NVH_LINK_QUEUES (Nat.min n 4)
  s.sendAll (s.createCmds (Nat.min n 4))

/-- The oldest command that is outstanding is complete; once the queues stand, the label is read (Table 11-11 step 4). -/
def State.commandDone (s : State) : State :=
  match s.nvh.cmds with
  | [] => s
  | c :: rest => if s.enumerating ∧ rest = [] ∧ c.queue = 0 ∧ c.opcode = 0x01 then s.sendAll [s.labelCmd 2] else s.sendAll rest

/-! ### The binary search (R302) -/

/-- MAGIC and the length that the CRC of an entry covers, with the place of that CRC (Table 11-5, R295, R316; a snapshot's length by its
TYPE). -/
def entryForm (k : Nat) (b : List Byte) : Nat × Nat × Nat :=
  if k = 1 then (0x4254524A, 12288, 0x3C)
  else if k = 2 then (0x4E4C524A, 12288, 0x3C)
  else (0x5343524A, 4096 * (if leNat ((b.drop 6).take 2) = 3 then 65 else 783), 0xFFC)

/-- The position field of a valid entry of regions 1 to 3: MAGIC, VER and CRC are right. -/
def entryPos (k : Nat) (b : List Byte) : Option Nat :=
  let (magic, len, at_) := entryForm k b
  let b := b.take len
  if decide (leNat (b.take 4) = magic ∧ leNat ((b.drop 4).take 2) = 1 ∧ b.length = len) &&
      decide (leNat ((b.drop at_).take 4) = (crc32 (b.take at_ ++ leBytes 4 0 ++ b.drop (at_ + 4))).toNat) then
    some (leNat ((b.drop 8).take 8))
  else none

/-- The EPOS of entry i of an event block, where an event stands: its CODE is not zero (Table 12-6; log entry 90). -/
def eventPos (b : List Byte) (i : Nat) : Option Nat :=
  let e := (b.drop (32 * i)).take 32
  if e.length = 32 ∧ leNat ((e.drop 16).take 2) ≠ 0 then some (leNat (e.take 8)) else none

/-- Where a search stands: the entry or block `lo` is the newest valid one found, `hi` lies past it; both count places of the region. -/
structure Search where
  lo   : Nat
  hi   : Nat
  best : Nat
  data : List Byte
  deriving DecidableEq, Repr

/-- Halve the range until one place is left: a place belongs to the newest pass when its entry is valid and no older than that of place 0.
None when the drive has answered too few reads. -/
def searchOn (pos : List Byte → Option Nat) (base : Nat) : Nat → Search → List (List Byte) → Option (Search × List (List Byte))
  | 0, f, ps => some (f, ps)
  | k + 1, f, ps =>
    if f.hi ≤ f.lo + 1 then some (f, ps)
    else match ps with
      | [] => none
      | b :: rest =>
        let mid := (f.lo + f.hi) / 2
        match pos b with
        | some p => if base ≤ p then searchOn pos base k ⟨mid, f.hi, p, b⟩ rest else searchOn pos base k { f with hi := mid } rest
        | none => searchOn pos base k { f with hi := mid } rest

/-- The search of a region of n places: none found when place 0 holds nothing valid (log entry 90). -/
def searchRegion (pos : List Byte → Option Nat) (n : Nat) : List (List Byte) → Option (Option Search × List (List Byte))
  | [] => if n = 0 then some (none, []) else none
  | b :: rest =>
    if n = 0 then some (none, b :: rest)
    else match pos b with
      | none => some (none, rest)
      | some p => (searchOn pos p 64 ⟨0, n, p, b⟩ rest).map (fun r => (some r.1, r.2))

/-- The whole entries or blocks of region k. -/
def State.places (s : State) (k : Nat) : Nat := if s.regionUsed k then 2 ^ s.regionLog k / [1, 3, 3, 1024, 1].getD k 1 else 0

/-- How many entries from the start of an event block follow on from the first: each later than the one before. -/
def eventRun (b : List Byte) : Nat → Nat → Nat
  | 0, i => i
  | k + 1, i =>
    match eventPos b (i - 1), eventPos b i with
    | some x, some y => if x < y then eventRun b k (i + 1) else i
    | _, _ => i

/-- The next positions of regions 1 to 4, and what the block of the next event already holds. -/
def State.search (s : State) (probes : List (List Byte)) : Option (Nat × Nat × Nat × Nat × List Byte) := do
  let a ← searchRegion (entryPos 1) (s.places 1) probes
  let b ← searchRegion (entryPos 2) (s.places 2) a.2
  let c ← searchRegion (entryPos 3) (s.places 3) b.2
  let d ← searchRegion (fun x => eventPos x 0) (s.places 4) c.2
  let next := fun (r : Option Search) => ((r.map (fun f => f.best + 1)).getD 0)
  let e : Nat × List Byte := match d.1 with
    | none => (0, [])
    | some f =>
      let n := eventRun f.data 127 1
      (128 * f.lo + n, if n = 128 then [] else f.data.take (32 * n))
  pure (next a.1, next b.1, next c.1, e.1, e.2)

/-- A staged thumbnail or line entry at another position (Tables 11-5, R295: position at byte 8, CRC at 0x3C). -/
def atPosition (b : List Byte) (pos : Nat) : List Byte :=
  let c := b.take 8 ++ leBytes 8 pos ++ (b.drop 16).take 44
  let rest := b.drop 64
  c ++ leBytes 4 (crc32 (c ++ leBytes 4 0 ++ rest)).toNat ++ rest

/-- What waits for a region goes to the positions from the one found on (R302); the answer is also the next position. -/
def State.renumber (s : State) (ch : Nat) (pos : Nat) : List DriveWrite → List DriveWrite × Nat
  | [] => ([], pos)
  | w :: ws =>
    if w.channel = ch then
      let r := s.renumber ch (pos + 1) ws
      ({ w with block := s.entryBlock ch 3 pos, bytes := atPosition w.bytes pos } :: r.1, r.2)
    else
      let r := s.renumber ch pos ws
      (w :: r.1, r.2)

/-- The searches of R302 are over: archiving continues at the positions found, and the drive is ready. -/
def State.searchDone (s : State) (tpos lpos spos epos : Nat) (block : List Byte) : State :=
  let a := s.renumber 1 tpos s.nvh.writes
  let b := s.renumber 2 lpos a.1
  ({ s with nvh := { s.nvh with
    searched := true, writes := b.1, tposNext := a.2, lposNext := b.2, sposNext := spos, eposBlock := epos, evBytes := block } }).driveReady

/-- The oldest write of a data channel is complete, or one write of events is (R303). -/
def State.written (s : State) (ch : Nat) : State :=
  if !s.flag Reg.NVH_STATUS_ARCHIVING ∨ 2 ≤ s.chState ch ∨ s.resetting 8 then s
  else
    let s :=
      if ch = 3 then
        (if s.eth.eventsOut.isEmpty ∨ !s.regionUsed 4 then s
         else s.writeEvents ((s.eth.eventsOut.take s.eventBatch).flatMap eventBytes))
      else match takeWrite ch s.nvh.writes with
        | none => s
        | some (w, rest) => ({ s with nvh := { s.nvh with writes := rest } }).writeDone w
    if ch = 3 then (s.disarm Timer.eventWrite).issue else s

/-- NVME_COMMAND_COMPLETE (R303, R300, R305, R306). -/
def execNvmeCommandComplete (a : NvmeAnswer) (s : State) : Host.Outcome State Fault Refusal :=
  .next (match a with
    | .identify present lba metadata nvm blocks => if s.enumerating then s.identified present lba metadata nvm blocks else s
    | .queues n => if s.enumerating then s.granted n else s
    | .label bytes => if s.enumerating then s.labelCheck bytes else s
    | .search probes =>
      (match s.search probes with
        | some (tpos, lpos, spos, epos, block) => if s.enumerating ∧ s.nvh.labelOk then s.searchDone tpos lpos spos epos block else s
        | none => s)
    | .written channel => if channel < 4 then s.written channel else s
    | .done => s.commandDone)

end Sys2Proof.Machine
end

