-- ==== Sys2Proof/Machine/Dma.lean ====
section
/-!
DEFINITION. The channels of the archive engine (spec/11_records_archive.md R308–R317): START, PAUSE, RESUME and ABORT in DMA_CHn_CTRL, the
hand-over of data channels, bus errors, and the contents of snapshots.
-/
namespace Sys2Proof.Machine

/-! ### START (R309, R310, R315) -/

/-- The working copy that the pending set of a channel makes. -/
def State.pendingChannel (s : State) (n : Nat) : Channel :=
  let src := (s.pendingWord (Reg.DMA_CH_SRC_LO n)).toNat + (s.pendingWord (Reg.DMA_CH_SRC_HI n)).toNat * 2 ^ 32
  let dst := (s.pendingWord (Reg.DMA_CH_DST_LO n)).toNat + (s.pendingWord (Reg.DMA_CH_DST_HI n)).toNat * 2 ^ 32
  { Channel.reset with
    src := src, dst := dst, srcBase := src, dstBase := dst, left := s.pendGet (Reg.DMA_CH_COUNT_COUNT n)
    mode := (s.pendingWord (Reg.DMA_CH_MODE n)).toNat, fill := (s.pendingWord (Reg.DMA_CH_FILL n)).toNat }

/-- START in DMA_CHn_CTRL: REFUSED on a data channel, for a channel that is at work or queued, and where sizes or alignment do not fit
(R310). The set transfers at START (R315). -/
def State.hostDmaStart (s : State) (n : Nat) : Option State :=
  let c := s.pendingChannel n
  allow (decide (4 ≤ n ∧ n < 8 ∧ s.chState n = 0 ∧ n ∉ s.dma.queue) &&
    decide (c.left * c.srcW % c.dstW = 0 ∧ c.src % c.srcW = 0 ∧ c.dst % c.dstW = 0))
    ((s.transfer (inSetDma n)).startMaint n c)

/-! ### PAUSE, RESUME, ABORT (R313, R314) -/

/-- A channel that stops before its next unit reads PAUSED. -/
def State.pauseChannel (s : State) (n : Nat) : State :=
  if s.chState n = 1 ∨ (n < 4 ∧ s.chState n = 0) then ((s.put (Reg.DMA_CH_STATUS_STATE n) 2).dmaBits.issue).maintWait else s

/-- A paused channel continues, and a halted one retries its failed unit. -/
def State.resumeChannel (s : State) (n : Nat) : State :=
  if s.chState n < 2 then s
  else
    let s := (s.put (Reg.DMA_CH_STATUS_ERR n) 0).put (Reg.DMA_CH_STATUS_RETRIES n) 0
    let s := (s.put (Reg.DMA_CH_STATUS_STATE n) (if n < 4 then 0 else 1)).dmaBits
    ((s.outageOver).issue).maintWait

/-- A maintenance transfer is over; the next waiting one starts. -/
def State.endTransfer (s : State) (n : Nat) : State := ((s.put (Reg.DMA_CH_STATUS_STATE n) 0).dmaBits.maintWait).nextMaint

/-- ABORT ends a maintenance transfer, a queued one included. -/
def State.abortChannel (s : State) (n : Nat) : State :=
  if n < 4 then s
  else if n ∈ s.dma.queue then
    { s.put (Reg.DMA_CH_STATUS_QUEUED n) 0 with dma := { s.dma with queue := s.dma.queue.filter (fun m => decide (m ≠ n)) } }
  else if s.chState n = 0 then s
  else s.endTransfer n

/-- A write of DMA_CHn_CTRL, each action judged on its own (R357). -/
def State.hostDmaCtrl (s : State) (n w : Nat) : State × Bool :=
  let r := thenAct (s, false) (bit w 0) (fun t => t.hostDmaStart n)
  let r := thenAct r (bit w 1) (fun t => some (t.pauseChannel n))
  let r := thenAct r (bit w 2) (fun t => some (t.resumeChannel n))
  thenAct r (bit w 3) (fun t => some (t.abortChannel n))

/-- START (R310). -/
def execDmaStart (n : Nat) (s : State) : Host.Outcome State Fault Refusal :=
  if 8 ≤ n then .fault .noSuchPart else .next (s.hostDone (Reg.DMA_CH_CTRL n) (s.hostDmaCtrl n 1))

/-- CHANNEL_RESUME (R313, R314). -/
def execChannelResume (n : Nat) (s : State) : Host.Outcome State Fault Refusal :=
  if 8 ≤ n then .fault .noSuchPart else .next (s.hostDone (Reg.DMA_CH_CTRL n) (s.hostDmaCtrl n 4))

/-! ### The sets of data channels (R315) -/

/-- Whether a write to a register of a data channel's set changes a field other than RETRY, and is REFUSED. -/
def State.dataSetRefuses (s : State) (n a w : Nat) : Bool :=
  decide (n < 4) && (if a = Reg.DMA_CH_MODE n then
    decide (((regRow a).map (fun r => r.merge (s.pendingWord a).toNat w)).getD w ≠
      ((Reg.DMA_CH_MODE_RETRY n).into (s.pendingWord a) ((Reg.DMA_CH_MODE_RETRY n).of (BitVec.ofNat 32 w))).toNat)
    else true)

/-- DATA_CHANNEL_HANDOVER (R315): the next millisecond boundary of device time. -/
def execDataChannelHandover (n : Nat) (s : State) : Host.Outcome State Fault Refusal :=
  if 8 ≤ n then .fault .noSuchPart
  else .next (if n < 4 ∧ s.setWaits (inSetDma n) ∧ !s.resetting 8 then
      (s.elapseDev (((s.now / 1000000 + 1) * 1000000 : Nat) : Int)).transfer (inSetDma n)
    else s)

/-! ### What waits in staging (R309, Table 11-15) -/

/-- Data that wait for a data channel, and the capacity of its staging (R296). -/
def State.dataWaiting (s : State) (n : Nat) : Nat := if n = 3 then s.eth.eventsOut.length else s.slotsUsed n
def State.stagingFill (s : State) (n : Nat) : Nat :=
  if n = 0 then 100 * (s.stg.nextRpos - s.stg.freed) / 32768
  else if n = 1 then 100 * s.slotsUsed 1 / 128
  else if n = 2 then 100 * s.slotsUsed 2 / 40
  else 100 * s.eth.eventsOut.length / Nat.max 32 Config.eventCapacity

/-- STATE of a channel as its register shows it: a data channel runs while its staging holds data and the drive takes them. -/
def State.chShown (s : State) (n : Nat) : Nat :=
  if n < 4 ∧ s.chState n < 2 then (if 0 < s.dataWaiting n ∧ s.flag Reg.NVH_STATUS_ARCHIVING then 1 else 0) else s.chState n

/-! ### Bus errors (R314) -/

/-- A channel halts: its error code, DMA_HALT and ALERT_N. -/
def State.haltChannel (s : State) (n code : Nat) (source : Nat) : State :=
  let s := (((s.put (Reg.DMA_CH_STATUS_STATE n) 3).put (Reg.DMA_CH_STATUS_ERR n) code).setWord (Reg.DMA_CH_ERROR n) (BitVec.ofNat 32 source)).dmaBits
  let s := ((s.put Reg.MPT_ALERT_DMA_HALT 1).issue.maintWait).emit 0x0705 n code
  if n = 0 then s.dropWrites.freeSlots else s

/-- One bus error: retried while RETRIES stands below RETRY, else the channel halts. -/
def State.oneBusError (s : State) (n code source : Nat) : State :=
  if s.get (Reg.DMA_CH_STATUS_RETRIES n) < s.get (Reg.DMA_CH_MODE_RETRY n) then s.bump (Reg.DMA_CH_STATUS_RETRIES n) 1
  else s.haltChannel n code source

/-- An error that every retry meets again. -/
def State.lastingError (s : State) (n code source : Nat) : State :=
  (s.put (Reg.DMA_CH_STATUS_RETRIES n) (s.get (Reg.DMA_CH_MODE_RETRY n))).haltChannel n code source

/-! ### Completion (R312) -/

/-- A W1C write to DMA_IRQ (R312). -/
def execDmaIrqClear (mask : Nat) (s : State) : Host.Outcome State Fault Refusal :=
  .next (s.host Reg.DMA_IRQ (some (s.clearOnes Reg.DMA_IRQ (mask % 256))))

/-- A maintenance channel completes: its DMA_IRQ bit, and the next waiting transfer. -/
def State.completeMaint (s : State) (n : Nat) : State :=
  (s.channelDone n (s.get (Reg.DMA_CH_PROGRESS_DONE n))).endTransfer n

/-! ### Snapshots (R316, R317) -/

/-- The type of the snapshot that a channel writes: 1 automatic, 2 a host bank save, 3 a keep-store image; 0 for another transfer. -/
def Channel.snapshotType (c : Channel) (n : Nat) : Nat :=
  if n = 5 ∧ c.auto then 1
  else if n = 4 ∧ c.dstDrive ∧ c.op = 0 then 2
  else if n = 6 ∧ c.dstDrive ∧ c.op = 0 then 3
  else 0

/-- The words of the keep store, numbered from its start, that the engine meets as uncorrectable (true) or corrects (false) while it reads them
(R366, R383). -/
def State.keepErrors (s : State) (unc : Bool) : List Nat :=
  (List.range 32768).filter (fun w => decide (Config.readError s.free (0x04000000 / 8 + w) = some unc))
def State.keepBad (s : State) : List Nat := s.keepErrors true

/-- The blocks of a snapshot after block 0: pixel records, bank header and active radiometric table; or the keep store. -/
def State.snapshotBody (s : State) (type bank : Nat) : List Byte :=
  if type = 3 then Memory.bytes (dropWords s.mem s.keepBad) 0x04000000 0x40000
  else Memory.bytes s.mem (bankBase bank) (780 * 4096) ++ Memory.bytes s.mem (headerAddr bank) 4096 ++
    Memory.bytes s.mem (tableAddr s.activeTable) 4096

/-- A snapshot (R316): EVENT_LINE is that of its bank; the CRC covers the whole snapshot with the CRC field taken as zero. -/
def State.snapshotBytes (s : State) (type bank spos : Nat) : List Byte :=
  let head := leBytes 4 0x5343524A ++ leBytes 2 1 ++ leBytes 2 type ++ leBytes 8 spos ++ leBytes 8 s.now ++
    Memory.bytes s.mem (headerAddr bank + 0x28) 8 ++ leBytes 32 0 ++
    [Reg.CAL_QUAL_RMS, Reg.CAL_QUAL_PEAK, Reg.CAL_QUAL_NOISE, Reg.CAL_QUAL_INFO].flatMap (fun a => leBytes 4 (s.word a).toNat) ++ leBytes 4012 0
  let body := s.snapshotBody type bank
  head ++ leBytes 4 (crc32 (head ++ leBytes 4 0 ++ body)).toNat ++ body

/-- Write a snapshot at the next position of region 3, and complete. -/
def State.writeSnapshot (s : State) (n type : Nat) : State :=
  let bank := if type = 1 then (s.channel n).bank else s.activeBank
  let spos := s.nvh.sposNext
  let b := s.snapshotBytes type bank spos
  let s := { s with nvh := { s.nvh with sposNext := spos + 1, outDrive := [s.archiveWrite n (s.entryBlock 3 1024 spos) b] } }
  let s := if type = 3 then ((s.keepBad.foldl State.keepUncorr s).bump Reg.KEP_ERRORS_CORRECTED (s.keepErrors false).length).draw else s
  (s.put (Reg.DMA_CH_PROGRESS_DONE n) (b.length / 4)).completeMaint n

/-! ### The reset of the archive engine (R446) -/

/-- A running maintenance transfer ends as under ABORT, and the data channels restart from staging. -/
def State.archiveReset (s : State) : State :=
  let s := (List.range 4).foldl (fun t n => ((t.put (Reg.DMA_CH_STATUS_STATE n) 0).put (Reg.DMA_CH_STATUS_ERR n) 0).put
    (Reg.DMA_CH_STATUS_RETRIES n) 0) s
  (([4, 5, 6, 7].foldl (fun t n => if n ∈ s.dma.queue then t else t.abortChannel n) s).dmaBits.outageOver).issue

/-! ### What the drive has been sent (Table 11-10) -/

/-- The command of a maintenance transfer: a Read or a Write of region 3, with FUA under BARRIER. -/
def State.maintCmd (s : State) (n due : Nat) : NvmeCmd :=
  let c := s.channel n
  let type := c.snapshotType n
  let b := if type ≠ 0 then s.entryBlock 3 1024 s.nvh.sposNext else s.regionStart 3 + (if c.srcDrive then c.src else c.dst) / 4096
  ⟨s.pairOf n, if c.srcDrive then 0x02 else 0x01, 0, s.lbas b, s.lbas (if type = 0 then 1 else if type = 3 then 65 else 783),
    !c.srcDrive && bit c.mode 2, due⟩

/-- Every NVMe command that is outstanding: those of bring-up and FORMAT, the archive writes of channels 0 to 3, the maintenance transfer's, and
Get Log Page once the poll is due. -/
def State.nvmeCommands (s : State) : List NvmeCmd :=
  s.nvh.cmds ++
  s.nvh.writes.filterMap (fun w => w.due.map (fun d =>
    ⟨s.pairOf w.channel, 0x01, 0, s.lbas w.block, s.lbas (w.bytes.length / 4096), w.fua, d⟩)) ++
  (s.due Timer.eventWrite).toList.map (fun d =>
    ⟨s.pairOf 3, 0x01, 0, s.lbas s.eventBlock, s.lbas 1, s.flag (Reg.DMA_CH_MODE_BARRIER 3), d⟩) ++
  (s.due Timer.maintIo).toList.flatMap (fun d => ([4, 5, 6, 7].filter (fun n => decide (s.chState n = 1))).map (fun n => s.maintCmd n d)) ++
  (s.due Timer.smart).toList.filterMap (fun t =>
    if t ≤ s.time.ticks then some ⟨0, 0x02, 2, 0, 0, false, t + msTicks (s.get Reg.NVH_TIMEOUT_CMD_MS)⟩ else none)

end Sys2Proof.Machine
end

