-- ==== Sys2Proof/Machine/Field.lean ====
section
/-!
DEFINITION. A field line as a whole (spec/05_lag_and_row_walk.md R130, R133–R138; spec/07_sheaf_tracking.md R206): sheaf walk and fill,
the line's archive entry, and the completion of a sheaf's image.
-/
namespace Sys2Proof.Machine

/-! ### Sheaf walk (R133–R137) -/

/-- Flags that set the marker bit (R135). -/
def markerFlags : Nat := Pf.rowsShort + Pf.interp + Pf.filled

/-- One walked pixel (R134, R135): S16 value, marker, and its flags, those of the field-line entry with the bits that the walk sets. -/
def State.walkedPixel (s : State) (e : LineEnv) (ctx : Ctx) (rs : List (Option (Nat × Nat))) (c : Nat) : Int × Bool × Nat :=
  let m := s.walkMean e rs c
  let used := e.named.filterMap (fun r => s.rowValue r c (rs.getD r none))
  let samples := used.foldl (fun a v => a ||| v.2) 0
  let own := (if m.2.2 then Pf.rowsShort else 0) ||| (if m.1.isNone then Pf.rowsShort ||| Pf.interp else 0) ||| (if ctx.velClamp then Pf.velClamp else 0)
  let f := samples ||| own
  let bg := Map.find s.trk.bg c
  let v := match m.1 with
    | some v => v
    | none => match if e.line = 0 then none else s.ringEntry (e.line - 1) c with
      | some p => p.value
      | none => bg.getD 0
  let field := match s.ringEntry e.line c with
    | some p => p.flags
    | none => 0
  (match bg with
    | some b => s16 v b
    | none => 0, anyFlag f markerFlags || bg.isNone, field ||| (f / 4096 * 4096))

/-- Whether a sheaf holds the tile of a field line and column. -/
def Sheaf.holds (x : Sheaf) (line c : Nat) : Bool :=
  decide (x.ctx.winLeft ≤ c ∧ c < x.ctx.winLeft + 512) && x.tiles.any (fun t => decide (t.1 = x.ctx.tile line c))

/-- Columns that a line's sheaf walk covers (R137): 16,384 at 100 µs, in proportion at longer periods. -/
def walkCapacity (period : Nat) : Nat := 16384 * period / 10000

/-- The columns of a sheaf's walked window in their order: the box, then the margins (R134, R137). -/
def Ctx.walkColumns (c : Ctx) (margin : Nat) : List Nat :=
  let l := c.left - margin
  let r := Nat.min 4095 (c.right + margin)
  (List.range (c.right + 1 - c.left)).map (fun i => c.left + i) ++ (List.range (c.left - l)).map (fun i => l + i) ++
    (List.range (r - c.right)).map (fun i => c.right + 1 + i)

/-- One sheaf is walked with the capacity left; a value without a tile is discarded (R204). -/
def State.walkSheaf (s : State) (e : LineEnv) (cap : Nat) (x : Sheaf) : State × Nat :=
  let n := e.line
  let cols := (x.ctx.walkColumns (s.get Reg.COR_SHEAF_WALK_MARGIN)).take cap
  let rs := s.routes n x.ctx.walkNu
  let img := (cols.filter (fun c => x.holds n c)).foldl (fun m c => Map.insert m (imgKey n c) (s.walkedPixel e x.ctx rs c)) x.img
  (s.putSheaf { x with img := img }, cap - cols.length)

/-- SHEAF_WALK: the open sheaves in order of admission. -/
def State.sheafWalk (s : State) (e : LineEnv) : State :=
  (s.openSheaves.foldl (fun (t : State × Nat) x => t.1.walkSheaf e t.2 x) (s, walkCapacity e.period)).1

/-- A box pixel that was not walked (R136): the nominal value while its field line is in the ring, else 0; VEL_CLAMP marks every pixel of
a clamped sheaf's image (R133). -/
def State.fillPixel (s : State) (ctx : Ctx) (line c : Nat) : Int × Bool × Nat :=
  let own := Pf.filled ||| (if ctx.velClamp then Pf.velClamp else 0)
  match s.ringEntry line c with
  | some p => (match p.bg with
    | some b => s16 p.value b
    | none => 0, true, p.flags ||| own)
  | none => (0, true, own)

/-- Fill what the box of a sheaf holds and the walk did not give. -/
def State.fillSheaf (s : State) (x : Sheaf) : State :=
  let cells := (List.range (x.ctx.lastLine + 1 - x.ctx.openLine)).flatMap (fun i =>
    (List.range (x.ctx.right + 1 - x.ctx.left)).map (fun k => (x.ctx.openLine + i, x.ctx.left + k)))
  let todo := cells.filter (fun p => (Map.find x.img (imgKey p.1 p.2)).isNone && x.holds p.1 p.2)
  let img := todo.foldl (fun m p => Map.insert m (imgKey p.1 p.2) (s.fillPixel x.ctx p.1 p.2)) x.img
  (s.putSheaf { x with img := img }).bump Reg.COR_WALK_FILLED_COUNT todo.length

/-- Fill the boxes of all open sheaves. -/
def State.fillSheaves (s : State) : State := s.openSheaves.foldl (fun t x => t.fillSheaf x) s

/-! ### The line's archive entry (R295) -/

/-- The 12,288 bytes of a line entry. -/
def lineEntry (lpos line time flags : Nat) (codes : List Nat) : List Byte :=
  let head := leBytes 4 0x4E4C524A ++ leBytes 2 1 ++ leBytes 2 0 ++ leBytes 8 lpos ++ leBytes 8 line ++ leBytes 8 time ++ leBytes 2 flags ++
    List.replicate 26 0
  let body := List.replicate 4032 0 ++ codes.flatMap (fun c => leBytes 2 c)
  head ++ leBytes 4 (crc32 (head ++ leBytes 4 0 ++ body)).toNat ++ body

/-- LINE_ENTRY_ARCHIVE: field line n is staged when its number is a multiple of LINE_DECIM, or skipped. -/
def State.archiveLine (s : State) (e : LineEnv) : State :=
  let d := s.get Reg.NVH_SELECT_LINE_DECIM
  if d = 0 ∨ e.line % d ≠ 0 then s
  else if e.line ∉ s.walk.formed ∨ 40 ≤ s.slotsUsed 2 then s.bump Reg.NVH_DROPS_LINES_SKIPPED 1
  else
    let px := (List.range 4096).map (fun c => (s.ringEntry e.line c).getD ⟨0, 0, 0, none⟩)
    let lpos := s.nvh.lposNext
    let t := { s with nvh := { s.nvh with lposNext := lpos + 1 } }
    if s.regionIdle 2 then t
    else t.queueWrite (s.archiveWrite 2 (s.entryBlock 2 3 lpos)
      (lineEntry lpos e.line (e.start / 2 ^ 32) (px.foldl (fun a p => a ||| p.flags) 0) (px.map (fun p => t16 p.value))))

/-! ### FIELD_LINE_COMPLETE -/

/-- How late field line n is after the boundary of line n + 1 (Table 5-15). -/
def State.fieldLate (s : State) (n : Nat) : State :=
  let t := if n < s.time.line then s.time.ticks - s.time.lineTick else 0
  if s.get Reg.COR_WALK_LATE_FIELD_LATE < t then s.putSat Reg.COR_WALK_LATE_FIELD_LATE t else s

/-- FIELD_LINE_APPLY (R206, Table 7-8): detection, sheaf walk, natural seals, background update. -/
def State.applyField (s : State) (e : LineEnv) : State :=
  let n := e.line
  let px := (List.range 4096).filterMap (fun c => (s.ringEntry n c).map (fun p => (c, p)))
  let cls := px.map (fun x => (x.1, s.pixelClass x.1 x.2))
  let core := cls.any (fun x => decide (x.2 = 2 ∨ x.2 = -2))
  let bad := (px.zip cls).filterMap (fun x =>
    if x.2.2 = 2 ∨ x.2.2 = -2 ∨ anyFlag x.1.2.flags (Pf.sat + Pf.lost + Pf.clamp + Pf.range + Pf.interp) then some x.1.1 else none)
  let s := { s with
    trk := { s.trk with
      bgUsed := s.trk.bg, marks := (n, bad) :: s.trk.marks.filter (fun m => decide (n < m.1 + 64))
      boxes := s.trk.boxes.filter (fun b => decide (n < b.2.1 + 64)) }
    cal := { s.cal with fieldBad := if core then some n else s.cal.fieldBad } }
  let s := s.bgStep (cls.filter (fun x => decide (x.2 ≠ 0))).length
  let rs := s.runsOf cls
  let q := s.longSeals n rs
  let gone := q.1.discards n q.2 rs
  let s := q.1.applyRuns e q.2 rs
  let s := (s.sheafWalk e).fillSheaves
  let s := s.naturalSeals n
  s.updateBackground e px cls gone

/-- Field line n is not applied while the detection function is reset; the reset counts it (R446). -/
def State.missField (s : State) : State :=
  { s with rst := { s.rst with running := s.rst.running.map (fun (r : FuncReset) => if r.func = 3 then { r with missed := r.missed + 1 } else r) } }

/-- FIELD_LINE_COMPLETE (R130) once the last corrected row of the line is in the history: w ticks pass before it. -/
def State.fieldComplete (s : State) (ecc : List EccFact) : State :=
  let n := s.walk.nextField
  match findEnv s.cor.env n with
  | none => s
  | some e =>
    let s := { s with walk := { s.walk with lineDone := s.walk.lineDone.filter (fun m => decide (m ≠ n)) } }
    let s := ((s.eccFacts ecc).formField n).fieldLate n
    let s := s.archiveLine e
    let s := if s.resetting 3 then s.missField else s.applyField e
    (s.glean n).flagCheck n

/-- FIELD_LINE_COMPLETE (R130). -/
def execFieldLineComplete (w : Nat) (ecc : List EccFact) (s : State) : Host.Outcome State Fault Refusal :=
  .next (
    let s := s.elapse w
    if s.walk.nextField ∈ s.walk.lineDone ∧ !s.resetting 2 ∧ !s.linkLostNow then s.fieldComplete ecc else s)

/-! ### SHEAF_IMAGE_COMPLETE (R138) -/

/-- PEAK (Table 7-7). -/
def peakOf (cells : List (Int × Bool × Nat)) : Int :=
  cells.foldl (fun b p => if p.2.1 then b
    else if b.natAbs < p.1.natAbs ∨ (p.1.natAbs = b.natAbs ∧ b < p.1) then p.1 else b) 0

/-- A sealed sheaf's summary is written. -/
def Sheaf.summary (x : Sheaf) : Sheaf :=
  { x with area := x.ctx.areaSum, peak := peakOf x.boxCells, pixflags := x.boxCells.foldl (fun a p => a ||| p.2.2) 0 }

/-- SHEAF_IMAGE_COMPLETE (R138, Table 7-6): the summary, SHEAF_LATE, and the queue. -/
def execSheafImageComplete (w slot : Nat) (s : State) : Host.Outcome State Fault Refusal :=
  .next (
    let s := s.elapse w
    match s.sheaf slot with
    | none => s
    | some x =>
      if x.state ≠ 2 then s
      else
        let late := (s.now - x.tSeal) / 10
        let s := if s.get Reg.COR_WALK_LATE_SHEAF_LATE < late then s.putSat Reg.COR_WALK_LATE_SHEAF_LATE late else s
        (s.draw.putSheaf (s.readImage x).summary).queueSheaf slot)

end Sys2Proof.Machine
end

