-- ==== Sys2Proof/Machine/Reload.lean ====
section
/-!
DEFINITION. Ownership writes and the reload (spec/02_configuration_and_startup.md R44, R59; spec/14_keep_store.md R375, R379;
spec/13_management_port.md R364).
-/
namespace Sys2Proof.Machine

/-! ### Ownership at runtime (R44) -/

/-- The class of the resource whose register lies at an address, with the FUNCTION field; none for another address. -/
def ownerField (a : Nat) : Option (Field × (Nat → Bool)) :=
  if a % 4 ≠ 0 then none
  else if Reg.CFG_PIN 0 ≤ a ∧ a < Reg.CFG_PIN 8 then some (Reg.CFG_PIN_FUNCTION ((a - Reg.CFG_PIN 0) / 4), pinFunction)
  else if Reg.CFG_TMR 0 ≤ a ∧ a < Reg.CFG_TMR 4 then some (Reg.CFG_TMR_FUNCTION ((a - Reg.CFG_TMR 0) / 4), timerFunction)
  else if a = Reg.CFG_AUX1 then some (Reg.CFG_AUX1_FUNCTION, auxFunction)
  else none

/-- FGAP_N after a change of ownership: a pending request asserts it once the function owns its pin, and without the pin it drives nothing. -/
def State.gapOwner (s : State) : State :=
  if s.ownsAll 1 then (if s.flag Reg.CAL_STATUS_PENDING then s.assertGap else s)
  else if s.cal.fgap then s.releaseGap else s

/-- A write of an ownership register: REFUSED where the resource belongs to another function, or a class or instance count breaks. -/
def State.hostOwner (s : State) (a value : Nat) : Option State :=
  match ownerField a with
  | none => some s
  | some (fld, classOk) =>
    let f := value % 256
    let cur := s.get fld
    let w := ((regRow a).map (fun r => r.merge (s.word a).toNat value)).getD value
    let t := s.setWord a (BitVec.ofNat 32 w)
    let (pins, tmrs, _) := ownersOf t.word
    allow (classOk f && countsOk pins tmrs && decide (cur = 0 ∨ f = 0 ∨ f = cur)) t.gapOwner

/-- CFG_OWNERSHIP_WRITE (R44). -/
def execCfgOwnershipWrite (addr value : Nat) (s : State) : Host.Outcome State Fault Refusal :=
  .next (if (ownerField addr).isSome then s.host addr (s.hostOwner addr value) else s)

/-! ### The reload (R59) -/

/-- The reload begins: admission stops. -/
def State.startReload (s : State) (slot : Nat) : State :=
  { s with cfg := { s.cfg with reloading := true, reloadNext := none, force := slot, releasedAt := s.time.ticks } }

/-- Whether a reload may run: the part runs or is unconfigured; it leaves the held state as R420 says, and no other way. -/
def State.mayReload (s : State) : Bool := decide (s.cfg.stage = .running ∨ s.cfg.stage = .unconfigured)

/-- RELOAD in CFG_CTRL: SLOT 3 is discarded; during a flash operation the reload starts when that ends (R364). -/
def State.hostReload (s : State) (w : Nat) : State :=
  let slot := bits w 1 2
  if !bit w 0 ∨ slot = 3 ∨ s.cfg.reloading ∨ !s.mayReload then s
  else if s.mpt.flash.isSome then { s with cfg := { s.cfg with reloadNext := some slot } }
  else s.startReload slot

/-- RELOAD (R59). -/
def execCfgReload (slot : Nat) (s : State) : Host.Outcome State Fault Refusal :=
  .next (s.host Reg.CFG_CTRL (some (s.hostReload (1 + 2 * (slot % 4)))))

/-- Every admitted sheaf has its record. -/
def State.allReleased (s : State) : Bool := s.liveSlots.isEmpty && s.trk.lostOnes.isEmpty && s.stg.aggregates.isEmpty

/-- The part stores a counter set and a mark entry with the exact counts (flags 1 CLEAN, 2 SAVE), and restarts. -/
def State.reloadRestart (s : State) (flags : Nat) : State :=
  let s := s.finishStores (s.keep.queue.length + 2)
  let mpos := s.pair Reg.KEP_MPOS_LO + 1
  let pages := counterPages s s.nextGen ++ [(markPage mpos, markEntry flags mpos s.seqMark s.rposMark s.seqNext s.stg.nextRpos 0)]
  let t := State.restarted { s with keep := { s.keep with shadow := putPages s.keep.shadow pages, run := none } }
  { t with cfg := { t.cfg with force := s.cfg.force }, keep := { t.keep with setTick := some t.time.ticks } }

/-- RELOAD_DRAINED (R59): every sheaf has its record, and every record slot is free. -/
def execReloadDrained (s : State) : Host.Outcome State Fault Refusal :=
  .next (if s.cfg.reloading ∧ s.mayReload ∧ s.allReleased ∧ s.stagingEmpty then s.reloadRestart 1 else s)

/-- RELOAD_TIMEOUT (R59): slots are still held 10 s after the last sheaf was released. -/
def execReloadTimeout (s : State) : Host.Outcome State Fault Refusal :=
  .next (if s.cfg.reloading ∧ s.mayReload ∧ s.allReleased ∧ !s.stagingEmpty then
      (s.elapseTo (s.cfg.releasedAt + msTicks 10000)).reloadRestart 2
    else s)

end Sys2Proof.Machine
end

