-- ==== Sys2Proof/Machine/Flash.lean ====
section
/-!
DEFINITION. Flash operations and the sharing of the flash's lines (spec/13_management_port.md R359–R364).
-/
namespace Sys2Proof.Machine

/-- The timeout of an operation, in ticks (Table 13-9). -/
def flashTimeout (op : Nat) : Nat :=
  if op = 2 then msTicks 5 else if op = 3 then msTicks 1000 else if op = 4 then msTicks 4000 else msTicks 1

/-- How many bytes of flash an operation touches from its address. -/
def flashSpan (op len : Nat) : Nat := if op = 3 then 4096 else if op = 4 then 65536 else len

/-- Whether bytes of flash lie in the slot that SLOT_USED names (R34, R58): 1 names slot A, 2 slot B. -/
def inSlotUsed (used addr span : Nat) : Bool := decide ((used = 1 ∧ addr < 0x800000) ∨ (used = 2 ∧ 0x800000 < addr + span))

/-- Whether R363 lets an operation start. -/
def State.flashAllowed (s : State) (op addr len : Nat) : Bool :=
  s.mpt.flash.isNone &&
  (if op = 2 then decide (addr % 256 + len ≤ 256) else true) &&
  (if op = 3 then decide (addr % 4096 = 0) && s.cfg.erase4k.isSome else true) &&
  (if op = 4 then decide (addr % 65536 = 0) && s.cfg.erase64k.isSome else true) &&
  (if 2 ≤ op ∧ op ≤ 4 then !inSlotUsed (s.get Reg.CFG_STATUS_SLOT_USED) addr (flashSpan op len) else true)

/-- The read of Table 2-1 chosen at start-up. -/
def State.readOpcode (s : State) : Nat := [0x03, 0x0B, 0x3B, 0x6B].getD (s.get Reg.CFG_STATUS_READ_MODE) 0x03

/-- The first n bytes of the buffer (R362). -/
def State.bufferBytes (s : State) (n : Nat) : List Byte :=
  (List.range n).map (fun i => BitVec.ofNat 8 (s.get ⟨Reg.MPT_FL_BUF (i / 4), 8 * (i % 4), 8⟩))

/-- The flash commands of an operation in its phase (Table 13-9); a read starts at the address after the last whole byte (R361). -/
def State.flashCmds (s : State) (f : FlashRun) : List FlashCmd :=
  if f.op = 5 ∨ f.phase = .poll then [⟨0x05, none, []⟩]
  else if f.op = 1 ∨ f.phase = .verify then [⟨s.readOpcode, some (f.addr + f.got), []⟩]
  else if f.op = 2 then [⟨0x06, none, []⟩, ⟨0x02, some f.addr, s.bufferBytes f.length⟩]
  else [⟨0x06, none, []⟩, ⟨(if f.op = 3 then s.cfg.erase4k else s.cfg.erase64k).getD 0, some f.addr, []⟩]

/-- The operation shifts the commands of its phase. -/
def State.shiftFlash (s : State) (f : FlashRun) : State := { s with mpt := { s.mpt with flash := some f, flashOut := s.flashCmds f } }

/-- An operation starts: BUSY, DONE and ERR clear, and its timeout runs; a program or erase polls every 10 µs. -/
def State.startFlash (s : State) (op addr len : Nat) : State :=
  let s := (((s.put Reg.MPT_FL_STATUS_BUSY 1).put Reg.MPT_FL_STATUS_DONE 0).put Reg.MPT_FL_STATUS_ERR 0).put Reg.MPT_STATUS_MASTERING 1
  let s := s.shiftFlash ⟨op, addr, len, .command, 0⟩
  let s := s.arm Timer.flash (flashTimeout op)
  if 2 ≤ op ∧ op ≤ 4 then s.arm Timer.flashPoll (usTicks 10) else s

/-- A write of MPT_FL_CMD (R362, R363): REFUSED while an operation runs; OP 0 starts nothing, 6 and 7 are discarded. -/
def State.hostFlash (s : State) (w : Nat) : Option State :=
  let op := Reg.MPT_FL_CMD_OP.of (BitVec.ofNat 32 w)
  let len := Reg.MPT_FL_CMD_LEN_M1.of (BitVec.ofNat 32 w) + 1
  let addr := s.get Reg.MPT_FL_ADDR_ADDR
  if s.mpt.flash.isSome then none
  else if op = 0 ∨ 5 < op then some s
  else if s.flashAllowed op addr len then some (s.startFlash op addr len)
  else none

/-- MPT_FL_CMD with an operation and a length. -/
def flashCmd (op lenM1 : Nat) : Nat := op + 256 * (lenM1 % 256)

/-- FLASH_READ (R362). -/
def execFlashRead (lenM1 : Nat) (s : State) : Host.Outcome State Fault Refusal := .next (s.host Reg.MPT_FL_CMD (s.hostFlash (flashCmd 1 lenM1)))
/-- FLASH_PROGRAM (R362). -/
def execFlashProgram (lenM1 : Nat) (s : State) : Host.Outcome State Fault Refusal := .next (s.host Reg.MPT_FL_CMD (s.hostFlash (flashCmd 2 lenM1)))
/-- FLASH_ERASE_4K (R362). -/
def execFlashErase4k (s : State) : Host.Outcome State Fault Refusal := .next (s.host Reg.MPT_FL_CMD (s.hostFlash (flashCmd 3 0)))
/-- FLASH_ERASE_64K (R362). -/
def execFlashErase64k (s : State) : Host.Outcome State Fault Refusal := .next (s.host Reg.MPT_FL_CMD (s.hostFlash (flashCmd 4 0)))
/-- FLASH_READ_STATUS (R362). -/
def execFlashReadStatus (s : State) : Host.Outcome State Fault Refusal := .next (s.host Reg.MPT_FL_CMD (s.hostFlash (flashCmd 5 0)))

/-- FLASH_STATUS_POLL (R362): 10 µs after the last poll; bit 0 of the status register says that the flash is still busy (PRESUMED of a
serial NOR flash), and the polling goes on. -/
def execFlashStatusPoll (sr : Nat) (s : State) : Host.Outcome State Fault Refusal :=
  .next (match s.mpt.flash with
    | none => s
    | some f =>
      if s.mpt.abandoned then s
      else match s.fire Timer.flashPoll with
        | none => s
        | some t =>
          let t := (t.put Reg.MPT_FL_STATUS_SR sr).shiftFlash { f with phase := .poll }
          if bit sr 0 then t.arm Timer.flashPoll (usTicks 10)
          else if f.op = 2 then t.shiftFlash { f with phase := .verify }
          else t)

/-- An operation ends (R364): DONE, ERR, the alert, and the reload that waited for it. -/
def State.endFlash (s : State) (err : Nat) : State :=
  let s := (((s.put Reg.MPT_FL_STATUS_BUSY 0).put Reg.MPT_FL_STATUS_DONE 1).put Reg.MPT_FL_STATUS_ERR err).put Reg.MPT_STATUS_MASTERING 0
  let s := ((s.disarm Timer.flash).disarm Timer.flashPoll).put Reg.MPT_ALERT_FLASH_DONE 1
  let s := { s with mpt := { s.mpt with flash := none, abandoned := false } }
  match s.cfg.reloadNext with
  | some slot => s.startReload slot
  | none => s

/-- Put bytes into the buffer from byte i on (R362). -/
def State.fillBuffer (s : State) : Nat → List Byte → State
  | _, [] => s
  | i, b :: bs =>
    let f : Field := ⟨Reg.MPT_FL_BUF (i / 4), 8 * (i % 4), 8⟩
    State.fillBuffer (s.put f b.toNat) (i + 1) bs

/-- The result of the running operation: a read fills the buffer, a status read SR; a program or erase is over once the flash is no
longer busy, and a program's read-back is compared with the buffer. -/
def State.flashResult (s : State) (f : FlashRun) (r : FlashResult) : State :=
  let polled := (s.due Timer.flashPoll).isNone
  match r with
  | .ok bytes =>
    if f.op = 1 then (s.fillBuffer 0 (bytes.take f.length)).endFlash 0
    else if f.op = 5 then (s.put Reg.MPT_FL_STATUS_SR ((bytes.headD 0).toNat)).endFlash 0
    else if !polled then s
    else if f.op = 2 ∧ bytes.take f.length ≠ s.bufferBytes f.length then s.endFlash 2
    else s.endFlash 0
  | .noWriteEnable => if 2 ≤ f.op ∧ f.op ≤ 4 then s.endFlash 3 else s

/-- FLASH_OP_DONE (R364). -/
def execFlashOpDone (r : FlashResult) (s : State) : Host.Outcome State Fault Refusal :=
  .next (match s.mpt.flash with
    | some f => if s.mpt.abandoned then s else s.flashResult f r
    | none => s)

/-- FLASH_OP_TIMEOUT (R364). -/
def execFlashOpTimeout (s : State) : Host.Outcome State Fault Refusal :=
  .next (match s.mpt.flash with
    | some _ => (match s.fire Timer.flash with
      | some t => t.endFlash 1
      | none => s)
    | none => s)

/-! ### Collisions (R360, R361) -/

/-- CSF_N is low, and SCLK is driven, while a transfer is under way; CSF_N is high while the part does not master (Table 13-1, R360). -/
def State.csfN (s : State) : Bool := !(s.masters && !s.mpt.abandoned)
def State.drivesSclk (s : State) : Bool := !s.csfN

/-- How many more whole bytes of a read have come when it is abandoned is free (log entry 5). -/
def FlashRun.lost (f : FlashRun) (free : Nat) : FlashRun :=
  if f.op = 1 ∨ f.phase = .verify then { f with got := f.got + free % (f.length - f.got + 1) } else f

/-- The flash address at which a slot begins (R34). -/
def slotBase (slot : Nat) : Nat := 0x800000 * slot

/-- SEL_N falls (R360): a transfer under way is abandoned, with what it confirmed so far (R361); one that already waits is not abandoned again. -/
def State.selFall (s : State) : State :=
  if s.masters ∧ !s.mpt.abandoned then
    let s := (s.bump Reg.MPT_COLLIDE_COLLISIONS 1).put Reg.MPT_ALERT_MASTER_COLLISION 1
    let k := s.drawn.toNat
    let left := ((if s.cfg.slot = 0 then s.cfg.headA else s.cfg.headB).map (fun h => h.length)).getD 0 - s.cfg.offset
    ({ s with mpt := { s.mpt with
      abandoned := true, collision := true, flash := s.mpt.flash.map (fun (f : FlashRun) => f.lost k)
      loadAt := slotBase s.cfg.slot + s.cfg.offset + k % (left + 1) } }).draw
  else s

/-- MASTER_COLLISION (R360). -/
def execMasterCollision (s : State) : Host.Outcome State Fault Refusal := .next s.selFall

/-- The abandoned transfer starts again at its last confirmed address: the commands of an operation's phase, or the read of the image (R361). -/
def State.resumeFlash (s : State) : State :=
  let s := { s with mpt := { s.mpt with abandoned := false } }
  match s.mpt.flash with
  | some f => s.shiftFlash f
  | none => { s with mpt := { s.mpt with flashOut := [⟨s.readOpcode, some s.mpt.loadAt, []⟩] } }

/-- FLASH_TRANSFER_RESUME (R361): 10 µs after SEL_N rose. -/
def execFlashTransferResume (s : State) : Host.Outcome State Fault Refusal :=
  .next (if s.mpt.abandoned then (s.elapse (usTicks 10)).resumeFlash else s)

end Sys2Proof.Machine
end

