-- ==== Sys2Proof/Machine/Resets.lean ====
section
/-!
DEFINITION. Function resets (spec/18_faults_resets.md R443–R448): RST_FUNC, watchdogs, what the reset of each function discards, and what
its end replays.
-/
namespace Sys2Proof.Machine

/-! ### What a reset marks (R444, R445) -/

/-- The sheaf-store states that a function's row of Table 18-4 names. -/
def replayStates (f : Nat) : List Nat :=
  if f = 2 ∨ f = 3 then [1] else if f = 4 then [3, 4] else if f = 5 then [5] else if f = 7 then [6] else []

/-- Sheaves in those states carry REPLAYED (Table 11-3, bit 2). -/
def State.markReplayed (s : State) (f : Nat) : State :=
  (s.bySeq.filter (fun x => (replayStates f).contains x.state)).foldl (fun t x => t.onSheaf x.slot (fun y => { y with rflags := setBit y.rflags 2 true })) s

/-- How many sheaves are in those states. -/
def State.replayCount (s : State) (f : Nat) : Nat := (s.bySeq.filter (fun x => (replayStates f).contains x.state)).length

/-! ### READOUT (R92, R446) -/

/-- Frames in flight and lane lock are lost, and every lane is retrained; codes of a row whose headland mean is not held go with them. -/
def State.readoutReset (s : State) : State :=
  let held := (s.cor.buffer ++ s.cor.waiting).filter s.rowHeld
  ({ s with
    rdo := { s.rdo with
      lanes := s.rdo.lanes.map (fun (_ : LinkLane) => ({ recent := [], lock := false, good := 0, retraining := true } : LinkLane))
      moving := [], headNow := [], headPass := 0, rawCodes := [], waitLines := false }
    cor := { s.cor with buffer := held.take 32768, waiting := held.drop 32768 } }).linkUpdate

/-- The lanes that have not become working again are failed. -/
def State.retrainDone (s : State) : State :=
  let bad := (List.range 4).filter (fun n => (s.linkLane n).retraining)
  let s := bad.foldl (fun t n => (t.put Reg.RDO_LINK_STATUS_FAILED (setBit (t.get Reg.RDO_LINK_STATUS_FAILED) n true)).setLane n
    { t.linkLane n with retraining := false, good := 0 }) s
  if (List.range 4).any s.laneDead then s.degrade 5 else s

/-- The roles are assigned anew; field lines resume at the next line boundary, or the link is lost. -/
def State.readoutDone (s : State) : State :=
  let lost := s.linkLostNow
  let s := s.retrainDone.assignRoles.tellRoles s
  if s.linkLostNow then (if lost then s else s.sealOpen Sf.link)
  else { s with rdo := { s.rdo with waitLines := true } }

/-! ### CORRECTION and WALK (R446) -/

/-- A pixel whose code is lost to the reset: it passes as lost data. -/
def Pixel.lose (p : Pixel) : Pixel := { p with raw := 0, flags := p.flags ||| Pf.lost, out := true, tries := [], tried := [], exact := none }

/-- The issue buffer and the lanes' contents are lost. -/
def State.correctionReset (s : State) : State :=
  let lost := (s.cor.lanes.filterMap id ++ s.cor.again ++ s.cor.buffer ++ s.cor.waiting).map Pixel.lose
  { s with cor := { s.cor with buffer := lost.take 32768, waiting := lost.drop 32768, lanes := List.replicate 9 none, again := [] } }

/-- Lag state and row history are lost (R142). -/
def State.walkReset (s : State) : State :=
  { s with walk := { s.walk with
    lag := s.walk.lag.map (fun (e : Nat × (Int × Nat)) => (e.1, (0, Pf.lost))), hist := [], histFrom := s.time.line + 1 } }

/-! ### DETECTION (R446) -/

/-- Open sheaves seal with RESET and shadows seal; background and runs are lost. -/
def State.detectionReset (s : State) : State :=
  let s := (s.sealOpen Sf.reset).sealShadows
  { s with trk := { s.trk with bg := [], stepRun := 0 } }

/-! ### ASTER (R445, R446) -/

/-- Running runs are discarded without counting: their sheaves are queued again, and every working engine runs its self-test. -/
def State.asterReset (s : State) : State :=
  let s := (s.bySeq.filter (fun x => decide (x.state = 4))).foldl (fun t x => t.putSheaf { x with state := 3, runs := x.runs - 1 }) s
  ((List.range 16).foldl (fun t e =>
    let u := t.putEngine e { t.engine e with sheaf := none }
    if u.engState e = 3 then u else u.put (Reg.AST_ENG_STATE e) 2) s).queueUpdate

/-- The self-tests are over. -/
def State.asterDone (s : State) : State :=
  (List.range 16).foldl (fun t e => if t.engState e = 2 ∧ !bit (t.get Reg.AST_STATUS_FAILED) e then t.put (Reg.AST_ENG_STATE e) 0 else t) s

/-! ### DRILL (R446) -/

/-- Whether an owner is a fast-path plan. -/
def isFast (o : Nat × Nat) : Bool := decide (fastBase ≤ o.1 ∧ o.1 < fastBase + 1024)

/-- Fast-path plans are lost; what their gates already made runs on without them. -/
def State.drillReset (s : State) : State :=
  let pulls := (s.drl.pulls.map (fun (p : PullIn) => ({ p with owners := p.owners.filter (fun o => !isFast o) } : PullIn))).filter
    (fun p => !p.owners.isEmpty)
  ({ s with
    drl := { s.drl with pulls := pulls, fast := Map.keep (fun k => decide (1024 ≤ k)) s.drl.fast }
    vlv := { s.vlv with acts := s.vlv.acts.map (fun (a : Act) => ({ a with owners := a.owners.filter (fun o => !isFast o) } : Act)) } }).waitUpdate

/-- LATE_TOL of a pull-in, as its plan holds it (ns). -/
def State.lateTol (s : State) (p : PullIn) : Int :=
  match p.owners.head?.bind (fun o => s.plan o.1) with
  | some q => 1000 * (q.lateTol : Int)
  | none => 0

/-- A pull-in is requested at the end of a reset: LATE is marked and counted once. -/
def State.requestLate (s : State) (p : PullIn) : State :=
  let has := p.owners.all (fun o => match (s.plan o.1).bind (fun q => q.entries[o.2]?) with
    | some e => bit e.flags Ef.late
    | none => true)
  let s := if has then s else (s.markEntries p.owners Ef.late).bump Reg.DRL_TIMING_LATE 1
  s.putPull { p with req := tick100 s.nowI, waits := true }

/-- The gate of an entry fell during the reset: made at once with LATE within LATE_TOL, else CLOSED with OUTCOME 5. -/
def State.drillReplay (s : State) (p : PullIn) : State :=
  if p.waits ∨ s.nowI < p.gate then s
  else if s.nowI ≤ p.gate + s.lateTol p then s.requestLate p
  else s.noGate p Ef.closed

def State.drillDone (s : State) : State :=
  let s := s.drl.pulls.foldl (fun t p => t.drillReplay p) s
  s.waitUpdate.grantPass (tick100 s.nowI)

/-! ### VALVE (R446) -/

/-- All commands go low; each ended entry keeps FIRED, gains CLOSED, and reports its real ON_ACT. -/
def State.valveReset (s : State) : State :=
  let on := s.vlv.acts.filter Act.on
  let now := s.nowI
  let s := on.foldl (fun t a => (t.onEntries a.owners (fun e => { e.mark Ef.closed with onAct := (now - a.gate).toNat }))) s
  let s := ((s.allLow.auxCut 0).auxCut 1)
  let s := on.foldl (fun t a => t.endEntries a.owners) s
  let s := { s with vlv := { s.vlv with acts := s.vlv.acts.map (fun (a : Act) =>
    if on.any (fun b => decide (b.valve = a.valve)) then ({ a with owners := [] } : Act) else a) } }
  s.armCheck

/-- A gate requested during the reset is made at its end under Table 9-1. -/
def State.valveReplay (s : State) (start : Int) (p : PullIn) : State :=
  if !p.waits ∨ p.req < start then s
  else if s.nowI ≤ p.gate then s
  else if s.nowI ≤ p.gate + s.lateTol p then s.requestLate p
  else (s.noGate p Ef.missed).bump Reg.DRL_TIMING_MISSED 1

def State.valveDone (s : State) (start : Int) : State :=
  let s := s.drl.pulls.foldl (fun t p => t.valveReplay start p) s
  s.waitUpdate.grantPass (tick100 s.nowI)

/-! ### ETHERNET, PTP, HKC, CALIBRATION (R446) -/

/-- Every port in use restarts its link; packets in flight are lost. -/
def State.ethernetReset (s : State) : State :=
  let s := (List.range 4).foldl (fun t p => if t.get (Reg.ETH_P_CTRL_MODE p) = 0 then t else t.linkLost p) s
  s.newPackets

/-- The servo enters FREE with its frequency correction held. -/
def State.ptpReset (s : State) : State :=
  let s := ((s.disarm Timer.ptpHold).disarm Timer.ptpFree).disarm Timer.delayReq
  { s.put Reg.PTP_STATUS_STATE 0 with ptp := { s.ptp with
    masters := [], selected := none, sync := none, good := 0, delayReq := none, lastSync := none } }

/-- The entry in conversion is lost; a calibration phase in conversion is due again. -/
def State.hkcReset (s : State) : State :=
  let again := match s.hkc.job with
    | some (.phase p) => [p]
    | _ => []
  ({ (s.disarm Timer.hkcEntry).disarm Timer.hkcPhase with
    hkc := { s.hkc with job := none, phases := again ++ s.hkc.phases, next := 0, turn := false } }).hkcBusy

/-- The running script ends with exit code 0x85 after its closure; a pending request is kept, and a quality measurement in progress starts
anew at the next swap. -/
def State.calibrationReset (s : State) : State :=
  let s := { s.put Reg.CAL_STATUS_QUAL_BUSY 0 with cal := { s.cal with qual := [] } }
  let s := s.disarm Timer.qual
  if !s.flag Reg.CAL_STATUS_RUNNING then s
  else
    let s := { s with cal := { s.cal with held := s.cal.held || s.flag Reg.CAL_STATUS_PENDING } }
    match s.cal.closing with
    | some (_, op) => { s with cal := { s.cal with closing := some (0x85, op) } }
    | none => s.endScript 0x85

/-! ### The start of a reset (R443, R444) -/

/-- What the reset of function f discards. -/
def State.resetAction (s : State) (f : Nat) : State :=
  match f with
  | 0 => s.readoutReset
  | 1 => s.correctionReset
  | 2 => s.walkReset
  | 3 => s.detectionReset
  | 4 => s.asterReset
  | 5 => s.drillReset
  | 6 => s.valveReset
  | 8 => s.archiveReset
  | 9 => s.bringUp
  | 10 => s.ethernetReset
  | 11 => s.ptpReset
  | 12 => s.hkcReset
  | 13 => s.calibrationReset
  | _ => s

/-- The registers of a reset that starts: its count, RST_LAST and its time, BUSY, and FUNC_RESET. -/
def State.noteReset (s : State) (f cause : Nat) : State :=
  let s := s.bump (if cause = 1 then Reg.RST_COUNT_HOST f else Reg.RST_COUNT_WATCHDOG f) 1
  let s := ((s.put Reg.RST_LAST_FUNC f).put Reg.RST_LAST_CAUSE cause).put Reg.RST_LAST_REPLAYED 0
  let s := (s.setPair Reg.RST_LAST_TIME_LO s.now).put Reg.RST_STATUS_BUSY (setBit (s.get Reg.RST_STATUS_BUSY) f true)
  s.emit 0x0B01 f cause

/-- The reset of function f starts: cause 1 host, 2 watchdog. -/
def State.beginReset (s : State) (f cause : Nat) : State :=
  let r : FuncReset := { func := f, start := s.now, replayed := s.replayCount f, missed := 0 }
  let s := (s.noteReset f cause).markReplayed f
  ({ s with rst := { s.rst with running := s.rst.running ++ [r] } }).resetAction f

/-! ### RST_FUNC (R443, R447) -/

/-- The switched domains that a function runs in (Table 16-2); none for one that has no domain of its own. -/
def funcDomains (f : Nat) : List Nat :=
  [[30], [0, 1, 2, 3, 4, 5, 6, 7, 8], [31], [31], [9, 10, 11, 12, 13, 14, 15, 16, 17, 18, 19, 20, 21, 22, 23, 24], [32], [32], [],
    [34], [29], [25, 26, 27, 28], [], [33], []].getD f []

/-- Whether all domains of a function are FALLOW. -/
def State.funcFallow (s : State) (f : Nat) : Bool := !(funcDomains f).isEmpty && (funcDomains f).all (fun d => decide (s.domain d = 0))

/-- One bit of RST_FUNC. -/
def State.hostReset (s : State) (f : Nat) : Option State := if s.resetting f ∨ s.funcFallow f then none else some (s.beginReset f 1)

/-- A write of RST_FUNC: REFUSED as a whole outside normal running, else bit by bit. -/
def State.hostRstFunc (s : State) (w : Nat) : State × Bool :=
  if s.cfg.stage ≠ .running then (s, true)
  else (List.range 14).foldl (fun r f => thenAct r (bit w f) (fun t => t.hostReset f)) (s, false)

/-- A RST_FUNC write of one bit as a command; in the unconfigured state it is REFUSED too (R447). -/
def State.resetCommand (s : State) (f : Nat) : State :=
  if s.cfg.stage = .unconfigured then s.refuse Reg.RST_FUNC else s.hostDone Reg.RST_FUNC (s.hostRstFunc (2 ^ f))

/-- READOUT_RESET (R443, R446). -/
def execReadoutReset (s : State) : Host.Outcome State Fault Refusal := .next (s.resetCommand 0)
/-- CORRECTION_RESET (R443, R446). -/
def execCorrectionReset (s : State) : Host.Outcome State Fault Refusal := .next (s.resetCommand 1)
/-- WALK_RESET (R443, R446). -/
def execWalkReset (s : State) : Host.Outcome State Fault Refusal := .next (s.resetCommand 2)
/-- DETECTION_RESET (R443, R446). -/
def execDetectionReset (s : State) : Host.Outcome State Fault Refusal := .next (s.resetCommand 3)
/-- ASTER_RESET (R443, R445). -/
def execAsterReset (s : State) : Host.Outcome State Fault Refusal := .next (s.resetCommand 4)
/-- DRILL_RESET (R443, R446). -/
def execDrillReset (s : State) : Host.Outcome State Fault Refusal := .next (s.resetCommand 5)
/-- VALVE_RESET (R443, R446). -/
def execValveReset (s : State) : Host.Outcome State Fault Refusal := .next (s.resetCommand 6)
/-- RECORD_RESET (R443, R445). -/
def execRecordReset (s : State) : Host.Outcome State Fault Refusal := .next (s.resetCommand 7)
/-- ARCHIVE_RESET (R443, R446). -/
def execArchiveReset (s : State) : Host.Outcome State Fault Refusal := .next (s.resetCommand 8)
/-- NVME_RESET (R443, R446). -/
def execNvmeReset (s : State) : Host.Outcome State Fault Refusal := .next (s.resetCommand 9)
/-- ETHERNET_RESET (R443, R446). -/
def execEthernetReset (s : State) : Host.Outcome State Fault Refusal := .next (s.resetCommand 10)
/-- PTP_RESET (R443, R446). -/
def execPtpReset (s : State) : Host.Outcome State Fault Refusal := .next (s.resetCommand 11)
/-- HKC_RESET (R443, R446). -/
def execHkcReset (s : State) : Host.Outcome State Fault Refusal := .next (s.resetCommand 12)
/-- CALIBRATION_RESET (R443, R446). -/
def execCalibrationReset (s : State) : Host.Outcome State Fault Refusal := .next (s.resetCommand 13)

/-! ### Watchdogs (R448) -/

/-- Functions with a watchdog (Table 18-4). -/
def hasWatchdog (f : Nat) : Bool := decide (f < 9 ∨ f = 12)

/-- The third watchdog reset of a function within 10 s leaves it to the host. -/
def State.noteDog (s : State) (f : Nat) : State :=
  let dogs := (f, s.time.ticks) :: s.rst.dogs.filter (fun d => decide (s.time.ticks < d.2 + msTicks 10000))
  let s := { s with rst := { s.rst with dogs := dogs } }
  if 3 ≤ (dogs.filter (fun d => decide (d.1 = f))).length then
    ({ s.put Reg.RST_AUTO_AUTO_EN (setBit (s.get Reg.RST_AUTO_AUTO_EN) f false) with
      rst := { s.rst with dogs := dogs.filter (fun d => decide (d.1 ≠ f)) } }).emit 0x0B03 f 0xFF
  else s

/-- WATCHDOG_EXPIRY (R448): the watchdog of function f expires. -/
def execWatchdogExpiry (f : Nat) (s : State) : Host.Outcome State Fault Refusal :=
  if 14 ≤ f then .fault .noSuchPart
  else .next (if s.cfg.stage = .running ∧ hasWatchdog f ∧ bit (s.get Reg.RST_AUTO_AUTO_EN) f ∧ !s.resetting f ∧ !s.funcFallow f then
      (s.beginReset f 2).noteDog f
    else s)

/-! ### The end of a reset (R444, R446) -/

/-- Whether the reset of a function may complete: VALVE with its ended actuations released, NVME with its bring-up over, CALIBRATION with
its script ended. -/
def State.resetReady (s : State) (f : Nat) : Bool :=
  if f = 6 then s.vlv.acts.isEmpty
  else if f = 9 then decide (s.get Reg.NVH_STATUS_DRIVE ≠ 1 ∧ s.get Reg.NVH_STATUS_DRIVE ≠ 2)
  else if f = 13 then !s.flag Reg.CAL_STATUS_RUNNING
  else true

/-- What a function does as its reset completes. -/
def State.doneAction (s : State) (r : FuncReset) : State :=
  match r.func with
  | 0 => s.readoutDone
  | 1 => s.correctionReset
  | 4 => s.asterDone
  | 5 => s.drillDone
  | 6 => s.valveDone r.start
  | 12 => s.hkcNext
  | _ => s

/-- BUSY, REPLAYED and FUNC_RESET_DONE. -/
def State.endReset (s : State) (r : FuncReset) : State :=
  let s := s.put Reg.RST_STATUS_BUSY (setBit (s.get Reg.RST_STATUS_BUSY) r.func false)
  let s := if s.get Reg.RST_LAST_FUNC = r.func then s.putSat Reg.RST_LAST_REPLAYED r.replayed else s
  s.emit 0x0B02 r.func (r.replayed + r.missed * 2 ^ 32)

/-- FUNC_RESET_DONE (R444, R446). -/
def execFuncResetDone (f : Nat) (s : State) : Host.Outcome State Fault Refusal :=
  if 14 ≤ f then .fault .noSuchPart
  else .next (match s.rst.running.find? (fun r => decide (r.func = f)) with
    | none => s
    | some r => if s.resetReady f then
        let t := { s with rst := { s.rst with running := s.rst.running.filter (fun x => decide (x.func ≠ f)) } }
        (t.doneAction r).endReset r
      else s)

/-- CLR_COUNTERS in RST_CMD (Table 18-9). -/
def State.clearRst (s : State) : State := ((List.range 14).foldl (fun t f => t.setWord (Reg.RST_COUNT f) 0) s).put Reg.RST_LAST_REPLAYED 0

/-- RST_CLR_COUNTERS (R443). -/
def execRstClrCounters (s : State) : Host.Outcome State Fault Refusal := .next (s.host Reg.RST_CMD (some s.clearRst))

end Sys2Proof.Machine
end

