-- ==== Sys2Proof/Machine/Access.lean ====
section
/-!
DEFINITION. Access to registers and memory windows (spec/19_register_map.md R453–R464; spec/13_management_port.md R355–R358;
spec/16_power_thermal.md R405): what one word reads, and what one written word does. The management port is path 0, archive-engine
channel n path n + 1.
-/
namespace Sys2Proof.Machine

/-! ### Banks and windows (Tables 19-1 and 19-2) -/

/-- The last register of a bank, by the upper half of its addresses. -/
def lastRegister (b : Nat) : Option Nat :=
  if b = 0 then some Reg.GEN_SCRATCH
  else if b = 1 then some (Reg.PWR_DOM 2)
  else if b = 2 then some (Reg.RST_COUNT 13)
  else if b = 3 then some Reg.TBS_CMD
  else if b = 4 then some Reg.CFG_AUX1
  else if b = 5 then some (Reg.MPT_FL_BUF 63)
  else if b = 6 then some (Reg.KEP_CNT_HI 1055)
  else if b = 0x10 then some (Reg.RDO_FAILMAP 129)
  else if b = 0x11 then some Reg.COR_WALK_CMD
  else if b = 0x12 then some (Reg.CAL_SCRIPT_MEM 15 255)
  else if b = 0x13 then some (Reg.TRK_BGC 4095)
  else if b = 0x14 then some (Reg.AST_ENG 15)
  else if b = 0x15 then some (Reg.DRL_THETA 1023)
  else if b = 0x16 then some (Reg.VLV_LAST 1023)
  else if b = 0x17 then some (Reg.HKC_VAL 23)
  else if b = 0x18 then some (Reg.DMA_CH_ERROR 7)
  else if b = 0x19 then some (Reg.NVH_R_SIZE 4)
  else if b = 0x1A then some (Reg.ETH_S_DMAC_HI 3)
  else if b = 0x1B then some Reg.PTP_COUNTS
  else none

/-- The end of the memory window that holds an address. -/
def windowEnd (a : Nat) : Option Nat :=
  if 0x01000000 ≤ a ∧ a < 0x01800000 then some 0x01800000
  else if 0x02000000 ≤ a ∧ a < 0x02400000 then some 0x02400000
  else if 0x03000000 ≤ a ∧ a < 0x03200000 then some 0x03200000
  else if 0x04000000 ≤ a ∧ a < 0x04040000 then some 0x04040000
  else none

/-- The first address past the bank or window of an address; none in no bank and no window (R453). -/
def regionLimit (a : Nat) : Option Nat :=
  match windowEnd a with
  | some e => some e
  | none => (lastRegister (a / 65536)).map (fun r => r + 4)

/-- Whether a word of a burst that began at `start` has passed its bank or window (R355). -/
def pastEnd (start a : Nat) : Bool :=
  match regionLimit start with
  | some l => decide (l ≤ a)
  | none => true

/-! ### Words that are computed when they are read -/

/-- MPT_ALERT as it reads: DMA follows DMA_IRQ and DMA_IRQ_EN (Table 13-11). -/
def State.alertWord (s : State) : Word :=
  Reg.MPT_ALERT_DMA.into (s.word Reg.MPT_ALERT) (if s.get Reg.DMA_IRQ_DONE &&& s.get Reg.DMA_IRQ_EN_EN = 0 then 0 else 1)

/-- ALERT_N asserted (R365). -/
def State.alertN (s : State) : Bool :=
  (match s.cfg.stage with
   | .off | .loading | .accepted => false
   | _ => true) && decide (s.alertWord &&& s.word Reg.MPT_ALERT_EN ≠ 0)

/-- A word from single bits, lowest first. -/
def bitsOf : List Bool → Nat
  | [] => 0
  | b :: bs => (if b then 1 else 0) + 2 * bitsOf bs

/-- GEN_STATUS (Table 19-7, R463). -/
def State.genStatus (s : State) : Word :=
  BitVec.ofNat 32 ((if s.get Reg.CFG_STATUS_SLOT_USED = 0 then 0 else 1) + 2 * s.get Reg.CFG_PHASE_PHASE +
    32 * bitsOf [s.admitting, s.flag Reg.CFG_STATUS_VALVES_ON, s.flag Reg.CFG_STATUS_SETTLING, s.flag Reg.CAL_STATUS_STALE,
      s.flag Reg.RST_STATUS_DEGRADED, s.flag Reg.PWR_STATUS_THROTTLING, s.flag Reg.PWR_STATUS_FSLOW, s.flag Reg.PTP_STATUS_SYNCED,
      s.flag Reg.CFG_STATUS_NVME_READY, s.flag Reg.ETH_STATUS_FAILED_OVER, s.alertN, s.flag Reg.PWR_STATUS_HOLDUP_LOW,
      s.flag Reg.RST_STATUS_BUSY, s.flag Reg.KEP_STATUS_BUSY, s.flag Reg.GEN_STATUS_ID_BAD, s.flag Reg.VLV_STATUS_STOPPED])

/-- Whether an MP pin is driven low by FGAP_N or FSLOW_N (Table 2-6). -/
def State.pinDriven (s : State) (n : Nat) : Bool :=
  let f := s.get (Reg.CFG_PIN_FUNCTION n)
  (decide (f = 1) && s.cal.fgap) || (decide (f = 2) && s.flag Reg.PWR_STATUS_FSLOW)

/-- One MP bit after INVERT: a pin that drives reads the level it drives (R464). -/
def State.pinLevel (s : State) (mp n : Nat) : Bool := !s.pinDriven n && (bit mp n != s.flag (Reg.CFG_PIN_INVERT n))

/-- GEN_PINS (Table 19-8, R464). -/
def State.genPins (s : State) (mp : Nat) (ppsIn : Bool) : Word :=
  BitVec.ofNat 32 (bitsOf ((List.range 8).map (s.pinLevel mp) ++ [s.pwr.arm, s.pwr.pfi, ppsIn]))

/-- BIAS_OK: the row bias within 1 % of BIAS_MV (Table 3-12). -/
def State.biasOk (s : State) : Bool :=
  decide (100 * ((s.rdo.biasMv : Int) - s.get Reg.RDO_BIAS_BIAS_MV).natAbs ≤ s.get Reg.RDO_BIAS_BIAS_MV)

/-- The channel of an address in the channel registers, with its offset. -/
def channelReg (a : Nat) : Option (Nat × Nat) :=
  if Reg.DMA_CH_CTRL 0 ≤ a ∧ a < Reg.DMA_CH_CTRL 8 then some ((a - Reg.DMA_CH_CTRL 0) / 64, (a - Reg.DMA_CH_CTRL 0) % 64) else none

/-- The position in its region of a data channel's next write, in bytes: what waits first, else where the next entry goes (R313, R315). -/
def State.dataDst (s : State) (n : Nat) : Nat :=
  if n = 3 then 4096 * (s.eventBlock - s.regionStart 4) + 32 * (s.nvh.eposBlock % 128)
  else 4096 * (match s.nvh.writes.find? (fun w => decide (w.channel = n)) with
    | some w => w.block - s.regionStart n
    | none => (if n = 0 then s.recordBlock s.stg.flushed else s.entryBlock n 3 (if n = 1 then s.nvh.tposNext else s.nvh.lposNext)) - s.regionStart n)

/-- SRC and DST as they read: the current position of a running data channel (its staging address is a free value, log entry 5) and of a
paused channel (R313, R315), else the pending set. -/
def State.channelWord (s : State) (n off a : Nat) : Word :=
  let cur := decide (s.chShown n = 2) && decide (4 ≤ n)
  let data := decide (n < 4 ∧ (s.chShown n = 1 ∨ s.chShown n = 2))
  let c := s.channel n
  let part := fun (v : Nat) => BitVec.ofNat 32 (if off % 8 = 0 then v else v / 2 ^ 32)
  if off = 8 ∨ off = 12 then (if cur then part c.src else if data then s.drawn else s.pendingWord a)
  else if off = 16 ∨ off = 20 then (if cur then part c.dst else if data then part (s.dataDst n) else s.pendingWord a)
  else s.pendingWord a

/-- STATE and FILL_PCT of a channel (Table 11-15). -/
def State.channelStatus (s : State) (n : Nat) : Word :=
  let w := (Reg.DMA_CH_STATUS_STATE n).into (s.word (Reg.DMA_CH_STATUS n)) (s.chShown n)
  if n < 4 then (Reg.DMA_CH_STATUS_FILL_PCT n).into w (Nat.min 100 (s.stagingFill n)) else w

/-- DMA_STATUS (Table 11-14). -/
def State.dmaStatus (s : State) : Word :=
  BitVec.ofNat 32 (bitsOf ((List.range 8).map (fun n => decide (s.chShown n = 1)) ++ (List.range 8).map (fun n => decide (s.chShown n = 3))))

/-- A signed value as a word. -/
def wordOfInt (x : Int) : Word := BitVec.ofInt 32 x

/-- What a register whose value follows from the rest of the state reads; the levels of MP0–MP7 and PPS_IN come from outside. -/
def State.computed (s : State) (mp : Nat) (ppsIn : Bool) (a : Nat) : Option Word :=
  if a = Reg.GEN_STATUS then some s.genStatus
  else if a = Reg.GEN_PINS then some (s.genPins mp ppsIn)
  else if a = Reg.MPT_ALERT then some s.alertWord
  else if a = Reg.MPT_STATUS then some (Reg.MPT_STATUS_MASTERING.into (s.word a) (if s.masters then 1 else 0))
  else if a = Reg.TBS_TIME_LO then some (BitVec.ofNat 32 s.now)
  else if a = Reg.TBS_TIME_HI then some (BitVec.ofNat 32 (s.now / 2 ^ 32))
  else if a = Reg.TBS_LINE_LO then some (BitVec.ofNat 32 s.time.line)
  else if a = Reg.TBS_LINE_HI then some (BitVec.ofNat 32 (s.time.line / 2 ^ 32))
  else if a = Reg.RDO_STATUS then some (Reg.RDO_STATUS_BIAS_OK.into (s.word a) (if s.biasOk then 1 else 0))
  else if a = Reg.TRK_STATUS then some (Reg.TRK_STATUS_ADMITTING.into (s.word a) (if s.admitting then 1 else 0))
  else if Reg.TRK_BGC 0 ≤ a ∧ a < Reg.TRK_BGC 4096 then (Map.find s.trk.bgUsed ((a - Reg.TRK_BGC 0) / 4)).map wordOfInt
  else if a = Reg.DRL_E_EST then some (BitVec.ofNat 32 (Nat.min (rheQ s.energy).toNat (2 ^ 32 - 1)))
  else if a = Reg.DRL_STATUS then
    some (Reg.DRL_STATUS_E_LOW.into (s.word a) (if s.energy < s.energyFloor then 1 else 0))
  else if a = Reg.DMA_STATUS then some s.dmaStatus
  else match channelReg a with
    | some (n, off) => if off = 4 then some (s.channelStatus n) else if 8 ≤ off ∧ off < 24 then some (s.channelWord n off a) else none
    | none => none

/-! ### Registers (R9, R356, R405) -/

/-- The registers whose RO fields show the reset values while a domain is not ON, with the first bit of what they keep (R405). -/
def statusDomain (a : Nat) : Option (Nat × Nat) :=
  if a = Reg.RDO_STATUS ∨ a = Reg.RDO_LINK_STATUS then some (30, 32)
  else if Reg.COR_LANE 0 ≤ a ∧ a < Reg.COR_LANE 9 then some ((a - Reg.COR_LANE 0) / 4, 0)
  else if a = Reg.TRK_STATUS ∨ a = Reg.TRK_LIVE ∨ a = Reg.COR_WALK_STATUS then some (31, 32)
  else if a = Reg.TRK_SHADOW then some (31, 16)
  else if Reg.TRK_BGC 0 ≤ a ∧ a < Reg.TRK_BGC 4096 then some (31, 32)
  else if a = Reg.DRL_STATUS ∨ a = Reg.DRL_E_EST ∨ (Reg.DRL_THETA 0 ≤ a ∧ a < Reg.DRL_THETA 1024) then some (32, 32)
  else if a = Reg.VLV_STATUS ∨ a = Reg.VLV_AUX_STATUS ∨ (Reg.VLV_GROUP 0 ≤ a ∧ a < Reg.VLV_GROUP 16) ∨
    (Reg.VLV_COLUMN 0 ≤ a ∧ a < Reg.VLV_COLUMN 64) ∨ (Reg.VLV_VALVE 0 ≤ a ∧ a < Reg.VLV_VALVE 1024) then some (32, 32)
  else if a = Reg.HKC_STATUS ∨ (Reg.HKC_RAW 0 ≤ a ∧ a < Reg.HKC_RAW 24) then some (33, 32)
  else if a = Reg.DMA_STATUS ∨ ((channelReg a).map (fun p => p.2)) = some 4 then some (34, 32)
  else if a = Reg.NVH_LINK ∨ a = Reg.NVH_SMART ∨ a = Reg.NVH_CAP_LO ∨ a = Reg.NVH_CAP_HI then some (29, 32)
  else if Reg.ETH_P_STATUS 0 ≤ a ∧ a < Reg.ETH_P_STATUS 4 ∧ (a - Reg.ETH_P_STATUS 0) % (Reg.ETH_P_STATUS 1 - Reg.ETH_P_STATUS 0) = 0 then
    some (25 + (a - Reg.ETH_P_STATUS 0) / (Reg.ETH_P_STATUS 1 - Reg.ETH_P_STATUS 0), 16)
  else none

/-- Replace the RO fields of a word from bit `lo` up to bit `hi` by those of another. -/
def RegRow.overRo (r : RegRow) (lo hi : Nat) (old new : Nat) : Nat :=
  r.fields.foldl (fun acc f => if f.acc = .ro ∧ lo ≤ f.lo ∧ f.lo < hi then
    acc - bits acc f.lo f.width * 2 ^ f.lo + bits new f.lo f.width * 2 ^ f.lo else acc) old

/-- The RO status fields of a part whose domain is not ON read their reset values (R405). The rate of a correction lane stands above its
counter. -/
def State.maskStatus (s : State) (a : Nat) (w : Word) : Word :=
  match statusDomain a, regRow a with
  | some (d, k), some r =>
    if s.domain d = 2 then w
    else BitVec.ofNat 32 (r.overRo (if k = 0 then 16 else 0) (if k = 0 then 32 else k) w.toNat (Reg.resetWord a).toNat)
  | _, _ => w

/-- What a register reads: RWS fields their pending copy (R9), RO fields what is in force. -/
def State.regShown (s : State) (mp : Nat) (ppsIn : Bool) (a : Nat) : Word :=
  match regRow a with
  | none => 0
  | some r =>
    let w := match s.computed mp ppsIn a with
      | some w => w
      | none => BitVec.ofNat 32 (r.overRo 0 32 (s.pendingWord a).toNat (s.word a).toNat)
    s.maskStatus a w

/-- The pairs whose LO snapshots HI, by the address of LO (R356): every pair whose description says so, and HKC_RAWn with HKC_VALn
(R396). -/
def isSnapLo (a : Nat) : Bool :=
  [Reg.GEN_UID_LO, Reg.GEN_EPOS_LO, Reg.RST_LAST_TIME_LO, Reg.TBS_TIME_LO, Reg.TBS_LINE_LO, Reg.KEP_SEQ_MARK_LO, Reg.KEP_RPOS_MARK_LO,
    Reg.KEP_MPOS_LO, Reg.CAL_EVENT_LINE_LO, Reg.TRK_SEQ_NEXT_LO, Reg.TRK_ADMITTED_LO, Reg.AST_RUNS_LO, Reg.DRL_PLANS_LO, Reg.DRL_GATES_LO,
    Reg.NVH_CAP_LO, Reg.NVH_ARCHIVED_LO, Reg.ETH_REC_ACKED_LO, Reg.PTP_GM_LO, Reg.PTP_PPS_IN_LO].contains a ||
  decide (Reg.KEP_CNT_LO 0 ≤ a ∧ a < Reg.KEP_CNT_LO 1056 ∧ a % 8 = 0) || decide (Reg.HKC_RAW 0 ≤ a ∧ a < Reg.HKC_RAW 24 ∧ a % 8 = 0)

/-- The key of a latch: the path and the address of HI. -/
def latchKey (path a : Nat) : Nat := path * 2 ^ 32 + a

/-- One register word read on a path: LO latches HI, and HI reads the latch of its path (R356). -/
def State.readReg (s : State) (path mp : Nat) (ppsIn : Bool) (a : Nat) : State × Word :=
  if 4 ≤ a ∧ isSnapLo (a - 4) then (s, (Map.find s.mpt.latches (latchKey path a)).getD 0)
  else if isSnapLo a then
    ({ s with mpt := { s.mpt with latches := Map.insert s.mpt.latches (latchKey path (a + 4)) (s.regShown mp ppsIn (a + 4)) } }, s.regShown mp ppsIn a)
  else (s, s.regShown mp ppsIn a)

/-! ### Windows (R455, R374, R383) -/

/-- The SECDED fact of the 8-byte word that holds an address. -/
def factAt (facts : List (Nat × Bool)) (a : Nat) : Option Bool := (facts.find? (fun f => decide (f.1 = a / 8))).map (fun f => f.2)

/-- One word of the sheaf-store window: both copies hold the same entries; an uncorrectable word reads zero (R455). -/
def State.sheafWord (s : State) (facts : List (Nat × Bool)) (a : Nat) : Word :=
  if factAt facts a = some true then 0
  else BitVec.ofNat 32 (leNat ((List.range 4).map (fun i => s.sheafByte (a - 0x02000000 + i))))

/-- One word of the keep-store window: an error is counted once for its 8-byte word (R383). -/
def State.keepWord (s : State) (facts : List (Nat × Bool)) (first : Bool) (a : Nat) : State × Word :=
  let counts := first || decide (a % 8 = 0)
  match factAt facts a with
  | some true => (if counts then s.keepUncorr ((a - 0x04000000) / 8) else s, 0)
  | some false => (if counts then s.bump Reg.KEP_ERRORS_CORRECTED 1 else s, s.memWord a)
  | none => (s, s.memWord a)

/-- One word read on a path: a register, a window word, or zero. `first` marks the first word of its frame. -/
def State.readWord (s : State) (path : Nat) (env : ReadEnv) (first : Bool) (a : Nat) : State × Word :=
  match windowEnd a with
  | none => s.readReg path env.mp env.ppsIn a
  | some _ =>
    if a < 0x02000000 then (s, s.memWord a)
    else if a < 0x03000000 then (s, s.sheafWord env.secded a)
    else if a < 0x04000000 then (s, s.memWord a)
    else s.keepWord env.secded first a

/-! ### Written words (R9, R10, R54, R357, R483, R484) -/

/-- One action of a word as a state and whether it was REFUSED. -/
def done (s : State) : State × Bool := (s, false)

/-- MPT_CMD. -/
def State.hostMptCmd (s : State) (w : Nat) : State := if bit w 0 then (s.setWord Reg.MPT_ERRORS 0).setWord Reg.MPT_COLLIDE 0 else s

/-- COR_CMD (Table 4-11). -/
def State.hostCorCmd (s : State) (w : Nat) : State × Bool :=
  let r := thenAct (s, false) (bit w Reg.COR_CMD_BANK_SWAP.lo) State.hostBankSwap
  let r := thenAct r (bit w Reg.COR_CMD_TABLE_SWAP.lo) State.hostTableSwap
  thenAct r (bit w Reg.COR_CMD_CLR_COUNTERS.lo) (fun t => some t.clearCor)

/-- NVH_CMD (Table 11-17). -/
def State.hostNvhCmd (s : State) (w : Nat) : State × Bool :=
  let r := thenAct (s, false) (bit w Reg.NVH_CMD_FORMAT.lo) State.hostFormat
  let r := thenAct r (bit w Reg.NVH_CMD_RESTART.lo) (fun t => some t.hostRestart)
  thenAct r (bit w Reg.NVH_CMD_CLR_COUNTERS.lo) (fun t => some t.clearNvhCounters)

/-- ETH_CMD (Table 12-4). -/
def State.hostEthCmd (s : State) (w : Nat) : State × Bool :=
  let r := thenAct (s, false) (bit w Reg.ETH_CMD_CLR_COUNTERS.lo) (fun t => some t.clearEthCounters)
  thenAct r (bit w Reg.ETH_CMD_RETURN.lo) (fun t => some t.hostReturn)

/-- KEP_CMD (Table 14-9). -/
def State.hostKepCmd (s : State) (w : Nat) : State × Bool :=
  let i := Reg.KEP_CMD_INDEX.of (BitVec.ofNat 32 w)
  let a := Reg.KEP_CMD_ACTION.of (BitVec.ofNat 32 w)
  let r := thenAct (s, false) (decide (a ≠ 0)) (fun t =>
    if 1055 < i then none else if a = 1 then t.hostStore else if a = 2 then t.hostIncrement i else t.hostClear i)
  thenAct r (bit w Reg.KEP_CMD_CLR_ERRORS.lo) (fun t => some t.clearKeepErrors)

/-- RDO_CMD (Table 3-16): ACTION 1 substitute, 2 restore. -/
def State.hostRdoCmd (s : State) (w : Nat) : State × Bool :=
  let g := Reg.RDO_CMD_GROUP.of (BitVec.ofNat 32 w)
  let f := Reg.RDO_CMD_FURROW.of (BitVec.ofNat 32 w)
  let a := Reg.RDO_CMD_ACTION.of (BitVec.ofNat 32 w)
  if a = 3 then (s, false)
  else
    let r := thenAct (s, false) (bit w Reg.RDO_CMD_CLR_COUNTERS.lo) (fun t => some t.clearRdo)
    thenAct r (decide (a ≠ 0)) (fun t => if a = 1 then t.hostSubstitute g f else t.hostRestore g f)

/-- Whether a bank is closed to writes in start-up step 7 (R54). -/
def State.bankShut (s : State) (a : Nat) : Bool := decide (s.get Reg.CFG_PHASE_PHASE = 4 ∧ (a / 65536 = 0x10 ∨ a / 65536 = 0x12))

/-- A write of a WO register (R357); none for another register. -/
def State.writeCommand (s : State) (a w : Nat) : Option (State × Bool) :=
  if a = Reg.RST_FUNC then some (s.hostRstFunc w)
  else if a = Reg.RST_CMD then some (done (if bit w 0 then s.clearRst else s))
  else if a = Reg.PWR_CMD then some (if bit w 0 then s.judged s.hostHoldup else done s)
  else if a = Reg.TBS_CMD then some (done (if bit w 0 then s.clearTbs else s))
  else if a = Reg.CFG_CTRL then some (done (s.hostReload w))
  else if a = Reg.MPT_CMD then some (done (s.hostMptCmd w))
  else if a = Reg.MPT_FL_CMD then some (s.judged (s.hostFlash w))
  else if a = Reg.KEP_CMD then some (s.hostKepCmd w)
  else if a = Reg.RDO_CMD then some (s.hostRdoCmd w)
  else if a = Reg.COR_CMD then some (s.hostCorCmd w)
  else if a = Reg.COR_WALK_CMD then some (done (if bit w 0 then s.clearWalk else s))
  else if a = Reg.CAL_CMD then some (s.hostCalCmd w)
  else if a = Reg.TRK_CMD then some (done (if bit w 0 then s.clearTrk else s))
  else if a = Reg.AST_CMD then some (s.judged (s.hostAstCmd w))
  else if a = Reg.DRL_CMD then some (done (if bit w 0 then s.clearDrl else s))
  else if a = Reg.VLV_CMD then some (s.judged (s.hostVlvCmd w))
  else if a = Reg.VLV_AUX_CMD then some (s.judged (s.hostAux w))
  else if a = Reg.HKC_CMD then some (s.hostHkcCmd w)
  else if a = Reg.NVH_CMD then some (s.hostNvhCmd w)
  else if a = Reg.ETH_CMD then some (s.hostEthCmd w)
  else match channelReg a with
    | some (n, 0) => some (s.hostDmaCtrl n w)
    | _ => none

/-- The word that a register would hold after a write, for the ranges and relations that it must meet. -/
def mergedWord (r : RegRow) (s : State) (a w : Nat) : Nat := r.merge (s.pendingWord a).toNat w

/-- Whether a write is in range and keeps the relations (R483, R484). -/
def State.writeAllowed (s : State) (r : RegRow) (a w : Nat) : Bool :=
  let m := mergedWord r s a w
  wordInRange r a m && relationsAt (fun b => if b = a then BitVec.ofNat 32 m else s.pendingWord b) a

/-- What follows the write of a register besides its value. -/
def State.afterWrite (s : State) (a : Nat) : State :=
  if a = Reg.TBS_CTRL then s.syncBits
  else if a = Reg.HKC_CTRL then s.hkcCtrlEffect
  else if a = Reg.NVH_CTRL then (s.archiveUpdate.dropWrites).freeSlots
  else if a / 65536 = 0x19 ∧ Reg.NVH_R_START 0 ≤ a then s.layoutUpdate.archiveUpdate
  else if Reg.HKC_OFS 0 ≤ a ∧ a < Reg.HKC_OFS 6 then
    { s with hkc := { s.hkc with heldOfs := s.hkc.heldOfs.filter (fun p => decide (Reg.HKC_OFS p.1 ≠ a)) } }
  else s

/-- The write of an ordinary register: RW fields apply at once, RWS fields to the pending set, and a value out of range is REFUSED. -/
def State.writePlain (s : State) (a w : Nat) : Option State :=
  match regRow a with
  | none => some s
  | some r =>
    if r.fields.all (fun f => decide (f.acc = .ro ∨ f.acc = .w1c ∨ f.acc = .wo)) then
      some (s.clearOnes a (r.fields.foldl (fun m f => if f.acc = .w1c then m + bits w f.lo f.width * 2 ^ f.lo else m) 0))
    else if !s.writeAllowed r a w then none
    else if r.fields.any (fun f => decide (f.acc = .rws)) then some (s.pend a w)
    else some ((s.setWord a (BitVec.ofNat 32 (r.merge (s.word a).toNat w))).afterWrite a)

/-- TBS_PERIOD: REFUSED below the greater of MIN_PERIOD_US and COR_MIN_PERIOD (R89, R112, R427). -/
def State.hostPeriod (s : State) (w : Nat) : Option State :=
  let p := Reg.TBS_PERIOD_PERIOD.of (BitVec.ofNat 32 w)
  if p < Nat.max (100 * s.get Reg.RDO_LINK_STATUS_MIN_PERIOD_US) (s.get Reg.COR_MIN_PERIOD_MIN_PERIOD) then none
  else s.writePlain Reg.TBS_PERIOD w

/-- One written word of a register bank: the new state, and whether the word was REFUSED. -/
def State.writeReg (s : State) (a w : Nat) : State × Bool :=
  if s.bankShut a then (s, true)
  else match s.writeCommand a w with
    | some r => r
    | none =>
      if a = Reg.RDO_BIAS then s.judged (s.hostBias w)
      else if isTrim a then s.judged (s.hostTrim a w)
      else if Reg.CAL_SCRIPT_MEM 0 0 ≤ a ∧ a < Reg.CAL_SCRIPT_MEM 16 0 then s.judged (s.hostScriptWord a (BitVec.ofNat 32 w))
      else if (ownerField a).isSome then s.judged (s.hostOwner a w)
      else if a = Reg.TBS_PERIOD then s.judged (s.hostPeriod w)
      else if a = Reg.PTP_CTRL ∧ !s.ptpCtrlGood w then (s, true)
      else if a = Reg.TRK_ADMIT ∨ a = Reg.TRK_BURST then s.judged (s.accrue.writePlain a w)
      else if Reg.AST_SLOT_PROG 0 ≤ a ∧ a < Reg.AST_SLOT_PROG 16 ∧ a % 16 = Reg.AST_SLOT_PROG 0 % 16 then
        let n := (a - Reg.AST_SLOT_PROG 0) / 16
        (s.noteCheck n w).judged ((s.noteCheck n w).hostSlotProg n w)
      else if (List.range 4).any (fun p => decide (a = Reg.ETH_P_CTRL p)) then s.judged (s.hostPortCtrl ((a - Reg.ETH_P_CTRL 0) / (Reg.ETH_P_CTRL 1 - Reg.ETH_P_CTRL 0)) w)
      else if (List.range 4).any (fun p => decide (a = Reg.ETH_S_CTRL p)) then s.judged (s.hostStream ((a - Reg.ETH_S_CTRL 0) / (Reg.ETH_S_CTRL 1 - Reg.ETH_S_CTRL 0)) w)
      else if (a = Reg.MPT_FL_ADDR ∨ (Reg.MPT_FL_BUF 0 ≤ a ∧ a < Reg.MPT_FL_BUF 64)) ∧ s.mpt.flash.isSome then (s, true)
      else if Reg.PWR_REGION 8 ≤ a ∧ a < Reg.PWR_REGION 12 then done s
      else match channelReg a with
        | some (n, off) =>
          if (8 ≤ off ∧ off < 0x24) ∧ (regRow a).any (fun r => r.fields.any (fun f => decide (f.acc = .rws))) ∧ s.dataSetRefuses n a w then (s, true)
          else s.judged (s.writePlain a w)
        | none => s.judged (s.writePlain a w)

/-- One written word: a register or a window word. Words of the keep-store window are pages (R372), written whole by their frame. -/
def State.writeWord (s : State) (a : Nat) (w : Word) : State × Bool :=
  match windowEnd a with
  | none => s.writeReg a w.toNat
  | some _ =>
    if a < 0x02000000 then s.judged (s.hostStoreWord a w)
    else if a < 0x03000000 then (s, true)
    else if a < 0x04000000 then s.judged (s.hostAsterWord a w)
    else (s, true)

end Sys2Proof.Machine
end

