-- ==== Sys2Proof/Machine/Move.lean ====
section
/-!
DEFINITION. The units of maintenance transfers (spec/11_records_archive.md R310–R314; spec/14_keep_store.md R373): copy, fill and compare
through the holding register, and the commands that stand for the progress of a transfer.
-/
namespace Sys2Proof.Machine

/-- Why a transfer stopped before its last unit: the drive has answered no more bytes, a refused destination write (R311), an address
outside its space (R314), or a unit that differs in a compare (R310). -/
inductive MoveEnd where
  | short | refused | outside | differs
  deriving DecidableEq, Repr

/-- A transfer under way: the state, the bytes that the drive answers in the order in which they are read, and the keep-store pages
written so far, newest first. -/
structure Mover where
  st    : State
  rd    : List Byte
  pages : List (Nat × List Byte)
  stop  : Option MoveEnd
  deriving DecidableEq, Repr

/-! ### Addresses (R311) -/

/-- An address with its circular window of 2^n bytes around the start; none for n = 0. -/
def wrapAt (base n a : Nat) : Nat := if n = 0 then a else base / 2 ^ n * 2 ^ n + a % 2 ^ n

/-- The source and destination after k bytes. -/
def Channel.srcAfter (c : Channel) (k : Nat) : Nat := wrapAt c.srcBase (bits c.mode 12 5) (c.src + k)
def Channel.dstAfter (c : Channel) (k : Nat) : Nat := wrapAt c.dstBase (bits c.mode 17 5) (c.dst + k)

/-- The size of region 3 in bytes. -/
def State.regionBytes (s : State) : Nat := 4096 * 2 ^ s.regionLog 3

/-- Whether w bytes at an address lie in their space. -/
def State.inSpace (s : State) (drive : Bool) (a w : Nat) : Bool :=
  if drive then decide (a + w ≤ s.regionBytes)
  else decide (a + w ≤ 2 ^ 32) && !pastEnd a a && (decide (w ≤ 4) || !pastEnd (a + 4) (a + 4))

/-! ### Reads -/

/-- What the archive engine meets when it reads a word: the pin levels and the SECDED errors of that moment are free (R31; log entry 5). -/
def State.engineEnv (s : State) (a : Nat) : ReadEnv :=
  { mp := s.drawn.toNat % 256, ppsIn := bit s.drawn.toNat 8, secded := (Config.readError s.free (a / 8)).toList.map (fun u => (a / 8, u)) }

/-- One word of space 0 read by channel n in what it meets; an error is counted once for its 8-byte word. -/
def State.engineWord (s : State) (n : Nat) (env : ReadEnv) (first : Bool) (a : Nat) : State × List Byte :=
  let r := s.readWord (n + 1) env first a
  (r.1, leBytes 4 r.2.toNat)

/-- Whether a read at an address meets what is free. -/
def freeRead (a : Nat) : Bool := decide (a = Reg.GEN_PINS) || decide (0x02000000 ≤ a ∧ a < 0x03000000) || decide (0x04000000 ≤ a)

/-- One word of space 0, or the two of an 8-byte unit. -/
def State.engineRead (s : State) (n a w : Nat) : State × List Byte :=
  let env := s.engineEnv a
  let x := s.engineWord n env true a
  let y : State × List Byte := if w = 8 then x.1.engineWord n env false (a + 4) else (x.1, [])
  ((if freeRead a || (decide (w = 8) && freeRead (a + 4)) then y.1.draw else y.1), x.2 ++ y.2)

/-- A unit of w bytes read from its space. -/
def Mover.read (m : Mover) (n : Nat) (drive : Bool) (a w : Nat) : Mover × List Byte :=
  if m.stop.isSome then (m, [])
  else if !m.st.inSpace drive a w then ({ m with stop := some .outside }, [])
  else if drive then
    (if m.rd.length < w then ({ m with stop := some .short }, []) else ({ m with rd := m.rd.drop w }, m.rd.take w))
  else
    let x := m.st.engineRead n (a / 4 * 4) w
    ({ m with st := x.1 }, (x.2.drop (a % 4)).take w)

/-! ### Writes -/

/-- The word that a narrower write leaves in place: RW and RWS fields of a register, or the window word. -/
def State.wordBeside (s : State) (a : Nat) : Word :=
  match windowEnd a with
  | some _ => s.memWord a
  | none => BitVec.ofNat 32 (((regRow a).map (fun r => r.merge 0 (s.pendingWord a).toNat)).getD 0)

/-- Replace bytes of a word from byte k. -/
def overlayWord (w : Word) (k : Nat) (bs : List Byte) : Word :=
  let old := leBytes 4 w.toNat
  BitVec.ofNat 32 (leNat (old.take k ++ bs ++ old.drop (k + bs.length)))

/-- At most four bytes written to space 0: one word. -/
def State.engineWrite (s : State) (a : Nat) (bs : List Byte) : State × Bool :=
  s.writeWord (a / 4 * 4) (overlayWord (s.wordBeside (a / 4 * 4)) (a % 4) bs)

/-- Bytes written to a keep-store page of the host region; block protect does not apply (R373). -/
def Mover.writePage (m : Mover) (a : Nat) (bs : List Byte) : Mover :=
  let p := (a - 0x04000000) / 64
  if !hostPage p then { m with stop := some .refused }
  else
    let old := match m.pages.find? (fun e => decide (e.1 = p)) with
      | some e => e.2
      | none => m.st.pageNow p
    let pg := old.take (a % 64) ++ bs ++ old.drop (a % 64 + bs.length)
    match m.pages with
    | [] => { m with pages := [(p, pg)] }
    | e :: es => if e.1 = p then { m with pages := (p, pg) :: es } else { m with pages := (p, pg) :: e :: es }

/-- Add bytes to what the drive was sent: contiguous bytes of a channel join its last write. -/
def joinWrite (n block off : Nat) (bs : List Byte) : List DriveWrite → List DriveWrite
  | [] => [⟨n, block, bs, off, 0, false, none⟩]
  | [w] =>
    if w.channel = n ∧ 4096 * w.block + w.upto + w.bytes.length = 4096 * block + off then [{ w with bytes := w.bytes ++ bs }]
    else [w, ⟨n, block, bs, off, 0, false, none⟩]
  | w :: ws => w :: joinWrite n block off bs ws

/-- Bytes written to region 3. -/
def State.writeDrive (s : State) (n a : Nat) (bs : List Byte) : State :=
  { s with nvh := { s.nvh with outDrive := joinWrite n (s.regionStart 3 + a / 4096) (a % 4096) bs s.nvh.outDrive } }

/-- A unit written to its space. -/
def Mover.write (m : Mover) (n : Nat) (drive : Bool) (a : Nat) (bs : List Byte) : Mover :=
  if m.stop.isSome then m
  else if !m.st.inSpace drive a bs.length then { m with stop := some .outside }
  else if drive then { m with st := m.st.writeDrive n a bs }
  else if 0x04000000 ≤ a then m.writePage a bs
  else
    let x := m.st.engineWrite a (bs.take 4)
    if x.2 then { m with st := x.1, stop := some .refused }
    else if bs.length ≤ 4 then { m with st := x.1 }
    else
      let y := x.1.engineWrite (a + 4) (bs.drop 4)
      { m with st := y.1, stop := if y.2 then some .refused else none }

/-! ### Units (R310, R313) -/

/-- Write whole destination units out of the holding register; `k` bounds their number. -/
def Mover.drain : Nat → Nat → Mover → Channel → Mover × Channel
  | 0, _, m, c => (m, c)
  | k + 1, n, m, c =>
    if c.held.length < c.dstW then (m, c)
    else
      let out := if c.op = 1 then (leBytes 4 c.fill ++ leBytes 4 c.fill).take c.dstW else c.held.take c.dstW
      Mover.drain k n (m.write n c.dstDrive c.dst out) { c with held := c.held.drop c.dstW, dst := c.dstAfter c.dstW }

/-- Read destination units into the holding register until it covers a source unit (compare). -/
def Mover.fetch : Nat → Nat → Mover → Channel → Mover × Channel
  | 0, _, m, c => (m, c)
  | k + 1, n, m, c =>
    if c.srcW ≤ c.held.length then (m, c)
    else
      let r := m.read n c.dstDrive c.dst c.dstW
      Mover.fetch k n r.1 { c with held := c.held ++ r.2, dst := c.dstAfter c.dstW }

/-- A unit has moved: the positions and PROGRESS are those of the next one. -/
def Mover.advance (m : Mover) (n : Nat) (c : Channel) : Mover :=
  if m.stop.isSome then m
  else
    let s := m.st.setChannel n { c with left := c.left - 1 }
    { m with st := (s.bump (Reg.DMA_CH_PROGRESS_DONE n) 1).put (Reg.DMA_CH_STATUS_RETRIES n) 0 }

/-- One source unit. A unit that fails leaves the channel before it. -/
def Mover.unit (m : Mover) (n : Nat) : Mover :=
  let c := m.st.channel n
  if c.op = 1 then
    let d := Mover.drain 8 n m { c with held := c.held ++ List.replicate c.srcW 0 }
    d.1.advance n d.2
  else
    let r := m.read n c.srcDrive c.src c.srcW
    if c.op = 2 then
      let d := Mover.fetch 8 n r.1 c
      if d.1.stop.isSome then d.1
      else if d.2.held.take c.srcW ≠ r.2 then { d.1 with stop := some .differs }
      else d.1.advance n { d.2 with src := c.srcAfter c.srcW, held := d.2.held.drop c.srcW }
    else
      let d := Mover.drain 8 n r.1 { c with held := c.held ++ r.2, src := c.srcAfter c.srcW }
      d.1.advance n d.2

/-- At most k units, while the channel runs. -/
def Mover.units : Nat → Nat → Mover → Mover
  | 0, _, m => m
  | k + 1, n, m => if m.stop.isSome ∨ m.st.chState n ≠ 1 ∨ (m.st.channel n).left = 0 then m else Mover.units k n (m.unit n)

/-- The page stores of a transfer, each page as it stands after its part (R373); each waits for the one before (R367). -/
def State.storePages (s : State) (pages : List (Nat × List Byte)) : State :=
  pages.reverse.foldl (fun t e => t.storesOver.startStore ⟨.host, [e], 0, 0, 0, 0, false⟩) s

/-- Whether a maintenance channel is at work and moves units: not a snapshot (those are written whole), and with the drive ready where it
takes part. -/
def State.moves (s : State) (n : Nat) : Bool :=
  let c := s.channel n
  decide (4 ≤ n ∧ n < 8) && decide (s.chState n = 1) && !s.resetting 8 && decide (c.snapshotType n = 0) &&
    (!(c.srcDrive || c.dstDrive) || s.maintDrive)

/-- At most k units of channel n move; `rd` is what the drive answers. -/
def State.moveUnits (s : State) (n k : Nat) (rd : List Byte) : State :=
  let c := s.channel n
  if !s.moves n then s
  else if (c.srcDrive ∧ c.srcBase % 4096 ≠ 0) ∨ (c.dstDrive ∧ c.dstBase % 4096 ≠ 0) then s.lastingError n 6 c.src
  else
    let m := Mover.units k n { st := { s with nvh := { s.nvh with outDrive := [] } }, rd := rd, pages := [], stop := none }
    let s := (m.st.storePages m.pages).maintWait
    match m.stop with
    | none => s
    | some .short => s
    | some .refused => s.haltChannel n 5 (s.channel n).src
    | some .outside => s.lastingError n 6 (s.channel n).src
    | some .differs =>
      ((s.put (Reg.DMA_CH_STATUS_MISMATCH n) 1).setWord (Reg.DMA_CH_ERROR n) (BitVec.ofNat 32 (s.channel n).src)).completeMaint n

/-- k bytes that nothing here fixes (log entry 5). -/
def State.freeBytes (s : State) : Nat → State × List Byte
  | 0 => (s, [])
  | k + 1 =>
    let r := s.draw.freeBytes k
    (r.1, BitVec.ofNat 8 s.drawn.toNat :: r.2)

/-- How far a transfer has come when a WRITE frame stops it is free, and so is what the drive answered (log entry 5). -/
def State.moveSome (s : State) (n : Nat) : State :=
  if s.moves n then
    let k := s.drawn.toNat % ((s.channel n).left + 1)
    let r := s.draw.freeBytes (16 * k)
    r.1.moveUnits n k r.2
  else s

/-! ### The commands (R312–R314) -/

/-- PAUSE (R313): the units already read are written, then the channel reads PAUSED. -/
def execDmaPause (n units : Nat) (rd : List Byte) (s : State) : Host.Outcome State Fault Refusal :=
  if 8 ≤ n then .fault .noSuchPart
  else .next (if s.reaches (Reg.DMA_CH_CTRL n) then
      let s := s.moveUnits n units rd
      s.hostDone (Reg.DMA_CH_CTRL n) (s.hostDmaCtrl n 2)
    else s)

/-- ABORT (Table 11-14): ends a maintenance transfer after the unit in flight. -/
def execDmaAbort (n units : Nat) (rd : List Byte) (s : State) : Host.Outcome State Fault Refusal :=
  if 8 ≤ n then .fault .noSuchPart
  else .next (if s.reaches (Reg.DMA_CH_CTRL n) then
      let s := s.moveUnits n units rd
      s.hostDone (Reg.DMA_CH_CTRL n) (s.hostDmaCtrl n 8)
    else s)

/-- The rest of a maintenance transfer moves, and the channel completes when its last write has left the engine (R312). -/
def State.finishTransfer (s : State) (n : Nat) (rd : List Byte) : State :=
  let c := s.channel n
  if !(decide (4 ≤ n ∧ n < 8) && decide (s.chState n = 1) && !s.resetting 8) then s
  else if c.snapshotType n ≠ 0 then (if s.maintDrive then s.writeSnapshot n (c.snapshotType n) else s)
  else
    let t := s.moveUnits n c.left rd
    if t.moves n ∧ (t.channel n).left = 0 then t.completeMaint n else t

/-- CHANNEL_COMPLETE (R312). The completion of a data channel at the wrap of its region comes with the drive's answer. -/
def execChannelComplete (n : Nat) (rd : List Byte) (s : State) : Host.Outcome State Fault Refusal :=
  if 8 ≤ n then .fault .noSuchPart else .next (s.finishTransfer n rd)

/-- A bus error of a channel at work (R314): codes 1 to 4; addresses outside their space are found as units move. -/
def State.busError (s : State) (n code units : Nat) (rd : List Byte) : State :=
  if code = 0 ∨ 4 < code ∨ s.resetting 8 then s
  else if n < 4 then (if s.chShown n = 1 then s.draw.oneBusError n code s.drawn.toNat else s)
  else
    let s := s.moveUnits n units rd
    if s.chState n = 1 then s.oneBusError n code (s.channel n).src else s

/-- BUS_ERROR (R314): after `units` units have moved. -/
def execBusError (n code units : Nat) (rd : List Byte) (s : State) : Host.Outcome State Fault Refusal :=
  if 8 ≤ n then .fault .noSuchPart else .next (s.busError n code units rd)

end Sys2Proof.Machine
end

