-- ==== Sys2Proof/Machine/Port.lean ====
section
/-!
DEFINITION. The frames of the management port (spec/13_management_port.md R344–R358, R365): counting, busy answers, status words, the words
of READ and WRITE frames, and the port's own commands.
-/
namespace Sys2Proof.Machine

/-! ### The wire (R342, R344, R345) -/

/-- The lane values of the SCLK cycles that carry a byte on w lanes: bit j of a value stands on MDj (R342). -/
def laneCycles (w : Nat) (b : Byte) : List Nat := (List.range (8 / w)).map (fun i => b.toNat / 2 ^ (8 - w * (i + 1)) % 2 ^ w)

/-- The 8 bytes of a header, most significant first, and the cycles that carry them and their CRC on MD0 and MD1. -/
def headerBytes (h : FrameHeader) : List Byte := beBytes 8 h.bits.toNat
def headerCycles (h : FrameHeader) : List Nat := (headerBytes h ++ beBytes 2 h.hcrc.toNat).flatMap (laneCycles 2)

/-- The bytes of data words on the wire. -/
def wordBytes (ws : List Word) : List Byte := ws.flatMap (fun w => beBytes 4 w.toNat)

/-- The data CRC of a WRITE frame is good (R345). -/
def dataCrcOk (ws : List Word) (dcrc : BitVec 16) : Bool := decide (crc16 0xFFFF (wordBytes ws) = dcrc)

/-- The bytes of a reply: busy bytes, the start or abort byte, leading status, data, trailing status, CRC (R344, R348). -/
def Reply.bytes (r : Reply) : List Byte :=
  List.replicate r.busy 0xE7 ++ [if r.busyAbort then 0xC3 else 0x5A] ++ beBytes 2 r.leading ++ wordBytes r.data ++ beBytes 2 r.trailing ++
    beBytes 2 r.crc

/-- The lane values of its SCLK cycles. -/
def Reply.cycles (r : Reply) : List Nat := r.bytes.flatMap (laneCycles r.lanes)

/-! ### Headers and counting (R346, R347, R354) -/

/-- A valid header: the header CRC is good, WIDTH is not 3, no reserved bit is set, OPCODE is defined, and LEN is 0 in a NOP or SYNC. -/
def headerOk (h : FrameHeader) : Bool :=
  decide (crc16 0xFFFF (headerBytes h) = h.hcrc) && decide (h.width < 3 ∧ h.reserved = 0 ∧ h.opcode ≤ 3 ∧ ((h.opcode = 0 ∨ h.opcode = 3) → h.len = 0))

/-- Start-up steps 1 to 5, in which every frame is answered busy (R53). -/
def State.starting (s : State) : Bool := decide (s.cfg.stage = .loading ∨ s.cfg.stage = .accepted)

/-- An invalid header: nothing is driven and nothing executed; it is counted in BAD_HEADER and shown in the next leading status (R347). -/
def State.invalidFrame (s : State) : State :=
  { s.bump Reg.MPT_ERRORS_BAD_HEADER 1 with mpt := { s.mpt with badHeader := true, reply := none } }

/-- A frame with a header: SEL_N falls (R360), an invalid header is counted, and a valid one with its command's OPCODE is served. -/
def State.onFrame (s : State) (h : FrameHeader) (op : Nat) (k : State → State) : State :=
  if s.cfg.stage = .off then s
  else if !headerOk h then s.selFall.invalidFrame
  else if h.opcode = op then k s.selFall
  else s

/-- What a frame with a valid header finds: it is counted, its ALIVE differs from the expectation, and the trailing bits of its address. -/
structure FrameFacts where
  counted  : Bool
  aliveErr : Bool
  dcrcErr  : Bool
  range    : Bool
  align    : Bool
  timeout  : Bool
  starting : Bool
  unconf   : Bool
  deriving DecidableEq, Repr

/-- Whether the ALIVE of a frame matches the expectation (R354). -/
def State.aliveFits (s : State) (alive : Nat) : Bool :=
  s.flag Reg.MPT_STATUS_EXPECT_ANY || decide (alive % 16 = s.get Reg.MPT_STATUS_EXPECT)

/-- The number of words of a burst that lie in the bank or window in which it began (R355). -/
def wordsInside (a n : Nat) : Nat :=
  match regionLimit a with
  | some l => Nat.min n ((l - a + 3) / 4)
  | none => 0

/-- Whether a frame addresses the keep-store window. -/
def keepFrame (h : FrameHeader) : Bool := decide (0x04000000 ≤ h.addr ∧ h.addr < 0x04040000)

/-- The facts of a frame. `burst` is the number of words that a READ or WRITE accesses; a NOP and a SYNC access none. A frame meets TIMEOUT in
start-up steps 1 to 5, and where the JT4096 is not ready after BUSY_LIMIT busy bytes; one that becomes ready as the limit is reached is served
(R348, R350, Table 13-5). The bulk store of the save sequence is not waited for (log entry 92). -/
def State.frameFacts (s : State) (h : FrameHeader) (sync : Bool) (burst : Nat) (dcrcOk : Bool) : FrameFacts :=
  { counted := !s.starting && (sync || s.aliveFits h.alive)
    aliveErr := !sync && !s.aliveFits h.alive
    dcrcErr := !dcrcOk
    range := decide (wordsInside h.addr burst < burst)
    align := decide (h.addr % 4 ≠ 0)
    timeout := s.starting || decide (s.get Reg.MPT_CTRL_BUSY_LIMIT < h.busy) || (decide (burst ≠ 0) && keepFrame h && s.bulkRuns)
    starting := s.starting
    unconf := decide (s.cfg.stage = .unconfigured) && !s.reaches h.addr }

/-- A frame of the keep-store window that is served has waited for the stores that ran or were pending (R374, Table 13-5). -/
def State.awaitStores (s : State) (h : FrameHeader) (f : FrameFacts) : State := if keepFrame h && !f.timeout then s.storesOver else s

/-- The expectation after a frame, and the counters of MPT_ERRORS (R354, Table 13-13). The value that EXPECT shows while the expectation
is "any" is free (log entry 5). -/
def State.countFrame (s : State) (h : FrameHeader) (sync : Bool) (f : FrameFacts) : State :=
  let s := if f.counted then s else s.bump Reg.MPT_ERRORS_ALIVE_ERR 1
  let s := if f.dcrcErr then s.bump Reg.MPT_ERRORS_DCRC_ERR 1 else s
  let s := if f.timeout then s.bump Reg.MPT_ERRORS_TIMEOUT 1 else s
  if !f.counted then s
  else if sync then (s.draw.put Reg.MPT_STATUS_EXPECT (s.drawn.toNat % 16)).put Reg.MPT_STATUS_EXPECT_ANY 1
  else (s.put Reg.MPT_STATUS_EXPECT ((h.alive + 1) % 16)).put Reg.MPT_STATUS_EXPECT_ANY 0

/-! ### Replies (R348, R351, R352) -/

/-- The leading status (Table 13-6). -/
def State.leadingStatus (s : State) : Nat :=
  bitsOf [s.mpt.prevCounted, s.mpt.prevApplied, s.mpt.prevRefused, s.mpt.prevDiscarded, s.mpt.badHeader, s.mpt.collision, s.alertN,
    s.flag Reg.MPT_FL_STATUS_BUSY]

/-- The trailing status (Table 13-7). -/
def FrameFacts.trailing (f : FrameFacts) (expect : Nat) : Nat :=
  bitsOf [f.counted, f.aliveErr, f.dcrcErr, f.range, f.align, f.timeout, f.starting, f.unconf] + 4096 * expect

/-- The reply to a frame (R344, R345). -/
def replyOf (busy : Nat) (timeout : Bool) (width leading : Nat) (data : List Word) (trailing : Nat) : Reply :=
  { busy := busy
    busyAbort := timeout
    lanes := 2 * 2 ^ width
    leading := leading
    data := data
    trailing := trailing
    crc := (crc16 0xFFFF (beBytes 2 leading ++ wordBytes data ++ beBytes 2 trailing)).toNat }

/-- Send the reply to a frame: what has occurred since the last reply has now been told. -/
def State.reply (s : State) (h : FrameHeader) (f : FrameFacts) (data : List Word) : State :=
  { s with mpt := { s.mpt with
      reply := some (replyOf (if f.timeout then s.get Reg.MPT_CTRL_BUSY_LIMIT else h.busy) f.timeout h.width s.leadingStatus data (f.trailing (s.get Reg.MPT_STATUS_EXPECT)))
      badHeader := false
      collision := false } }

/-- What the next leading status says of a frame that applied nothing (R351). -/
def State.unapplied (s : State) (counted write : Bool) : State :=
  { s with mpt := { s.mpt with prevCounted := counted, prevApplied := false, prevRefused := false, prevDiscarded := write } }

/-- A NOP or SYNC frame. -/
def State.plainFrame (s : State) (h : FrameHeader) (sync : Bool) : State :=
  let f := s.frameFacts h sync 0 true
  ((s.countFrame h sync f).reply h f []).unapplied f.counted false

/-- NOP (R346). -/
def execFrameNop (h : FrameHeader) (s : State) : Host.Outcome State Fault Refusal := .next (s.onFrame h 0 (fun t => t.plainFrame h false))

/-- SYNC_FRAME (R354). -/
def execFrameSync (h : FrameHeader) (s : State) : Host.Outcome State Fault Refusal := .next (s.onFrame h 3 (fun t => t.plainFrame h true))

/-- INVALID_HEADER (R347): a frame whose header is not valid, or whose SEL_N rises before its CRC is complete; what the header held changes
nothing. A frame whose header bits are given, and not valid, ends the same way (State.onFrame). -/
def execInvalidHeader (s : State) : Host.Outcome State Fault Refusal :=
  .next (if s.cfg.stage ≠ .off then s.selFall.invalidFrame else s)

/-! ### READ (R353, R355, R356) -/

/-- Read k words upward from an address on the management port's path. -/
def State.readWords (s : State) (env : ReadEnv) (first : Bool) (a : Nat) : Nat → State × List Word
  | 0 => (s, [])
  | k + 1 =>
    let r := s.readWord 0 env first a
    let t := r.1.readWords env false (a + 4) k
    (t.1, r.2 :: t.2)

/-- The data of a READ frame: zeros with ALIVE_ERR, ALIGN or UNCONF, and past the end of the bank or window. -/
def State.readData (s : State) (h : FrameHeader) (env : ReadEnv) (f : FrameFacts) : State × List Word :=
  if f.timeout then (s, [])
  else if f.aliveErr || f.align || f.unconf then (s, List.replicate (h.len + 1) 0)
  else
    let k := wordsInside h.addr (h.len + 1)
    let r := s.readWords env true h.addr k
    (r.1, r.2 ++ List.replicate (h.len + 1 - k) 0)

/-- A READ frame. -/
def State.readFrame (s : State) (h : FrameHeader) (env : ReadEnv) : State :=
  let f := s.frameFacts h false (h.len + 1) true
  let r := ((s.awaitStores h f).countFrame h false f).readData h env f
  (r.1.reply h f r.2).unapplied f.counted false

/-- READ (R356). -/
def execFrameRead (h : FrameHeader) (env : ReadEnv) (s : State) : Host.Outcome State Fault Refusal :=
  .next (s.onFrame h 1 (fun t => t.readFrame h env))

/-! ### WRITE (R353, R355, R357, R372) -/

/-- One word of a WRITE frame; a transfer that it pauses or ends has come some way by then. -/
def State.portWord (s : State) (a : Nat) (w : Word) : State × Bool :=
  match channelReg a with
  | some (n, 0) => (if bit w.toNat 1 ∨ bit w.toNat 3 then s.moveSome n else s).writeWord a w
  | _ => s.writeWord a w

/-- The words of a WRITE frame take effect at the rise of SEL_N: a page of the keep store, or word by word. -/
def State.applyFrame (s : State) (h : FrameHeader) (words : List Word) (range : Bool) : State :=
  let t :=
    if keepFrame h then s.host h.addr (s.hostPageWrite h.addr words)
    else
      let r := applyWords State.portWord s h.addr (words.take (wordsInside h.addr (h.len + 1)))
      r.1.wordsDone r.2
  if range then { t with mpt := { t.mpt with prevApplied := false } } else t

/-- A WRITE frame in the unconfigured state to an address that is not served: the word of RST_FUNC is REFUSED (R447), every other one is
discarded. -/
def State.unservedWrite (s : State) (h : FrameHeader) : State :=
  if h.addr ≤ Reg.RST_FUNC ∧ Reg.RST_FUNC ≤ h.addr + 4 * h.len ∧ h.addr / 65536 = 2 then
    let t := s.refuse Reg.RST_FUNC
    { t with mpt := { t.mpt with prevDiscarded := true } }
  else s.unapplied true true

/-- The words of a WRITE frame that must lie in one bank or window: in the keep-store window the first alone, since the others stay in its page
(R372, R374). -/
def writeBurst (h : FrameHeader) : Nat := if keepFrame h then 1 else h.len + 1

/-- A WRITE frame. -/
def State.writeFrame (s : State) (h : FrameHeader) (words : List Word) (dcrcOk heldToStart : Bool) : State :=
  let f := s.frameFacts h false (writeBurst h) dcrcOk
  let s := (s.awaitStores h f).countFrame h false f
  let s := if heldToStart then s.reply h f [] else s
  if !f.counted || f.dcrcErr || f.align || f.timeout || !heldToStart then s.unapplied f.counted true
  else if f.unconf then s.unservedWrite h
  else s.applyFrame h words f.range

/-- WRITE (R357). -/
def execFrameWrite (h : FrameHeader) (words : List (BitVec 32)) (dcrc : BitVec 16) (heldToStart : Bool) (s : State) :
    Host.Outcome State Fault Refusal :=
  .next (s.onFrame h 2 (fun t => t.writeFrame h words (dataCrcOk words dcrc) heldToStart))

/-! ### The port's own commands -/

/-- ALERT_CLEAR (R365): a W1C write to MPT_ALERT. -/
def execAlertClear (mask : Nat) (s : State) : Host.Outcome State Fault Refusal :=
  .next (s.host Reg.MPT_ALERT (s.writePlain Reg.MPT_ALERT mask))

/-- MPT_CLR_COUNTERS (Table 13-12). -/
def execMptClrCounters (s : State) : Host.Outcome State Fault Refusal := .next (s.host Reg.MPT_CMD (some (s.hostMptCmd 1)))

end Sys2Proof.Machine
end

