-- ==== Sys2Proof/Machine/Streams.lean ====
section
/-!
DEFINITION. Row slots (spec/03_sensor_readout.md R62), and the line and raw-row streams (spec/12_ethernet_ptp.md R325, R326; the drops of
spec/16_power.md R413).
-/
namespace Sys2Proof.Machine

/-- Whether a best-effort stream's packets go out: its port is READY, else they are discarded (R319). -/
def State.streamReady (s : State) (st : Nat) : Bool := s.portReady (s.get (Reg.ETH_S_CTRL_PORT st))

/-! ### The raw-row stream (R326) -/

/-- RAW_ROW_PACKET: the next complete slot is sent, or counted in RAW_LOST when it is dropped, discarded or not complete. -/
def State.rawPacket (s : State) : State :=
  match s.rdo.rawReady with
  | [] => s
  | (line, slot, codes) :: rest =>
    let d := dropStep s.pwr.rawAcc (s.stageLevel 2)
    let s := { s with rdo := { s.rdo with rawReady := rest }, pwr := { s.pwr with rawAcc := d.1 } }
    match codes with
    | some cs =>
      if d.2 ∨ !s.streamReady 1 then s.bump Reg.ETH_LOSS_RAW_LOST 1
      else s.newPackets.sendStream 1 (s.get (Reg.ETH_S_CTRL_PORT 1)) 0 line (s.get (Reg.ETH_S_CTRL_RAW_MODE 1)) slot (cs.flatMap (fun c => leBytes 2 c))
    | none => s.bump Reg.ETH_LOSS_RAW_LOST 1

/-- A slot of a lost link cannot be sent. -/
def State.rawMissing (s : State) (slot : Nat) : State :=
  if s.flag (Reg.ETH_S_CTRL_EN 1) ∧ (s.get (Reg.ETH_S_CTRL_RAW_MODE 1) = 0 ∨ 0 < slot) then s.bump Reg.ETH_LOSS_RAW_LOST 1 else s

/-- The tick at which a row slot starts (R62). -/
def State.slotTick (s : State) (k : Nat) : Nat := s.time.lineTick + (rhe ((k * s.get Reg.TBS_STATUS_PERIOD_NOW : Nat) : Int) 25).toNat

/-- ROW_SLOT (R62): the next slot of the line starts at its tick, and one raw-row packet is sent. -/
def execRowSlot (s : State) : Host.Outcome State Fault Refusal :=
  .next (
    let k := s.rdo.slot
    if !s.time.lines ∨ 25 ≤ k then s
    else
      let s := s.elapseTo (s.slotTick k)
      let s := { s with rdo := { s.rdo with slot := k + 1 } }
      (if s.linkLostNow then s.rawMissing k else s).rawPacket)

/-! ### The line stream (R325) -/

/-- The flag summary of a run of columns: the OR of each 64. -/
def flagSummary (px : List FieldPixel) : Nat → List Byte
  | 0 => []
  | n + 1 => leBytes 2 ((px.take 64).foldl (fun a p => a ||| p.flags) 0) ++ flagSummary (px.drop 64) n

/-- The payload of a packet of columns. -/
def linePayload (px : List FieldPixel) : List Byte := flagSummary px (px.length / 64) ++ px.flatMap (fun p => leBytes 2 (t16 p.value))

/-- The packets of field line n. -/
def State.linePackets (s : State) (n : Nat) : State :=
  let p := s.get (Reg.ETH_S_CTRL_PORT 0)
  let parts := if s.flag (Reg.ETH_P_CTRL_JUMBO p) then 1 else 8
  if !s.streamReady 0 then s.bump Reg.ETH_LOSS_LINE_LOST parts
  else
    let px := (List.range 4096).map (fun c => (s.ringEntry n c).getD ⟨0, 0, 0, none⟩)
    let width := 4096 / parts
    let cal := if s.blindLine n then 2 else 0
    (List.range parts).foldl (fun t i =>
      t.sendStream 0 p (cal + (if i + 1 = parts then 8 else 0)) n width (width * i) (linePayload ((px.drop (width * i)).take width))) s.newPackets

/-- The next line of the line stream that is in the ring. -/
def State.nextLine (s : State) : Option Nat :=
  s.walk.formed.foldl (fun b m => if m < s.eth.lineNext then b else match b with
    | some x => some (Nat.min x m)
    | none => some m) none

/-- LINE_PACKET_SEND (R325): a line under the stream stage of throttling is not sent, and counted (R413). -/
def execLinePacketSend (s : State) : Host.Outcome State Fault Refusal :=
  .next (if !s.flag (Reg.ETH_S_CTRL_EN 0) then s
    else match s.nextLine with
      | none => s
      | some n =>
        let d := dropStep s.pwr.lineAcc (s.stageLevel 2)
        let s := { s with eth := { s.eth with lineNext := n + 1 }, pwr := { s.pwr with lineAcc := d.1 } }
        if d.2 then s.bump Reg.ETH_LOSS_LINE_LOST 1 else s.linePackets n)

end Sys2Proof.Machine
end

