-- ==== Sys2Proof/Machine/Dispatch.lean ====
section
/-! DEFINITION. One arm per command of spec/opcode_table.json; each calls that command's meaning. -/

namespace Sys2Proof.Machine

def exec (i : Instr) (s : State) : Host.Outcome State Fault Refusal :=
  match i with
  | .startUp f k h => Sys2Proof.Machine.execStartUp f k h s
  | .rstNPulse ns => Sys2Proof.Machine.execRstNPulse ns s
  | .pllLock => Sys2Proof.Machine.execPllLock s
  | .imageRecordCheck r => Sys2Proof.Machine.execImageRecordCheck r s
  | .commit => Sys2Proof.Machine.execCommit s
  | .lsyncStartTimeout => Sys2Proof.Machine.execLsyncStartTimeout s
  | .settlingEvaluation => Sys2Proof.Machine.execSettlingEvaluation s
  | .cfgReload slot => Sys2Proof.Machine.execCfgReload slot s
  | .reloadDrained => Sys2Proof.Machine.execReloadDrained s
  | .reloadTimeout => Sys2Proof.Machine.execReloadTimeout s
  | .cfgOwnershipWrite addr value => Sys2Proof.Machine.execCfgOwnershipWrite addr value s
  | .pfiNRecognised mv => Sys2Proof.Machine.execPfiNRecognised mv s
  | .vkeepLowRecognised mv => Sys2Proof.Machine.execVkeepLowRecognised mv s
  | .saveBulkStoreCommit w mv => Sys2Proof.Machine.execSaveBulkStoreCommit w mv s
  | .heldExit => Sys2Proof.Machine.execHeldExit s
  | .vkeepCollapse => Sys2Proof.Machine.execVkeepCollapse s
  | .lineBoundary => Sys2Proof.Machine.execLineBoundary s
  | .lsyncPulse w => Sys2Proof.Machine.execLsyncPulse w s
  | .lsyncLost => Sys2Proof.Machine.execLsyncLost s
  | .ftachPulse w => Sys2Proof.Machine.execFtachPulse w s
  | .ppsInEdge w => Sys2Proof.Machine.execPpsInEdge w s
  | .ppsOutPulse => Sys2Proof.Machine.execPpsOutPulse s
  | .rowSlot => Sys2Proof.Machine.execRowSlot s
  | .groupFrameReceived lane f => Sys2Proof.Machine.execGroupFrameReceived lane f s
  | .blockLockLost lane => Sys2Proof.Machine.execBlockLockLost lane s
  | .furrowSubstitute group furrow => Sys2Proof.Machine.execFurrowSubstitute group furrow s
  | .furrowRestore group furrow => Sys2Proof.Machine.execFurrowRestore group furrow s
  | .rdoClrCounters => Sys2Proof.Machine.execRdoClrCounters s
  | .biasWrite value => Sys2Proof.Machine.execBiasWrite value s
  | .thermStale k => Sys2Proof.Machine.execThermStale k s
  | .pixelIssue => Sys2Proof.Machine.execPixelIssue s
  | .laneResult lane w transit mismatch err => Sys2Proof.Machine.execLaneResult lane w transit mismatch err s
  | .laneStall lane => Sys2Proof.Machine.execLaneStall lane s
  | .bankSwap => Sys2Proof.Machine.execBankSwap s
  | .tableSwap => Sys2Proof.Machine.execTableSwap s
  | .corClrCounters => Sys2Proof.Machine.execCorClrCounters s
  | .coefficientWindowWrite addr words => Sys2Proof.Machine.execCoefficientWindowWrite addr words s
  | .lagTableBuilt => Sys2Proof.Machine.execLagTableBuilt s
  | .fieldLineComplete w ecc => Sys2Proof.Machine.execFieldLineComplete w ecc s
  | .sheafImageComplete w slot => Sys2Proof.Machine.execSheafImageComplete w slot s
  | .aggregateRecord => Sys2Proof.Machine.execAggregateRecord s
  | .intervalRequest => Sys2Proof.Machine.execIntervalRequest s
  | .calEventRequest => Sys2Proof.Machine.execCalEventRequest s
  | .calCancel => Sys2Proof.Machine.execCalCancel s
  | .calRun script => Sys2Proof.Machine.execCalRun script s
  | .calClrCounters => Sys2Proof.Machine.execCalClrCounters s
  | .shutterScriptStart => Sys2Proof.Machine.execShutterScriptStart s
  | .calGapTimeout => Sys2Proof.Machine.execCalGapTimeout s
  | .crocusEnd code => Sys2Proof.Machine.execCrocusEnd code s
  | .crocusWait lines => Sys2Proof.Machine.execCrocusWait lines s
  | .crocusGap => Sys2Proof.Machine.execCrocusGap s
  | .crocusPlate lines => Sys2Proof.Machine.execCrocusPlate lines s
  | .crocusClose => Sys2Proof.Machine.execCrocusClose s
  | .crocusSettle lines => Sys2Proof.Machine.execCrocusSettle lines s
  | .crocusFlag lines => Sys2Proof.Machine.execCrocusFlag lines s
  | .crocusOpen => Sys2Proof.Machine.execCrocusOpen s
  | .crocusResume => Sys2Proof.Machine.execCrocusResume s
  | .crocusSolve sel => Sys2Proof.Machine.execCrocusSolve sel s
  | .solveComplete => Sys2Proof.Machine.execSolveComplete s
  | .crocusSwap => Sys2Proof.Machine.execCrocusSwap s
  | .crocusTrimCap => Sys2Proof.Machine.execCrocusTrimCap s
  | .crocusTrimSkim => Sys2Proof.Machine.execCrocusTrimSkim s
  | .crocusTrimDac dac => Sys2Proof.Machine.execCrocusTrimDac dac s
  | .crocusJumpIf cond target => Sys2Proof.Machine.execCrocusJumpIf cond target s
  | .crocusEvent code => Sys2Proof.Machine.execCrocusEvent code s
  | .scriptLinesDone biasMv => Sys2Proof.Machine.execScriptLinesDone biasMv s
  | .flagOpenRetry => Sys2Proof.Machine.execFlagOpenRetry s
  | .qualTimeout => Sys2Proof.Machine.execQualTimeout s
  | .trimWrite addr value => Sys2Proof.Machine.execTrimWrite addr value s
  | .scriptWrite addr value => Sys2Proof.Machine.execScriptWrite addr value s
  | .engineAccept w ecc => Sys2Proof.Machine.execEngineAccept w ecc s
  | .asterAdd x d a b => Sys2Proof.Machine.execAsterAdd x d a b s
  | .asterSub x d a b => Sys2Proof.Machine.execAsterSub x d a b s
  | .asterMul x d a b => Sys2Proof.Machine.execAsterMul x d a b s
  | .asterMuls x d a b fn => Sys2Proof.Machine.execAsterMuls x d a b fn s
  | .asterDiv x d a b => Sys2Proof.Machine.execAsterDiv x d a b s
  | .asterAnd x d a b => Sys2Proof.Machine.execAsterAnd x d a b s
  | .asterOr x d a b => Sys2Proof.Machine.execAsterOr x d a b s
  | .asterXor x d a b => Sys2Proof.Machine.execAsterXor x d a b s
  | .asterMin x d a b => Sys2Proof.Machine.execAsterMin x d a b s
  | .asterMax x d a b => Sys2Proof.Machine.execAsterMax x d a b s
  | .asterAbs x d a => Sys2Proof.Machine.execAsterAbs x d a s
  | .asterSqrt x d a => Sys2Proof.Machine.execAsterSqrt x d a s
  | .asterSlt x d a b => Sys2Proof.Machine.execAsterSlt x d a b s
  | .asterShl x d a b => Sys2Proof.Machine.execAsterShl x d a b s
  | .asterSra x d a b => Sys2Proof.Machine.execAsterSra x d a b s
  | .asterAddi x d a imm => Sys2Proof.Machine.execAsterAddi x d a imm s
  | .asterLi x d imm => Sys2Proof.Machine.execAsterLi x d imm s
  | .asterLih x d imm => Sys2Proof.Machine.execAsterLih x d imm s
  | .asterAndi x d a imm => Sys2Proof.Machine.execAsterAndi x d a imm s
  | .asterSlti x d a imm => Sys2Proof.Machine.execAsterSlti x d a imm s
  | .asterShli x d a imm => Sys2Proof.Machine.execAsterShli x d a imm s
  | .asterSrai x d a imm => Sys2Proof.Machine.execAsterSrai x d a imm s
  | .asterLdw x d a imm => Sys2Proof.Machine.execAsterLdw x d a imm s
  | .asterLdh x d a imm => Sys2Proof.Machine.execAsterLdh x d a imm s
  | .asterLds x d a imm => Sys2Proof.Machine.execAsterLds x d a imm s
  | .asterSts x d a imm => Sys2Proof.Machine.execAsterSts x d a imm s
  | .asterWin x a b fn => Sys2Proof.Machine.execAsterWin x a b fn s
  | .asterPix x d a b => Sys2Proof.Machine.execAsterPix x d a b s
  | .asterRed x d a mode => Sys2Proof.Machine.execAsterRed x d a mode s
  | .asterHist x a b => Sys2Proof.Machine.execAsterHist x a b s
  | .asterBr x cond a b target => Sys2Proof.Machine.execAsterBr x cond a b target s
  | .asterFeat x k a => Sys2Proof.Machine.execAsterFeat x k a s
  | .asterVerd x verdict a sel cls => Sys2Proof.Machine.execAsterVerd x verdict a sel cls s
  | .deadlinePassed slot => Sys2Proof.Machine.execDeadlinePassed slot s
  | .engineStall e => Sys2Proof.Machine.execEngineStall e s
  | .engineSelftest e w pass => Sys2Proof.Machine.execEngineSelftest e w pass s
  | .engineRestore e pass => Sys2Proof.Machine.execEngineRestore e pass s
  | .astClrCounters => Sys2Proof.Machine.execAstClrCounters s
  | .slotProgWrite n value => Sys2Proof.Machine.execSlotProgWrite n value s
  | .asterMemoryWrite addr words => Sys2Proof.Machine.execAsterMemoryWrite addr words s
  | .pullInRequest v => Sys2Proof.Machine.execPullInRequest v s
  | .pullInStart v w => Sys2Proof.Machine.execPullInStart v w s
  | .deferralLimit v arrive => Sys2Proof.Machine.execDeferralLimit v arrive s
  | .vboostStale => Sys2Proof.Machine.execVboostStale s
  | .drlClrCounters => Sys2Proof.Machine.execDrlClrCounters s
  | .peakReached v w blank codes => Sys2Proof.Machine.execPeakReached v w blank codes s
  | .peakTimeout v blank codes => Sys2Proof.Machine.execPeakTimeout v blank codes s
  | .chopPeriod c w codes => Sys2Proof.Machine.execChopPeriod c w codes s
  | .dipFound v w first codes => Sys2Proof.Machine.execDipFound v w first codes s
  | .openLoadCheck v codes gsn => Sys2Proof.Machine.execOpenLoadCheck v codes gsn s
  | .actuationEnd v blank codes => Sys2Proof.Machine.execActuationEnd v blank codes s
  | .valveReleased v => Sys2Proof.Machine.execValveReleased v s
  | .valveFault w code index codes => Sys2Proof.Machine.execValveFault w code index codes s
  | .idleScan w gsn cols => Sys2Proof.Machine.execIdleScan w gsn cols s
  | .valveEnable target index code => Sys2Proof.Machine.execValveEnable target index code s
  | .matrixResume => Sys2Proof.Machine.execMatrixResume s
  | .vlvClrCounters => Sys2Proof.Machine.execVlvClrCounters s
  | .armAssert => Sys2Proof.Machine.execArmAssert s
  | .armDeassert => Sys2Proof.Machine.execArmDeassert s
  | .auxCommand value => Sys2Proof.Machine.execAuxCommand value s
  | .auxDurationEnd x => Sys2Proof.Machine.execAuxDurationEnd x s
  | .recordRelease w ecc => Sys2Proof.Machine.execRecordRelease w ecc s
  | .recFlushTimeout => Sys2Proof.Machine.execRecFlushTimeout s
  | .nvmeCommandComplete a => Sys2Proof.Machine.execNvmeCommandComplete a s
  | .nvmeTimeout => Sys2Proof.Machine.execNvmeTimeout s
  | .pcieLinkLoss => Sys2Proof.Machine.execPcieLinkLoss s
  | .driveRetry => Sys2Proof.Machine.execDriveRetry s
  | .pcieLinkUp gen width e => Sys2Proof.Machine.execPcieLinkUp gen width e s
  | .controllerReady => Sys2Proof.Machine.execControllerReady s
  | .smartPoll warning used kelvin => Sys2Proof.Machine.execSmartPoll warning used kelvin s
  | .nvhFormat => Sys2Proof.Machine.execNvhFormat s
  | .nvhRestart => Sys2Proof.Machine.execNvhRestart s
  | .nvhClrCounters => Sys2Proof.Machine.execNvhClrCounters s
  | .dmaStart n => Sys2Proof.Machine.execDmaStart n s
  | .dmaPause n units rd => Sys2Proof.Machine.execDmaPause n units rd s
  | .channelResume n => Sys2Proof.Machine.execChannelResume n s
  | .dmaAbort n units rd => Sys2Proof.Machine.execDmaAbort n units rd s
  | .channelComplete n rd => Sys2Proof.Machine.execChannelComplete n rd s
  | .busError n code units rd => Sys2Proof.Machine.execBusError n code units rd s
  | .dataChannelHandover n => Sys2Proof.Machine.execDataChannelHandover n s
  | .dmaIrqClear mask => Sys2Proof.Machine.execDmaIrqClear mask s
  | .arpRequest p f => Sys2Proof.Machine.execArpRequest p f s
  | .recordAck p f seq nack => Sys2Proof.Machine.execRecordAck p f seq nack s
  | .frameDropped p f => Sys2Proof.Machine.execFrameDropped p f s
  | .ptpAnnounce p f m => Sys2Proof.Machine.execPtpAnnounce p f m s
  | .ptpSync p f m => Sys2Proof.Machine.execPtpSync p f m s
  | .ptpFollowUp p f m => Sys2Proof.Machine.execPtpFollowUp p f m s
  | .ptpDelayResp p f m => Sys2Proof.Machine.execPtpDelayResp p f m s
  | .ptpDelayReq => Sys2Proof.Machine.execPtpDelayReq s
  | .ptpHoldover => Sys2Proof.Machine.execPtpHoldover s
  | .holdoverExpiry => Sys2Proof.Machine.execHoldoverExpiry s
  | .portLinkChange p link localFault remoteFault hiBer corrected uncorrected => Sys2Proof.Machine.execPortLinkChange p link localFault remoteFault hiBer corrected uncorrected s
  | .portReady p => Sys2Proof.Machine.execPortReady p s
  | .portCtrlWrite p value => Sys2Proof.Machine.execPortCtrlWrite p value s
  | .streamAssign st value => Sys2Proof.Machine.execStreamAssign st value s
  | .portRetain p => Sys2Proof.Machine.execPortRetain p s
  | .portWake p => Sys2Proof.Machine.execPortWake p s
  | .recordPacketSend => Sys2Proof.Machine.execRecordPacketSend s
  | .retransmitTimeout => Sys2Proof.Machine.execRetransmitTimeout s
  | .keepalive => Sys2Proof.Machine.execKeepalive s
  | .recordFailover => Sys2Proof.Machine.execRecordFailover s
  | .ethReturn => Sys2Proof.Machine.execEthReturn s
  | .ethClrCounters => Sys2Proof.Machine.execEthClrCounters s
  | .linePacketSend => Sys2Proof.Machine.execLinePacketSend s
  | .eventPacketSend => Sys2Proof.Machine.execEventPacketSend s
  | .frameNop h => Sys2Proof.Machine.execFrameNop h s
  | .frameRead h env => Sys2Proof.Machine.execFrameRead h env s
  | .frameWrite h words dcrc heldToStart => Sys2Proof.Machine.execFrameWrite h words dcrc heldToStart s
  | .frameSync h => Sys2Proof.Machine.execFrameSync h s
  | .invalidHeader => Sys2Proof.Machine.execInvalidHeader s
  | .masterCollision => Sys2Proof.Machine.execMasterCollision s
  | .flashTransferResume => Sys2Proof.Machine.execFlashTransferResume s
  | .flashRead lenM1 => Sys2Proof.Machine.execFlashRead lenM1 s
  | .flashProgram lenM1 => Sys2Proof.Machine.execFlashProgram lenM1 s
  | .flashErase4k => Sys2Proof.Machine.execFlashErase4k s
  | .flashErase64k => Sys2Proof.Machine.execFlashErase64k s
  | .flashReadStatus => Sys2Proof.Machine.execFlashReadStatus s
  | .flashStatusPoll sr => Sys2Proof.Machine.execFlashStatusPoll sr s
  | .flashOpDone r => Sys2Proof.Machine.execFlashOpDone r s
  | .flashOpTimeout => Sys2Proof.Machine.execFlashOpTimeout s
  | .alertClear mask => Sys2Proof.Machine.execAlertClear mask s
  | .mptClrCounters => Sys2Proof.Machine.execMptClrCounters s
  | .keepPageWrite addr words => Sys2Proof.Machine.execKeepPageWrite addr words s
  | .storeCommit => Sys2Proof.Machine.execStoreCommit s
  | .storeComplete => Sys2Proof.Machine.execStoreComplete s
  | .countPeriodStore => Sys2Proof.Machine.execCountPeriodStore s
  | .keepStore => Sys2Proof.Machine.execKeepStore s
  | .counterIncrement idx => Sys2Proof.Machine.execCounterIncrement idx s
  | .counterClear idx => Sys2Proof.Machine.execCounterClear idx s
  | .kepClrErrors => Sys2Proof.Machine.execKepClrErrors s
  | .operationMinute => Sys2Proof.Machine.execOperationMinute s
  | .hkcPassStart => Sys2Proof.Machine.execHkcPassStart s
  | .hkcEntryDone code ovr => Sys2Proof.Machine.execHkcEntryDone code ovr s
  | .selfCal gain => Sys2Proof.Machine.execSelfCal gain s
  | .excCal => Sys2Proof.Machine.execExcCal s
  | .calPhaseDone factor => Sys2Proof.Machine.execCalPhaseDone factor s
  | .vcoreEvaluation lanes walk engines => Sys2Proof.Machine.execVcoreEvaluation lanes walk engines s
  | .tempSensorConvert cs => Sys2Proof.Machine.execTempSensorConvert cs s
  | .ballastUpdate works => Sys2Proof.Machine.execBallastUpdate works s
  | .throttleEvaluation mv => Sys2Proof.Machine.execThrottleEvaluation mv s
  | .thermalTripRestart => Sys2Proof.Machine.execThermalTripRestart s
  | .holdupCheck => Sys2Proof.Machine.execHoldupCheck s
  | .holdupCheckDone h => Sys2Proof.Machine.execHoldupCheckDone h s
  | .readoutReset => Sys2Proof.Machine.execReadoutReset s
  | .correctionReset => Sys2Proof.Machine.execCorrectionReset s
  | .walkReset => Sys2Proof.Machine.execWalkReset s
  | .detectionReset => Sys2Proof.Machine.execDetectionReset s
  | .asterReset => Sys2Proof.Machine.execAsterReset s
  | .drillReset => Sys2Proof.Machine.execDrillReset s
  | .valveReset => Sys2Proof.Machine.execValveReset s
  | .recordReset => Sys2Proof.Machine.execRecordReset s
  | .archiveReset => Sys2Proof.Machine.execArchiveReset s
  | .nvmeReset => Sys2Proof.Machine.execNvmeReset s
  | .ethernetReset => Sys2Proof.Machine.execEthernetReset s
  | .ptpReset => Sys2Proof.Machine.execPtpReset s
  | .hkcReset => Sys2Proof.Machine.execHkcReset s
  | .calibrationReset => Sys2Proof.Machine.execCalibrationReset s
  | .watchdogExpiry f => Sys2Proof.Machine.execWatchdogExpiry f s
  | .funcResetDone f => Sys2Proof.Machine.execFuncResetDone f s
  | .rstClrCounters => Sys2Proof.Machine.execRstClrCounters s
  | .tbsClrCounters => Sys2Proof.Machine.execTbsClrCounters s
  | .tbsFlagsClear mask => Sys2Proof.Machine.execTbsFlagsClear mask s
  | .trkClrCounters => Sys2Proof.Machine.execTrkClrCounters s
  | .walkClrCounters => Sys2Proof.Machine.execWalkClrCounters s
  | .controllerFatal => Sys2Proof.Machine.execControllerFatal s
  | .capToExpiry => Sys2Proof.Machine.execCapToExpiry s
  | .blockLockGained lane => Sys2Proof.Machine.execBlockLockGained lane s
  | .vkinChargeThreshold above => Sys2Proof.Machine.execVkinChargeThreshold above s

end Sys2Proof.Machine
end

