-- ==== Sys2Proof/WellFormed.lean ====
section
/-!
DEFINITION. Well-formed commands: every operand fits the field, the part number or the frame that carries it. The widths are those of the
register fields, headers and instruction words that the rows' rules name.
-/
namespace Sys2Proof

/-- A number below a bound. -/
def below (n x : Nat) : Bool := decide (x < n)

/-- A frame whose OPCODE is that of its row (Table 13-4). -/
def FrameHeader.wf (h : FrameHeader) (op : Nat) : Bool := decide (h.opcode = op)

/-- An image record as the flash holds it (Table 2-3): its payload has PLEN bytes. -/
def ImageRecord.wf (r : ImageRecord) : Bool :=
  below 65536 r.type && below 65536 r.attr && below (2 ^ 32) r.plen && below (2 ^ 32) r.rcrc && decide (r.payload.length = r.plen)

/-- The addresses of an Ethernet frame (Table 12-2). -/
def RxFrame.wf (f : RxFrame) : Bool :=
  below (2 ^ 48) f.dmac && below (2 ^ 48) f.smac && below 65536 f.etherType && below (2 ^ 32) f.srcIp && below (2 ^ 32) f.dstIp &&
    below 65536 f.srcPort && below 65536 f.dstPort

/-- A SECDED fact names one of the 8,192 sheaf slots. -/
def EccFact.wf (e : EccFact) : Bool := below 8192 e.slot

/-- Whether the operands of a command are well formed. -/
def Instr.wf : Instr → Bool
  | .startUp _ _ _ => true
  | .rstNPulse _ => true
  | .pllLock => true
  | .imageRecordCheck r => r.wf
  | .commit => true
  | .lsyncStartTimeout => true
  | .settlingEvaluation => true
  | .cfgReload slot => below 4 slot
  | .reloadDrained => true
  | .reloadTimeout => true
  | .cfgOwnershipWrite addr value => below (2 ^ 32) addr && below (2 ^ 32) value
  | .pfiNRecognised _ => true
  | .vkeepLowRecognised _ => true
  | .saveBulkStoreCommit _ _ => true
  | .heldExit => true
  | .vkeepCollapse => true
  | .lineBoundary => true
  | .lsyncPulse _ => true
  | .lsyncLost => true
  | .ftachPulse _ => true
  | .ppsInEdge _ => true
  | .ppsOutPulse => true
  | .rowSlot => true
  | .groupFrameReceived lane _ => below 4 lane
  | .blockLockLost lane => below 4 lane
  | .furrowSubstitute group furrow => below 128 group && below 64 furrow
  | .furrowRestore group furrow => below 128 group && below 64 furrow
  | .rdoClrCounters => true
  | .biasWrite value => below (2 ^ 32) value
  | .thermStale k => below 8 k
  | .pixelIssue => true
  | .laneResult lane _ _ _ _ => below 9 lane
  | .laneStall lane => below 9 lane
  | .bankSwap => true
  | .tableSwap => true
  | .corClrCounters => true
  | .coefficientWindowWrite addr words => below (2 ^ 32) addr && decide (1 ≤ words.length) && below 65537 words.length
  | .lagTableBuilt => true
  | .fieldLineComplete _ ecc => ecc.all EccFact.wf
  | .sheafImageComplete _ slot => below 8192 slot
  | .aggregateRecord => true
  | .intervalRequest => true
  | .calEventRequest => true
  | .calCancel => true
  | .calRun script => below 16 script
  | .calClrCounters => true
  | .shutterScriptStart => true
  | .calGapTimeout => true
  | .crocusEnd code => below (2 ^ 24) code
  | .crocusWait lines => below (2 ^ 24) lines
  | .crocusGap => true
  | .crocusPlate lines => below (2 ^ 24) lines
  | .crocusClose => true
  | .crocusSettle lines => below (2 ^ 24) lines
  | .crocusFlag lines => below (2 ^ 24) lines
  | .crocusOpen => true
  | .crocusResume => true
  | .crocusSolve sel => below (2 ^ 24) sel
  | .solveComplete => true
  | .crocusSwap => true
  | .crocusTrimCap => true
  | .crocusTrimSkim => true
  | .crocusTrimDac dac => below (2 ^ 24) dac
  | .crocusJumpIf cond target => below 65536 cond && below 256 target
  | .crocusEvent code => below (2 ^ 24) code
  | .scriptLinesDone _ => true
  | .flagOpenRetry => true
  | .qualTimeout => true
  | .trimWrite addr value => below (2 ^ 32) addr && below (2 ^ 32) value
  | .scriptWrite addr value => below (2 ^ 32) addr && below (2 ^ 32) value
  | .engineAccept _ ecc => ecc.all EccFact.wf
  | .asterAdd x d a b => below 16 x.engine && below 32 d && below 32 a && below 32 b
  | .asterSub x d a b => below 16 x.engine && below 32 d && below 32 a && below 32 b
  | .asterMul x d a b => below 16 x.engine && below 32 d && below 32 a && below 32 b
  | .asterMuls x d a b fn => below 16 x.engine && below 32 d && below 32 a && below 32 b && below 2048 fn
  | .asterDiv x d a b => below 16 x.engine && below 32 d && below 32 a && below 32 b
  | .asterAnd x d a b => below 16 x.engine && below 32 d && below 32 a && below 32 b
  | .asterOr x d a b => below 16 x.engine && below 32 d && below 32 a && below 32 b
  | .asterXor x d a b => below 16 x.engine && below 32 d && below 32 a && below 32 b
  | .asterMin x d a b => below 16 x.engine && below 32 d && below 32 a && below 32 b
  | .asterMax x d a b => below 16 x.engine && below 32 d && below 32 a && below 32 b
  | .asterAbs x d a => below 16 x.engine && below 32 d && below 32 a
  | .asterSqrt x d a => below 16 x.engine && below 32 d && below 32 a
  | .asterSlt x d a b => below 16 x.engine && below 32 d && below 32 a && below 32 b
  | .asterShl x d a b => below 16 x.engine && below 32 d && below 32 a && below 32 b
  | .asterSra x d a b => below 16 x.engine && below 32 d && below 32 a && below 32 b
  | .asterAddi x d a imm => below 16 x.engine && below 32 d && below 32 a && below 65536 imm
  | .asterLi x d imm => below 16 x.engine && below 32 d && below 65536 imm
  | .asterLih x d imm => below 16 x.engine && below 32 d && below 65536 imm
  | .asterAndi x d a imm => below 16 x.engine && below 32 d && below 32 a && below 65536 imm
  | .asterSlti x d a imm => below 16 x.engine && below 32 d && below 32 a && below 65536 imm
  | .asterShli x d a imm => below 16 x.engine && below 32 d && below 32 a && below 65536 imm
  | .asterSrai x d a imm => below 16 x.engine && below 32 d && below 32 a && below 65536 imm
  | .asterLdw x d a imm => below 16 x.engine && below 32 d && below 32 a && below 65536 imm
  | .asterLdh x d a imm => below 16 x.engine && below 32 d && below 32 a && below 65536 imm
  | .asterLds x d a imm => below 16 x.engine && below 32 d && below 32 a && below 65536 imm
  | .asterSts x d a imm => below 16 x.engine && below 32 d && below 32 a && below 65536 imm
  | .asterWin x a b fn => below 16 x.engine && below 32 a && below 32 b && below 2048 fn
  | .asterPix x d a b => below 16 x.engine && below 32 d && below 32 a && below 32 b
  | .asterRed x d a mode => below 16 x.engine && below 32 d && below 32 a && below 16 mode
  | .asterHist x a b => below 16 x.engine && below 32 a && below 32 b
  | .asterBr x cond a b target => below 16 x.engine && below 8 cond && below 32 a && below 32 b && below 1024 target
  | .asterFeat x k a => below 16 x.engine && below 4 k && below 32 a
  | .asterVerd x verdict a sel cls => below 16 x.engine && below 4 verdict && below 32 a && below 2 sel && below 256 cls
  | .deadlinePassed slot => below 8192 slot
  | .engineStall e => below 16 e
  | .engineSelftest e _ _ => below 16 e
  | .engineRestore e _ => below 16 e
  | .astClrCounters => true
  | .slotProgWrite n value => below 16 n && below (2 ^ 32) value
  | .asterMemoryWrite addr words => below (2 ^ 32) addr && decide (1 ≤ words.length) && below 65537 words.length
  | .pullInRequest v => below 1024 v
  | .pullInStart v _ => below 1024 v
  | .deferralLimit v _ => below 1024 v
  | .vboostStale => true
  | .drlClrCounters => true
  | .peakReached v _ blank codes => below 1026 v && below 3 blank && codes.all (below 4096)
  | .peakTimeout v blank codes => below 1026 v && below 3 blank && codes.all (below 4096)
  | .chopPeriod c _ codes => below 66 c && codes.all (below 4096)
  | .dipFound v _ _ codes => below 1024 v && codes.all (below 4096)
  | .openLoadCheck v codes gsn => below 1024 v && below 4096 codes.1 && below 4096 codes.2 && below 4096 gsn
  | .actuationEnd v blank codes => below 1024 v && below 3 blank && codes.all (below 4096)
  | .valveReleased v => below 1026 v
  | .valveFault _ code _ codes => below 256 code && below 4096 codes.1 && below 4096 codes.2
  | .idleScan _ gsn cols =>
    decide (gsn.length = 16 ∧ cols.length ≤ 64) && gsn.all (fun p => below 4096 p.1 && below 4096 p.2) && cols.all (below 4096)
  | .valveEnable target index code => below 4 target && below 1024 index && below 4096 code
  | .matrixResume => true
  | .vlvClrCounters => true
  | .armAssert => true
  | .armDeassert => true
  | .auxCommand value => below (2 ^ 32) value
  | .auxDurationEnd x => below 2 x.channel && x.codes.all (below 4096)
  | .recordRelease _ ecc => ecc.all EccFact.wf
  | .recFlushTimeout => true
  | .nvmeCommandComplete _ => true
  | .nvmeTimeout => true
  | .pcieLinkLoss => true
  | .driveRetry => true
  | .pcieLinkUp _ _ _ => true
  | .controllerReady => true
  | .smartPoll _ _ _ => true
  | .nvhFormat => true
  | .nvhRestart => true
  | .nvhClrCounters => true
  | .dmaStart n => below 8 n
  | .dmaPause n units _ => below 8 n && below (2 ^ 24) units
  | .channelResume n => below 8 n
  | .dmaAbort n units _ => below 8 n && below (2 ^ 24) units
  | .channelComplete n _ => below 8 n
  | .busError n code units _ => below 8 n && below 16 code && below (2 ^ 24) units
  | .dataChannelHandover n => below 8 n
  | .dmaIrqClear mask => below (2 ^ 32) mask
  | .arpRequest p f => below 4 p && f.wf
  | .recordAck p f seq _ => below 4 p && f.wf && below (2 ^ 64) seq
  | .frameDropped p f => below 4 p && f.wf
  | .ptpAnnounce p f _ => below 4 p && f.wf
  | .ptpSync p f _ => below 4 p && f.wf
  | .ptpFollowUp p f _ => below 4 p && f.wf
  | .ptpDelayResp p f _ => below 4 p && f.wf
  | .ptpDelayReq => true
  | .ptpHoldover => true
  | .holdoverExpiry => true
  | .portLinkChange p _ _ _ _ _ _ => below 4 p
  | .portReady p => below 4 p
  | .portCtrlWrite p value => below 4 p && below (2 ^ 32) value
  | .streamAssign st value => below 4 st && below (2 ^ 32) value
  | .portRetain p => below 4 p
  | .portWake p => below 4 p
  | .recordPacketSend => true
  | .retransmitTimeout => true
  | .keepalive => true
  | .recordFailover => true
  | .ethReturn => true
  | .ethClrCounters => true
  | .linePacketSend => true
  | .eventPacketSend => true
  | .frameNop h => h.wf 0
  | .frameRead h _ => h.wf 1
  | .frameWrite h words _ _ => h.wf 2 && decide (words.length = h.len + 1)
  | .frameSync h => h.wf 3
  | .invalidHeader => true
  | .masterCollision => true
  | .flashTransferResume => true
  | .flashRead lenM1 => below 256 lenM1
  | .flashProgram lenM1 => below 256 lenM1
  | .flashErase4k => true
  | .flashErase64k => true
  | .flashReadStatus => true
  | .flashStatusPoll sr => below 256 sr
  | .flashOpDone _ => true
  | .flashOpTimeout => true
  | .alertClear mask => below (2 ^ 32) mask
  | .mptClrCounters => true
  | .keepPageWrite addr words => below (2 ^ 32) addr && decide (1 ≤ words.length) && below 65537 words.length
  | .storeCommit => true
  | .storeComplete => true
  | .countPeriodStore => true
  | .keepStore => true
  | .counterIncrement idx => below 2048 idx
  | .counterClear idx => below 2048 idx
  | .kepClrErrors => true
  | .operationMinute => true
  | .hkcPassStart => true
  | .hkcEntryDone _ _ => true
  | .selfCal gain => below 8 gain
  | .excCal => true
  | .calPhaseDone _ => true
  | .vcoreEvaluation _ _ _ => true
  | .tempSensorConvert _ => true
  | .ballastUpdate _ => true
  | .throttleEvaluation _ => true
  | .thermalTripRestart => true
  | .holdupCheck => true
  | .holdupCheckDone _ => true
  | .readoutReset => true
  | .correctionReset => true
  | .walkReset => true
  | .detectionReset => true
  | .asterReset => true
  | .drillReset => true
  | .valveReset => true
  | .recordReset => true
  | .archiveReset => true
  | .nvmeReset => true
  | .ethernetReset => true
  | .ptpReset => true
  | .hkcReset => true
  | .calibrationReset => true
  | .watchdogExpiry f => below 14 f
  | .funcResetDone f => below 14 f
  | .rstClrCounters => true
  | .tbsClrCounters => true
  | .tbsFlagsClear mask => below (2 ^ 32) mask
  | .trkClrCounters => true
  | .walkClrCounters => true
  | .controllerFatal => true
  | .capToExpiry => true
  | .blockLockGained lane => below 4 lane
  | .vkinChargeThreshold _ => true

end Sys2Proof
end

