-- ==== Sys2Proof/Safety.lean ====
section
/-!
DEFINITION. What claims are stated in: the invariant of the block's sparse data, the commands that a state accepts, and safe runs.
-/
namespace Sys2Proof.Safety

open Sys2Proof.Machine

/-- Both keep-store arrays and the windows stand in their canonical form. -/
def memoryOk (s : State) : Bool := Memory.wf s.mem && Memory.wf s.keep.shadow

/-- No two actuations of a list are of one valve. -/
abbrev oneEach (l : List Act) : Prop := (l.map (fun a => a.valve)).Nodup

/-- No valve has two running actuations (R246, R268). -/
abbrev oneActPerValve (s : State) : Prop := oneEach s.vlv.acts

/-- Every waiting command is well formed. -/
def queueOk (s : State) : Bool := s.pending.all Instr.wf

/-- The step answers a next state. -/
def Answers (s t : State) : Prop := step s = .next t

/-- The states that steps lead to from a state. -/
inductive Reaches : State → State → Prop where
  | here (s : State) : Reaches s s
  | next (s t u : State) (h : Reaches s t) (a : Answers t u) : Reaches s u

/-- A run is safe from a state on: no step from a state it reaches ends in a fault or a refusal. -/
def SafeFrom (s : State) : Prop := ∀ t, Reaches s t → ∃ u, step t = .next u

/-! ### What a command leaves alone -/

/-- Every register that a list does not name reads as before. -/
def RegsKept (s t : State) (changed : List Nat) : Prop := ∀ a, a ∉ changed → t.word a = s.word a

/-- Every window byte outside a run of n bytes from address a reads as before. -/
def BytesKept (s t : State) (a n : Nat) : Prop := ∀ b, b < a ∨ a + n ≤ b → t.byte b = s.byte b

/-- Nothing differs but the registers. -/
def OnlyRegs (s t : State) : Prop := t = { s with regs := t.regs }

/-- Nothing differs but the registers and what the port shows of a word that was applied. -/
def OnlyApplied (s t : State) : Prop := t = { s.applied with regs := t.regs }

/-- The registers that show the matrix: every group, every column, and the valves named, running or releasing. -/
def matrixRegs (s : State) (vs : List Nat) : List Nat :=
  (List.range 16).map Reg.VLV_GROUP ++ (List.range 64).map Reg.VLV_COLUMN ++
    (vs ++ s.vlv.acts.map (fun a => a.valve) ++ s.vlv.crossRel.map (fun e => e.1)).map Reg.VLV_VALVE

/-- The registers that an event may write: the event position, the alert lines and the loss counters. -/
def eventRegs : List Nat := [Reg.GEN_EPOS_LO, Reg.GEN_EPOS_LO + 4, Reg.MPT_ALERT, Reg.ETH_LOSS]

/-! ### The calibration sequencer -/

/-- The running script goes on at a word: it is one of the script's, and its opcode is defined (R171, R172). -/
abbrev WordAt (s : State) (pc : Nat) : Prop :=
  pc < 256 ∧ pc < s.cal.lens.getD s.scriptNo 256 ∧ bits (s.scriptWord s.scriptNo pc) 24 8 ≤ 0x0F

/-- The script goes on at a word, and nothing changes but the sequencer and CAL_SCRIPT_STAT. -/
def GoesOn (s t : State) (pc : Nat) : Prop :=
  t.scriptPc = pc ∧ t.cal.op = none ∧ RegsKept s t [Reg.CAL_SCRIPT_STAT] ∧ t = { s with regs := t.regs, cal := t.cal }

/-- A step of n lines has started: between two boundaries it changes nothing but the sequencer, and begins with the next line (Table 6-3). -/
def StepStarts (s t : State) (op n : Nat) : Prop :=
  t.cal.op = some op ∧ t.cal.start = s.stepLine ∧ t.cal.untilLine = s.stepLine + n ∧
    (s.time.lines = true → s.atBoundary = false → t.cal.start = s.time.line + 1 ∧ t = { s with cal := t.cal })

/-- The script has ended with an exit code (R172). -/
def ScriptOver (t : State) (code : Nat) : Prop :=
  t.get Reg.CAL_STATUS_RUNNING = 0 ∧ t.get Reg.CAL_STATUS_GAP_WAIT = 0 ∧ t.get Reg.CAL_SCRIPT_STAT_EXIT = code ∧ t.cal.op = none

/-- No blind span is open, and the start-up script does not run: a script that ends needs no closure (R172). -/
abbrev EndsHere (s : State) : Prop := s.get Reg.CFG_PHASE_PHASE ≠ 4 ∧ s.cal.blind = none

/-! ### One instruction of an Aster run -/

/-- The engine of a step runs sheaf x, bound to b, in a slot; the word that it fetches next is the one that a test recognises; and no
fault and no uncorrectable word is met. -/
def Fetches (s : State) (st : EngStep) (slot : Nat) (x : Sheaf) (b : Binding) (is : Nat → Bool) : Prop :=
  st.engine < 16 ∧ s.engState st.engine = 1 ∧ (s.engine st.engine).sheaf = some slot ∧ s.sheaf slot = some x ∧ x.bound = some b ∧
    is (s.memWord (progAddr 0 b.area (s.engine st.engine).idx)).toNat = true ∧ st.fault = false ∧ st.bothBad = false

/-- The time of a step passes, and image words met as uncorrectable are marked. -/
def stepped (s : State) (st : EngStep) (x : Sheaf) : State := (s.elapse st.w).putSheaf (x.imageErrors st.imgBad)

/-- The engine of a step completes an instruction of a cost and stands as g. -/
def ran (s : State) (st : EngStep) (x : Sheaf) (cost : Nat) (g : Engine) : State :=
  (stepped s st x).putEngine st.engine { g with cycles := (s.engine st.engine).cycles + cost, lastDone := s.time.ticks + st.w }

end Sys2Proof.Safety
end

