-- ==== Sys2Proof/Certificates/Slice0/Obligations.lean ====
section
/-!
DEFINITION. The statements about the block, for the provers. Each docstring says what its statement says and which rules of spec/ it
speaks of.
-/

section

open Sys2Proof Sys2Proof.Machine Sys2Proof.Safety

/-- With a command at the front of its queue a step is exec of that command on the state with the queue's rest. On an empty queue a step
lets one tick of the 10 ns timebase pass and changes nothing but the time (the model's choice, log entry 3). A word of the opcode table
spells no command, so withFetchWord changes nothing. (98_reader.md, 95_what_each_step_holds.md; derived) -/
def Obligations.StepTakesTheFrontCommand : Prop :=
  (∀ (c : Instr) (s : State), step { s with pending := c :: s.pending } = exec c s) ∧
  (∀ s : State, s.pending = [] → step s = .next (s.elapse 1)) ∧
  (∀ s : State, (s.elapse 1).time.ticks = s.time.ticks + 1 ∧ s.elapse 1 = { s with time := (s.elapse 1).time }) ∧
  (∀ (s : State) (nbits w : Nat), decodeTableWord nbits w = none ∧ s.withFetchWord nbits w = s)

/-- For every state s, if a step of s answers next t, then t's queue is s's queue without its front: no command's effect adds, drops or
reorders commands that wait. (95_what_each_step_holds.md, 98_reader.md; derived) -/
def Obligations.QueueGivesItsCommandsInOrder : Prop :=
  ∀ s t : State, step s = .next t → t.pending = s.pending.tail

/-- If the window memory, the non-volatile array and the register map of s stand in canonical form (keys strictly rising, no entry equal to
what an unlisted key reads as) and a step of s answers next t, then those of t do. So equal contents are equal data in every state that
a run reaches. (R6, R8, 95_what_each_step_holds.md; derived) -/
def Obligations.StepsKeepTheCanonicalForm : Prop :=
  ∀ s t : State, Memory.wf s.mem = true ∧ Memory.wf s.keep.shadow = true ∧ Map.wf Reg.resetWord s.regs = true → step s = .next t →
    Memory.wf t.mem = true ∧ Memory.wf t.keep.shadow = true ∧ Map.wf Reg.resetWord t.regs = true

/-- If no two running actuations of s are of the same valve and a step of s answers next t, then no two of t are. A gate edge ends the
releasing actuation of its valve, a merge adds none, and no other command makes one. (R246, R268, R271; derived) -/
def Obligations.StepsKeepOneActuationPerValve : Prop :=
  ∀ s t : State, oneActPerValve s → step s = .next t → oneActPerValve t

/-- In the state after reset no command waits, no line runs, the part is at start-up step 1, memory and registers stand in canonical form,
no actuation runs twice, and every register reads its reset word. (R49, R420, R458, Table 19-4; derived) -/
def Obligations.ResetIsCanonicalAndEmpty : Prop :=
  State.reset.pending = [] ∧ State.reset.cfg.stage = .off ∧ State.reset.time.lines = false ∧ State.reset.time.ticks = 0 ∧
  Memory.wf State.reset.mem = true ∧ Memory.wf State.reset.keep.shadow = true ∧ Map.wf Reg.resetWord State.reset.regs = true ∧
  oneActPerValve State.reset ∧ ∀ a, State.reset.word a = Reg.resetWord a

/-- No command stops the block: for every command whose operands fit their fields, and every state, exec answers a next state (which part of
the commands' effect it is, the other statements say). (95_what_each_step_holds.md, R459; derived) -/
def Obligations.WellFormedCommandsAnswer : Prop :=
  ∀ (c : Instr) (s : State), c.wf = true → ∃ t, exec c s = .next t

/-- From step 1 with PFI_N released and VKEEP above its threshold, START_UP runs steps 1 to 4. With a header that passes its checks the part
loads the first slot of the order from its first record, shows phase 3 and the read mode. Without one it is unconfigured, shows phase 15
and sets UNCONF in MPT_ALERT. Of two good headers the higher GENERATION is tried first, and slot A on equal ones. While PFI_N is
asserted or VKEEP is low, or once the part has started, the command has no effect. (R45, R48, R49, R57, Table 2-7, Table 2-8; derived) -/
def Obligations.StartUpReadsTheSlotsInOrder : Prop :=
  (∀ (s : State) (f : FlashFacts) (k : KeepFacts) (h : HoldupFacts), s.cfg.stage = .off → s.pwr.pfi = false →
    s.flag Reg.PWR_STATUS_VKEEP_LOW = false → ∃ t, exec (.startUp f k h) s = .next t ∧
      (∀ n rest, slotOrder (readHeader f.headA).toOption (readHeader f.headB).toOption s.cfg.force = n :: rest →
        t.cfg.stage = .loading ∧ t.cfg.slot = n ∧ t.cfg.next = rest ∧ t.cfg.index = 0 ∧ t.cfg.offset = 32 ∧
        t.get Reg.CFG_PHASE_PHASE = 3 ∧ t.get Reg.CFG_STATUS_READ_MODE = readMode f) ∧
      (slotOrder (readHeader f.headA).toOption (readHeader f.headB).toOption s.cfg.force = [] →
        t.cfg.stage = .unconfigured ∧ t.get Reg.CFG_PHASE_PHASE = 15 ∧ t.get Reg.MPT_ALERT_UNCONF = 1)) ∧
  (∀ (s : State) (f : FlashFacts) (k : KeepFacts) (h : HoldupFacts), s.cfg.stage ≠ .off ∨ s.pwr.pfi = true ∨
    s.flag Reg.PWR_STATUS_VKEEP_LOW = true →
    exec (.startUp f k h) s = .next s) ∧
  (∀ x y : Header, slotOrder (some x) (some y) 0 = if x.generation < y.generation then [1, 0] else [0, 1])

/-- PLL_LOCK sets PLL_LOCK and starts device time at zero, once, and changes no other register. An RST_N pulse of at least 10 us returns the
part to step 1: the non-volatile array stays, registers of Table 19-4 that a restart keeps stay, and every other register reads its
reset word. A shorter pulse has no effect. After VKEEP_COLLAPSE every register reads its reset word, and the non-volatile array stays.
(R59, R420, R425, R458, Table 19-4; derived) -/
def Obligations.PowerOnInputs : Prop :=
  (∀ s : State, s.cfg.stage ≠ .off → s.flag Reg.TBS_STATUS_PLL_LOCK = false → ∃ t, exec .pllLock s = .next t ∧ t.time = { s.time with dev := 0 } ∧
    t.flag Reg.TBS_STATUS_PLL_LOCK = true ∧ RegsKept s t [Reg.TBS_STATUS] ∧ t = { s with regs := t.regs, time := t.time }) ∧
  (∀ (s : State) (ns : Nat), 10000 ≤ ns → ∃ t, exec (.rstNPulse ns) s = .next t ∧ t.cfg.stage = .off ∧ t.pending = s.pending ∧ t.mem = [] ∧
    t.keep.shadow = s.keep.shadow ∧ (∀ a, keptRegister a = true → a ≠ Reg.HKC_STATUS → t.word a = s.word a) ∧
    (∀ a, keptRegister a = false → t.word a = Reg.resetWord a)) ∧
  (∀ (s : State) (ns : Nat), ns < 10000 → exec (.rstNPulse ns) s = .next s) ∧
  (∀ s : State, ∃ t, exec .vkeepCollapse s = .next t ∧ t.cfg.stage = .off ∧ t.keep.shadow = s.keep.shadow ∧ t.pending = s.pending ∧ t.mem = [] ∧
    ∀ a, t.word a = Reg.resetWord a)

/-- While an image loads, a record without answer is refused with code 0x10, a bad length with 0x07, an unknown type that may not be skipped
with 0x08, a wrong RCRC with 0x06, then by its content code. A record that passes and is not the last adds its bytes to BODY_CRC, its
registers and itself to what waits for commit, and puts nothing in force. A refusal enters code and record number in the slot's
CFG_REFUSE. (R46, R47, R485, Table 2-4; derived) -/
def Obligations.ImageRecordsAreCheckedInOrder : Prop :=
  ∀ (s : State) (r : ImageRecord), s.cfg.stage = .loading → s.mpt.abandoned = false →
    (r.answered = false → exec (.imageRecordCheck r) s = .next (s.refuseImage 0x10 s.cfg.index)) ∧
    (r.answered = true → (r.plen % 4 ≠ 0 ∨ s.loadingHeader.length < s.cfg.offset + 12 + r.plen) →
      exec (.imageRecordCheck r) s = .next (s.refuseImage 0x07 s.cfg.index)) ∧
    (r.answered = true → r.plen % 4 = 0 → s.cfg.offset + 12 + r.plen ≤ s.loadingHeader.length →
      (knownType r.type = false → r.attr % 2 = 0 → exec (.imageRecordCheck r) s = .next (s.refuseImage 0x08 s.cfg.index)) ∧
      (knownType r.type = true ∨ r.attr % 2 = 1 → r.rcrc ≠ (crc32 (imageHead r)).toNat →
        exec (.imageRecordCheck r) s = .next (s.refuseImage 0x06 s.cfg.index)) ∧
      (knownType r.type = true ∨ r.attr % 2 = 1 → r.rcrc = (crc32 (imageHead r)).toNat → contentCode r ≠ 0 →
        exec (.imageRecordCheck r) s = .next (s.refuseImage (contentCode r) s.cfg.index)) ∧
      (knownType r.type = true ∨ r.attr % 2 = 1 → r.rcrc = (crc32 (imageHead r)).toNat → contentCode r = 0 → r.type ≠ 0xFF →
        s.cfg.offset + 12 + r.plen < s.loadingHeader.length → ∃ t, exec (.imageRecordCheck r) s = .next t ∧
          t = { s with cfg := t.cfg } ∧ t.cfg.stage = .loading ∧ t.cfg.slot = s.cfg.slot ∧ t.cfg.index = s.cfg.index + 1 ∧
          t.cfg.offset = s.cfg.offset + 12 + r.plen ∧ t.cfg.crc = crc32Run s.cfg.crc (imageHead r ++ leBytes 4 r.rcrc) ∧
          t.cfg.regs = s.cfg.regs ++ recordRegs r ∧ t.cfg.records = s.cfg.records ++ [r])) ∧
    (∀ code n, code < 256 → n < 2 ^ 24 → s.cfg.next ≠ [] →
      (s.refuseImage code n).get (if s.cfg.slot = 0 then Reg.CFG_REFUSE_A_CODE else Reg.CFG_REFUSE_B_CODE) = code ∧
      (s.refuseImage code n).get (if s.cfg.slot = 0 then Reg.CFG_REFUSE_A_RECORD else Reg.CFG_REFUSE_B_RECORD) = n)

/-- With an accepted image COMMIT ends the load phase at 240 ms or later, puts every register and record of the image in force, copies bank
0 and table copy 0 into bank 1 and table copy 1, names the slot in SLOT_USED, sets SETTLING and the alive expectation to any, starts the
minute counter and, with internal sync, line 0 and script 0. Without an accepted image it has no effect. (R42, R49, R52, R103, R354,
Table 2-8; derived) -/
def Obligations.CommitPutsTheImageInForce : Prop :=
  (∀ s : State, s.cfg.stage = .accepted → ∃ t u : State, exec .commit s = .next t ∧
    t = (if u.flag Reg.TBS_CTRL_SYNC then u.syncBits else u.lineZero) ∧ t.cfg.stage = .running ∧ t.time.ticks = u.time.ticks ∧
    t.time.commitTick = u.time.ticks ∧ t.get Reg.CFG_STATUS_SLOT_USED = (s.cfg.slot + 1) % 4 ∧
    (u.flag Reg.TBS_CTRL_SYNC = false → t.time.lines = true ∧ t.time.line = 0 ∧ t.time.lineTick = u.time.ticks ∧
      t.get Reg.CFG_PHASE_PHASE = 4 ∧ t.get Reg.CAL_SCRIPT_STAT_SCRIPT = 0) ∧
    (u.flag Reg.TBS_CTRL_SYNC = true → t.time.lines = s.time.lines) ∧ u.cfg.stage = .running ∧ u.time.ticks = Nat.max s.time.ticks (msTicks 240) ∧ u.time.commitTick = u.time.ticks ∧
    u.get Reg.CFG_STATUS_SLOT_USED = (s.cfg.slot + 1) % 4 ∧ u.get Reg.CFG_STATUS_SETTLING = 1 ∧ u.get Reg.MPT_STATUS_EXPECT_ANY = 1 ∧
    u.due Timer.minute = some (u.time.ticks + msTicks 60000) ∧
    (∀ i, i < 0x30C040 → u.byte (bankBase 1 + i) = u.byte (bankBase 0 + i)) ∧
    (∀ i, i < 4096 → u.byte (tableAddr 1 + i) = u.byte (tableAddr 0 + i))) ∧
  (∀ s : State, s.cfg.stage ≠ .accepted → exec .commit s = .next s)

/-- While lines run, LINE_BOUNDARY with internal sync starts the next line when P has passed since the last; with external sync the first
pending pulse starts it, at the later of its edge plus 200 ns and the last boundary plus P, and leaves the accumulator. LSYNC_LOST
starts the line at LOST x P, and LSYNC_START_TIMEOUT line 0 at LOST x P after commit; both set LSYNC_LOST and LOST_SEEN, count the loss
and take an event position. The line that begins then runs through startLine (lineZero for line 0): its number and boundary are the new
ones, its first row slot is to come, and line 0 opens start-up step 7. (R28, R427, R428, Table 17-7; derived) -/
def Obligations.LinesFollowPeriodOrPulse : Prop :=
  (∀ s : State, s.time.lines = true → s.extSync = false → ∃ t u : State, exec .lineBoundary s = .next t ∧ t = u.startLine ∧
    t.time.lines = true ∧ t.time.line = s.time.line + 1 ∧ t.time.ticks = u.time.ticks ∧
    t.time.lineTick = u.time.ticks ∧ t.rdo.slot = 0 ∧ u.time.line = s.time.line + 1 ∧
    u.time.ticks = Nat.max s.time.ticks (s.time.lineTick + s.get Reg.TBS_STATUS_PERIOD_NOW) ∧ RegsKept s u [] ∧ u.mem = s.mem) ∧
  (∀ (s : State) (e : Nat) (rest : List Nat), s.time.lines = true → s.extSync = true → s.time.lsync = e :: rest →
    ∃ t u : State, exec .lineBoundary s = .next t ∧ t = u.startLine ∧ t.time.lines = true ∧ t.time.line = s.time.line + 1 ∧ t.time.ticks = u.time.ticks ∧
    t.time.lineTick = u.time.ticks ∧ t.rdo.slot = 0 ∧ t.time.lsync = rest ∧
      u.time.line = s.time.line + 1 ∧ u.time.lsync = rest ∧
      u.time.ticks = Nat.max s.time.ticks (Nat.max (e + 20) (s.time.lineTick + s.get Reg.TBS_STATUS_PERIOD_NOW)) ∧
      RegsKept s u [] ∧ u.mem = s.mem) ∧
  (∀ s : State, s.time.lines = true → s.extSync = true → s.time.lsync = [] → ∃ t u : State, exec .lsyncLost s = .next t ∧ t = u.startLine ∧
    t.time.lines = true ∧ t.time.line = s.time.line + 1 ∧ t.time.ticks = u.time.ticks ∧
    t.time.lineTick = u.time.ticks ∧ t.rdo.slot = 0 ∧ t.get Reg.TBS_STATUS_LSYNC_LOST = 1 ∧ u.time.line = s.time.line + 1 ∧
    u.time.ticks = Nat.max s.time.ticks (s.time.lineTick + s.get Reg.TBS_CTRL_LOST * s.get Reg.TBS_STATUS_PERIOD_NOW) ∧
    u.get Reg.TBS_STATUS_LSYNC_LOST = 1 ∧ u.get Reg.TBS_FLAGS_LOST_SEEN = 1 ∧
    u.get Reg.TBS_LSYNC_LOST_COUNT = Nat.min (s.get Reg.TBS_LSYNC_LOST_COUNT + 1) 65535 ∧
    u.pair Reg.GEN_EPOS_LO = (s.pair Reg.GEN_EPOS_LO + 1) % 2 ^ 64 ∧ u.mem = s.mem) ∧
  (∀ s : State, s.cfg.stage = .running → s.time.lines = false → s.time.lsync = [] → ∃ t u : State, exec .lsyncStartTimeout s = .next t ∧ t = u.lineZero ∧
    t.time.lines = true ∧ t.time.line = 0 ∧ t.time.ticks = u.time.ticks ∧
    t.time.lineTick = u.time.ticks ∧ t.rdo.slot = 0 ∧ t.get Reg.CFG_PHASE_PHASE = 4 ∧ t.get Reg.CAL_SCRIPT_STAT_SCRIPT = 0 ∧
    u.time.ticks = Nat.max s.time.ticks (s.time.commitTick + s.get Reg.TBS_CTRL_LOST * s.get Reg.TBS_STATUS_PERIOD_NOW) ∧
    u.get Reg.TBS_STATUS_LSYNC_LOST = 1 ∧ u.get Reg.TBS_FLAGS_LOST_SEEN = 1 ∧
    u.pair Reg.GEN_EPOS_LO = (s.pair Reg.GEN_EPOS_LO + 1) % 2 ^ 64 ∧ u.mem = s.mem)

/-- With external sync chosen and LSYNC owned, a pulse that no other waits before, later than the last boundary plus P less 200 ns, starts
the next line 200 ns after its edge and clears LSYNC_LOST. A pulse before that is counted in EARLY, waits in the accumulator and shows
in LSYNC_PENDING. TBS_CMD CLR_COUNTERS makes TBS_LSYNC zero, and a write to TBS_FLAGS clears the bits written as one; neither changes
another register. (R9, R428, R432, Table 17-7; derived) -/
def Obligations.LsyncPulsesAreCountedAndCleared : Prop :=
  (∀ (s : State) (w : Nat), s.cfg.stage = .running → s.ownsAll 4 = true → s.flag Reg.TBS_CTRL_SYNC = true → s.time.lines = true →
    (s.time.lsync = [] → s.time.lineTick + s.get Reg.TBS_STATUS_PERIOD_NOW ≤ s.time.ticks + w + 20 →
      ∃ t u : State, exec (.lsyncPulse w) s = .next t ∧ t = u.startLine ∧ t.time.line = s.time.line + 1 ∧ t.time.lineTick = u.time.ticks ∧
        t.time.ticks = u.time.ticks ∧ t.rdo.slot = 0 ∧ u.time.line = s.time.line + 1 ∧ u.time.ticks = s.time.ticks + w + 20 ∧
        u.time.lsync = [] ∧ u.get Reg.TBS_STATUS_LSYNC_LOST = 0 ∧ RegsKept s u [Reg.TBS_STATUS] ∧ u.mem = s.mem) ∧
    (s.time.lsync.length < 15 → s.time.ticks + w + 20 < s.time.lineTick + s.get Reg.TBS_STATUS_PERIOD_NOW →
      ∃ t, exec (.lsyncPulse w) s = .next t ∧ t.time.lsync = s.time.lsync ++ [s.time.ticks + w] ∧ t.time.line = s.time.line ∧
        t.get Reg.TBS_LSYNC_EARLY = Nat.min (s.get Reg.TBS_LSYNC_EARLY + 1) 65535 ∧
        t.get Reg.TBS_STATUS_LSYNC_PENDING = s.time.lsync.length + 1 ∧ t.get Reg.TBS_STATUS_LSYNC_LOST = 0 ∧
        RegsKept s t [Reg.TBS_STATUS, Reg.TBS_LSYNC] ∧ t.mem = s.mem)) ∧
  (∀ s : State, s.reaches Reg.TBS_CMD = true → ∃ t, exec .tbsClrCounters s = .next t ∧ t.word Reg.TBS_LSYNC = 0 ∧
    RegsKept s t [Reg.TBS_LSYNC] ∧ OnlyApplied s t) ∧
  (∀ (s : State) (mask : Nat), s.reaches Reg.TBS_FLAGS = true → ∃ t, exec (.tbsFlagsClear mask) s = .next t ∧
    t.word Reg.TBS_FLAGS = s.word Reg.TBS_FLAGS &&& ~~~(BitVec.ofNat 32 (mask % 16)) ∧ RegsKept s t [Reg.TBS_FLAGS] ∧ OnlyApplied s t)

/-- An instruction acts when it is the running script's next word and no step is in progress. WAIT counts its lines from the current line;
GAP asks for FGAP_N and waits; PLATE takes ownership of the standby bank, which becomes a copy of the active one; CLOSE needs a GAP of
the same run and a quiet view, else the script ends with 0x82, or with 0x81 where a reference has failed since PLATE; SETTLE, FLAG and
OPEN take their lines (zero means the configured number). A step that starts between boundaries begins with the next line and changes
nothing but the sequencer; one that starts at a boundary begins there: CLOSE then opens the blind span and clears PENDING, and RESUME
ends it and goes on. (R149, R150, R153, R154, R155, R157, R163, R165, R171, R172, Table 6-3, Table 6-7; derived) -/
def Obligations.ScriptStepsThatTakeLines : Prop :=
  ∀ s : State,
    (∀ lines, s.fetches 1 (fun a => decide (a % 65536 = lines)) = true → ∃ t, exec (.crocusWait lines) s = .next t ∧
      t = { s with cal := t.cal } ∧ t.cal = { s.cal with op := some 1, start := s.time.line, untilLine := s.time.line + lines }) ∧
    (s.fetches 2 (fun _ => true) = true → ∃ t, exec .crocusGap s = .next t ∧ t.cal.op = some 2 ∧ t.cal.gapPc = some s.scriptPc ∧
      t.get Reg.CAL_STATUS_GAP_WAIT = 1 ∧ RegsKept s t [Reg.CAL_STATUS] ∧ t.mem = s.mem ∧
      (s.ownsAll 1 = true → s.get Reg.CFG_PHASE_PHASE ≠ 4 → t.cal.fgap = true)) ∧
    (∀ lines, s.fetches 3 (fun a => decide (a % 2048 = lines)) = true →
      ∃ t, exec (.crocusPlate lines) s = .next t ∧ t.cal.op = some 3 ∧ t.cal.start = s.stepLine ∧
        t.cal.untilLine = s.stepLine + (if lines = 0 then s.avgLines else lines) ∧ t.cal.sawPlate = true ∧ t.cal.during = true ∧ t.cal.plate = [] ∧
        t.get Reg.CAL_STATUS_OWN_STANDBY = 1 ∧ RegsKept s t [Reg.CAL_STATUS] ∧
        (∀ i, i < 0x30C040 → t.byte (bankBase s.standbyBank + i) = s.byte (bankBase s.activeBank + i)) ∧
        BytesKept s t (bankBase s.standbyBank) 0x30C040) ∧
    (s.fetches 4 (fun _ => true) = true → s.cal.gapPc.isSome = true → s.quiet = true → ∃ t, exec .crocusClose s = .next t ∧
      StepStarts s t 4 s.travelLines ∧ (s.atBoundary = true → t.get Reg.CAL_STATUS_BLIND = 1 ∧ t.get Reg.CAL_STATUS_PENDING = 0 ∧
        t.cal.closed = true ∧ t.cal.blind = some (s.time.line, none))) ∧
    (s.fetches 4 (fun _ => true) = true → s.cal.gapPc = none ∨ s.quiet = false → EndsHere s →
      (¬ (s.cal.during = true ∧ s.cal.reason = 3) → ∃ t, exec .crocusClose s = .next t ∧ ScriptOver t 0x82) ∧
      (s.cal.during = true → s.cal.reason = 3 → ∃ t, exec .crocusClose s = .next t ∧ ScriptOver t 0x81 ∧
        t.get Reg.CAL_RESULT_OUTCOME = 3 ∧ t.get Reg.CAL_RESULT_REASON = 3 ∧
        t.get Reg.CAL_COUNTS_REFUSED = Nat.min (s.get Reg.CAL_COUNTS_REFUSED + 1) 65535)) ∧
    (∀ lines, s.fetches 5 (fun a => decide (a % 256 = lines)) = true → ∃ t, exec (.crocusSettle lines) s = .next t ∧
      StepStarts s t 5 (if lines = 0 then s.settleLines else lines)) ∧
    (∀ lines, s.fetches 6 (fun a => decide (a % 2048 = lines)) = true → ∃ t, exec (.crocusFlag lines) s = .next t ∧
      StepStarts s t 6 (if lines = 0 then s.avgLines else lines) ∧ t.cal.flag = []) ∧
    (s.fetches 7 (fun _ => true) = true → ∃ t, exec .crocusOpen s = .next t ∧ StepStarts s t 7 s.travelLines) ∧
    (s.fetches 8 (fun _ => true) = true → s.atBoundary = true → ∃ t, exec .crocusResume s = .next t ∧ t = s.resumeNow.nextWord ∧
      t.get Reg.CAL_STATUS_BLIND = 0 ∧ (WordAt s (s.scriptPc + 1) → t.cal.op = none ∧ t.scriptPc = s.scriptPc + 1)) ∧
    (s.fetches 8 (fun _ => true) = true → s.time.lines = true → s.atBoundary = false → ∃ t, exec .crocusResume s = .next t ∧ StepStarts s t 8 0)

/-- END ends the script with its code, after OPEN, SETTLE and RESUME where a blind span is open. SOLVE needs a PLATE and a FLAG of the same
run (else 0x84), and the script goes on. SOLVE_COMPLETE ends the solve. SWAP with a finished solve decides the event: it is refused with
reason 1 when more than FAIL_MAX pixels fail, and between boundaries an accepted one asks for the swap, sets FIRST_DONE and shows
OUTCOME 1, or 2 for an offset-only solve. JUMP_IF goes to its target where its condition holds. EVENT emits SCRIPT_EVENT. Trims end the
script with 0x83 while admission is active, else start their search. A step whose lines are over hands on to the next word. A script
that ends outside a blind span clears RUNNING and shows its exit code. (R147, R158, R163, R164, R171, R172, R174, R175, Table 6-7, Table
6-14; derived) -/
def Obligations.ScriptInstructionsThatDecide : Prop :=
  ∀ s : State,
    (∀ code, s.fetches 0 (fun a => decide (a % 256 = code)) = true →
      (EndsHere s → ∃ t, exec (.crocusEnd code) s = .next t ∧ ScriptOver t code) ∧
      (∀ a, s.cal.blind = some (a, none) → ∃ t, exec (.crocusEnd code) s = .next t ∧ t.cal.closing = some (code, 7) ∧
        StepStarts s t 7 s.travelLines)) ∧
    (∀ sel, s.fetches 9 (fun a => decide (a % 4 = sel)) = true →
      (s.cal.sawPlate = true → s.cal.sawFlag = true → WordAt s (s.scriptPc + 1) → ∃ t, exec (.crocusSolve sel) s = .next t ∧
        t.cal.solving = some sel ∧ t.cal.solved = none ∧ GoesOn s t (s.scriptPc + 1)) ∧
      (s.cal.sawPlate = false ∨ s.cal.sawFlag = false → EndsHere s → ∃ t, exec (.crocusSolve sel) s = .next t ∧ ScriptOver t 0x84)) ∧
    (∀ sel, s.cal.solving = some sel → s.cal.op ≠ some 10 → ∃ t, exec .solveComplete s = .next t ∧ t = s.solveDone sel ∧
      t.cal.solving = none ∧ t.cal.solved.isSome = true ∧ t.cal.op = s.cal.op) ∧
    (∀ x : Solved, s.fetches 10 (fun _ => true) = true → s.cal.sawPlate = true → s.cal.sawFlag = true → s.cal.solved = some x → s.cal.reason = 0 →
      (s.atBoundary = false → x.failing ≤ s.get Reg.CAL_LIM_FAIL_FAIL_MAX → ∃ t, exec .crocusSwap s = .next t ∧
        t.get Reg.CAL_RESULT_OUTCOME = (if x.offsetOnly then 2 else 1) ∧ t.get Reg.CAL_STATUS_FIRST_DONE = 1 ∧
        t.get Reg.COR_STATUS_SWAP_PENDING = 1 ∧ t.cal.swapAsked = true ∧ t.cal.op = some 10 ∧
        t.get Reg.CAL_COUNTS_ACCEPTED = Nat.min (s.get Reg.CAL_COUNTS_ACCEPTED + 1) 65535) ∧
      (s.get Reg.CAL_LIM_FAIL_FAIL_MAX < x.failing → EndsHere s → ∃ t, exec .crocusSwap s = .next t ∧ ScriptOver t 0x81 ∧
        t.get Reg.CAL_RESULT_OUTCOME = 3 ∧ t.get Reg.CAL_RESULT_REASON = 1 ∧
        t.get Reg.CAL_COUNTS_REFUSED = Nat.min (s.get Reg.CAL_COUNTS_REFUSED + 1) 65535)) ∧
    (∀ cond target, s.fetches 14 (fun a => decide (bits a 16 8 = cond ∧ bits a 0 8 = target)) = true →
      (s.jumpHolds cond = true → WordAt s target → ∃ t, exec (.crocusJumpIf cond target) s = .next t ∧ GoesOn s t target) ∧
      (s.jumpHolds cond = false → WordAt s (s.scriptPc + 1) → ∃ t, exec (.crocusJumpIf cond target) s = .next t ∧ GoesOn s t (s.scriptPc + 1))) ∧
    (∀ code, s.fetches 15 (fun a => decide (a % 256 = code)) = true → WordAt s (s.scriptPc + 1) → ∃ t, exec (.crocusEvent code) s = .next t ∧
      t.pair Reg.GEN_EPOS_LO = (s.pair Reg.GEN_EPOS_LO + 1) % 2 ^ 64 ∧ t.scriptPc = s.scriptPc + 1 ∧ t.cal.op = none ∧
      RegsKept s t (Reg.CAL_SCRIPT_STAT :: eventRegs) ∧ t.mem = s.mem) ∧
    (s.fetches 11 (fun _ => true) = true → (s.admitting = true → EndsHere s → ∃ t, exec .crocusTrimCap s = .next t ∧ ScriptOver t 0x83) ∧
      (s.admitting = false → ∃ t r, exec .crocusTrimCap s = .next t ∧ t.cal.op = some 11 ∧ t.cal.start = s.stepLine ∧ t.cal.trim = some r ∧
        r.kind = 0 ∧ r.trial = 0)) ∧
    (s.fetches 12 (fun _ => true) = true → (s.admitting = true → EndsHere s → ∃ t, exec .crocusTrimSkim s = .next t ∧ ScriptOver t 0x83) ∧
      (s.admitting = false → ∃ t r, exec .crocusTrimSkim s = .next t ∧ t.cal.op = some 12 ∧ t.cal.start = s.stepLine ∧ t.cal.trim = some r ∧
        r.kind = 1 ∧ r.trial = 0)) ∧
    (∀ dac, dac ≤ 2 → s.fetches 13 (fun a => decide (a = dac)) = true →
      (s.admitting = true → EndsHere s → ∃ t, exec (.crocusTrimDac dac) s = .next t ∧ ScriptOver t 0x83) ∧
      (s.admitting = false → ∃ t r, exec (.crocusTrimDac dac) s = .next t ∧ t.cal.op = some 13 ∧ t.cal.start = s.stepLine ∧ t.cal.trim = some r ∧
        r.kind = 2 + dac ∧ r.trial = 0)) ∧
    (∀ op mv, s.cal.op = some op → op ∈ [1, 3, 4, 5, 6, 7] → s.flag Reg.CAL_STATUS_RUNNING = true → s.time.lines = true → s.cal.closing = none →
      s.cal.trim = none → s.cal.untilLine ≤ s.time.line → WordAt s (s.scriptPc + 1) → ∃ t, exec (.scriptLinesDone mv) s = .next t ∧
        GoesOn s t (s.scriptPc + 1) ∧ (op = 6 → t.cal.sawFlag = true))

/-- A request sets PENDING, or is held while a shutter script runs. CANCEL ends a request before CLOSE and is REFUSED before the first
event. RUN starts a script at word 0 and is REFUSED while one runs. A pending request starts SHUTTER_SCRIPT. CLR_COUNTERS clears three
registers. The gap, flag, quality and settling timers act when they are due and start anew. (R146, R147, R151, R155, R169, R170, R172,
Table 6-13; derived) -/
def Obligations.ShutterRequestsAndCalibrationCommands : Prop :=
  ∀ s : State,
    (s.reaches Reg.CAL_CMD = true → s.get Reg.CFG_PHASE_PHASE ≠ 4 →
      (s.shutterRuns = false → ∃ t, exec .calEventRequest s = .next t ∧ t.get Reg.CAL_STATUS_PENDING = 1 ∧
        RegsKept s t [Reg.CAL_STATUS] ∧ t.mem = s.mem) ∧
      (s.shutterRuns = true → ∃ t, exec .calEventRequest s = .next t ∧
        t = { s.applied with cal := { s.cal with held := true } }) ∧
      (s.flag Reg.CAL_STATUS_FIRST_DONE = true → s.flag Reg.CAL_STATUS_RUNNING = false → ∃ t, exec .calCancel s = .next t ∧
        t.get Reg.CAL_STATUS_PENDING = 0 ∧ t.cal.held = false ∧ t.cal.fgap = false ∧ RegsKept s t [Reg.CAL_STATUS]) ∧
      (s.flag Reg.CAL_STATUS_FIRST_DONE = true → s.shutterRuns = true → s.cal.closed = false → ∃ t, exec .calCancel s = .next t ∧
        ScriptOver t 0x80 ∧ t.get Reg.CAL_STATUS_PENDING = 0 ∧ t.get Reg.CAL_RESULT_OUTCOME = 4) ∧
      (s.flag Reg.CAL_STATUS_FIRST_DONE = false → exec .calCancel s = .next (s.refuse Reg.CAL_CMD)) ∧
      (∀ n, n < 16 → s.flag Reg.CAL_STATUS_RUNNING = false → 0 < s.cal.lens.getD n 256 → bits (s.scriptWord n 0) 24 8 ≤ 0x0F →
        ∃ t, exec (.calRun n) s = .next t ∧
        t.get Reg.CAL_STATUS_RUNNING = 1 ∧ t.scriptNo = n ∧ t.scriptPc = 0 ∧ t.cal.op = none ∧ t.cal.shutter = false ∧
        RegsKept s t [Reg.CAL_STATUS, Reg.CAL_SCRIPT_STAT]) ∧
      (∀ n, s.flag Reg.CAL_STATUS_RUNNING = true → exec (.calRun n) s = .next (s.refuse Reg.CAL_CMD)) ∧
      (∃ t, exec .calClrCounters s = .next t ∧ t.word Reg.CAL_COUNTS = 0 ∧ t.word Reg.CAL_BLIND_LINES = 0 ∧ t.word Reg.CAL_GLEAN_UPDATES = 0 ∧
        RegsKept s t [Reg.CAL_COUNTS, Reg.CAL_BLIND_LINES, Reg.CAL_GLEAN_UPDATES] ∧ OnlyApplied s t)) ∧
    (∀ a, s.cal.acceptedTick = some a → s.get Reg.CAL_TRIG_MAX_INTERVAL ≠ 0 → s.shutterRuns = false →
      ∃ t, exec .intervalRequest s = .next t ∧ t.get Reg.CAL_STATUS_PENDING = 1 ∧ RegsKept s t [Reg.CAL_STATUS] ∧
        t.time.ticks = Nat.max s.time.ticks (Nat.max (a + msTicks (1000 * s.get Reg.CAL_TRIG_MAX_INTERVAL)) s.cal.silentUntil)) ∧
    (s.flag Reg.CAL_STATUS_PENDING = true → s.flag Reg.CAL_STATUS_RUNNING = false →
      0 < s.cal.lens.getD (s.get Reg.CAL_CTRL_SHUTTER_SCRIPT) 256 → bits (s.scriptWord (s.get Reg.CAL_CTRL_SHUTTER_SCRIPT) 0) 24 8 ≤ 0x0F → ∃ t, exec .shutterScriptStart s = .next t ∧
        t.get Reg.CAL_STATUS_RUNNING = 1 ∧ t.scriptNo = s.get Reg.CAL_CTRL_SHUTTER_SCRIPT ∧ t.scriptPc = 0 ∧ t.cal.shutter = true ∧
        RegsKept s t [Reg.CAL_STATUS, Reg.CAL_SCRIPT_STAT]) ∧
    (∀ d, s.due Timer.gapTimeout = some d → ∃ t, exec .calGapTimeout s = .next t ∧
      t.due Timer.gapTimeout = some (Nat.max s.time.ticks d + msTicks (s.get Reg.CAL_GAP_GAP_TIMEOUT)) ∧
      t.pair Reg.GEN_EPOS_LO = (s.pair Reg.GEN_EPOS_LO + 1) % 2 ^ 64 ∧ t.mem = s.mem ∧ t.cal = s.cal) ∧
    (∀ d, s.due Timer.flagRetry = some d → ∃ t u : State, exec .flagOpenRetry s = .next t ∧ u = (s.elapseTo d).disarm Timer.flagRetry ∧
      t = (u.auxRun 0 1 0).arm Timer.flagRetry (msTicks 100) ∧ t.due Timer.flagRetry = some (Nat.max s.time.ticks d + msTicks 100) ∧
      (s.cfg.stage = .running → s.get Reg.VLV_AUX_STATUS_STATE0 ≠ 4 → 0 < peakMa (s.profile 17) → t.get Reg.VLV_AUX_STATUS_STATE0 = 1)) ∧
    (∀ d, s.due Timer.qual = some d → s.flag Reg.CAL_STATUS_QUAL_BUSY = true → ∃ t, exec .qualTimeout s = .next t ∧
      t.get Reg.CAL_STATUS_QUAL_BUSY = 0 ∧ t.get Reg.CAL_QUAL_INFO_PARTIAL = 1 ∧
      t.get Reg.CAL_QUAL_INFO_PIXELS = (s.cal.qual.filter (fun e => decide (0 < e.2.2.2))).length % 2 ^ Reg.CAL_QUAL_INFO_PIXELS.width ∧ t.cal.qual = []) ∧
    (∀ d, s.due Timer.settling = some d → ∃ t, exec .settlingEvaluation s = .next t ∧
      t.cal.settle = (s.healthyReadings :: s.cal.settle).take 61 ∧ t.due Timer.settling = some (Nat.max s.time.ticks d + msTicks 1000) ∧
      (Nat.max s.time.ticks d < s.time.commitTick + msTicks 60000 → t.get Reg.CFG_STATUS_SETTLING = s.get Reg.CFG_STATUS_SETTLING) ∧
      (∀ r, s.time.commitTick + msTicks 60000 ≤ Nat.max s.time.ticks d → settlingRate ((s.healthyReadings :: s.cal.settle).take 61) = some r →
        r < 10000 * s.get Reg.CAL_SETTLE_RATE → t.get Reg.CFG_STATUS_SETTLING = 0))

/-- Outside start-up step 7, a write to the script memory of a script that does not run puts the word; the running script's words and step 7
are REFUSED. A write to a trim register while admission is not active and outside step 7 takes the register's writable bits (and of an
FTRIM word only the furrows that exist) and asks for a shutter event; while admission is active it is REFUSED. (R54, R171, R173, R176,
Table 6-18; derived) -/
def Obligations.ScriptAndTrimWrites : Prop :=
  ∀ (s : State) (addr value : Nat), s.reaches addr = true →
    (Reg.CAL_SCRIPT_MEM 0 0 ≤ addr → addr < Reg.CAL_SCRIPT_MEM 16 0 → addr % 4 = 0 →
      (s.get Reg.CFG_PHASE_PHASE ≠ 4 → s.flag Reg.CAL_STATUS_RUNNING = false ∨ s.scriptNo ≠ (addr - Reg.CAL_SCRIPT_MEM 0 0) / 1024 →
        ∃ t, exec (.scriptWrite addr value) s = .next t ∧ t.word addr = BitVec.ofNat 32 value ∧ RegsKept s t [addr] ∧
          t = { s.applied with regs := t.regs, cal := t.cal } ∧ t.cal = { s.cal with lens := t.cal.lens } ∧
          (addr - Reg.CAL_SCRIPT_MEM 0 0) % 1024 / 4 < t.cal.lens.getD ((addr - Reg.CAL_SCRIPT_MEM 0 0) / 1024) 256) ∧
      (s.get Reg.CFG_PHASE_PHASE = 4 ∨ s.flag Reg.CAL_STATUS_RUNNING = true ∧ s.scriptNo = (addr - Reg.CAL_SCRIPT_MEM 0 0) / 1024 →
        exec (.scriptWrite addr value) s = .next (s.refuse addr))) ∧
    (isTrim addr = true →
      (s.admitting = false → s.get Reg.CFG_PHASE_PHASE ≠ 4 → s.cal.closed = false ∨ s.shutterRuns = false →
        ∃ t, exec (.trimWrite addr value) s = .next t ∧ t.get Reg.CAL_STATUS_PENDING = 1 ∧ RegsKept s t [addr, Reg.CAL_STATUS] ∧ t.mem = s.mem ∧
          (∀ r, regRow addr = some r → addr < Reg.CAL_FTRIM 0 → t.word addr = BitVec.ofNat 32 (r.merge (s.word addr).toNat value)) ∧
          (∀ r, regRow addr = some r → Reg.CAL_FTRIM 0 ≤ addr →
            t.word addr = BitVec.ofNat 32 (r.merge (s.word addr).toNat value &&& ftrimMask ((addr - Reg.CAL_FTRIM 0) / 4)))) ∧
      (s.admitting = true ∨ s.get Reg.CFG_PHASE_PHASE = 4 → exec (.trimWrite addr value) s = .next (s.refuse addr)))

/-- COUNTER_INCREMENT of a host counter (1,032 to 1,055) adds one and saturates at 2^48 - 1. COUNTER_CLEAR of a valve or host counter makes
it zero. Every other register, and everything else but the applied status, stays. For any other counter the word is REFUSED and changes
no counter. (R377, Table 14-4, Table 14-9; derived) -/
def Obligations.CountersOfTheHost : Prop :=
  ∀ (s : State) (i : Nat), s.reaches Reg.KEP_CMD = true →
    (1032 ≤ i → i ≤ 1055 → ∃ t, exec (.counterIncrement i) s = .next t ∧
      t.pair (Reg.KEP_CNT_LO i) = Nat.min (s.pair (Reg.KEP_CNT_LO i) + 1) (2 ^ 48 - 1) ∧
      RegsKept s t [Reg.KEP_CNT_LO i, Reg.KEP_CNT_LO i + 4] ∧ OnlyApplied s t) ∧
    (i ≤ 1023 ∨ 1032 ≤ i ∧ i ≤ 1055 → ∃ t, exec (.counterClear i) s = .next t ∧ t.pair (Reg.KEP_CNT_LO i) = 0 ∧
      RegsKept s t [Reg.KEP_CNT_LO i, Reg.KEP_CNT_LO i + 4] ∧ OnlyApplied s t) ∧
    (i < 1032 ∨ 1055 < i → exec (.counterIncrement i) s = .next (s.refuse Reg.KEP_CMD)) ∧
    (1023 < i → i < 1032 ∨ 1055 < i → exec (.counterClear i) s = .next (s.refuse Reg.KEP_CMD))

/-- With no store running, STORE (not within 10 s of the previous set store) and COUNT_PERIOD_STORE (when its period ends) start one store
of the 100 pages of the next generation, filled from the counters as they stand, show BUSY and OP 3, and write neither memory nor any
other register. STORE within 10 s is REFUSED. (R367, R378, R379, Table 14-9; derived) -/
def Obligations.CounterSetStoreTakesASnapshot : Prop :=
  ∀ s : State, s.keep.run = none →
    (s.reaches Reg.KEP_CMD = true → (s.keep.setTick = none ∨ ∃ k, s.keep.setTick = some k ∧ k + msTicks 10000 ≤ s.time.ticks) →
      ∃ t, exec .keepStore s = .next t ∧
        t.keep = { s.keep with run := some ⟨.counters, counterPages s s.nextGen, 0, 0, 0, s.nextGen, false⟩, setTick := some s.time.ticks } ∧
        t.get Reg.KEP_STATUS_BUSY = 1 ∧ t.get Reg.KEP_STATUS_OP = 3 ∧ t.mem = s.mem ∧ RegsKept s t [Reg.KEP_STATUS]) ∧
    (s.reaches Reg.KEP_CMD = true → (∃ k, s.keep.setTick = some k ∧ s.time.ticks < k + msTicks 10000) →
      exec .keepStore s = .next (s.refuse Reg.KEP_CMD)) ∧
    (∀ d, s.due Timer.countPeriod = some d → ∃ t u, exec .countPeriodStore s = .next t ∧ u = (s.elapseTo d).disarm Timer.countPeriod ∧
      t.keep = { s.keep with run := some ⟨.counters, counterPages u s.nextGen, 0, 0, 0, s.nextGen, false⟩, setTick := some u.time.ticks } ∧
      t.due Timer.countPeriod = some (u.time.ticks + msTicks (1000 * s.get Reg.KEP_CTRL_COUNT_PERIOD)) ∧
      t.get Reg.KEP_STATUS_BUSY = 1 ∧ t.get Reg.KEP_STATUS_OP = 3 ∧ t.mem = s.mem ∧ RegsKept s t [Reg.KEP_STATUS])

/-- STORE_COMMIT of a host, mark or counter-set store writes exactly its pages into the working array, marks it committed and puts its marks
or generation in force. STORE_COMPLETE writes the same pages into the shadow array, counts them in KEP_STORES, and with nothing waiting
leaves BUSY and OP zero. A store that has not committed does not complete. (R368, R376, R378, Table 14-9; derived) -/
def Obligations.StoreCommitAndCompletion : Prop :=
  ∀ (s : State) (st : Store), s.keep.run = some st → st.kind ≠ .save →
    (st.committed = false → ∃ t, exec .storeCommit s = .next t ∧ t.mem = putPages s.mem st.pages ∧
      t.keep.run = some { st with committed := true } ∧ t.keep.shadow = s.keep.shadow ∧
      (st.kind = .host → RegsKept s t []) ∧
      (st.kind = .mark → t.pair Reg.KEP_SEQ_MARK_LO = st.seqMark % 2 ^ 64 ∧ t.pair Reg.KEP_RPOS_MARK_LO = st.rposMark % 2 ^ 64 ∧
        t.pair Reg.KEP_MPOS_LO = st.mpos % 2 ^ 64) ∧
      (st.kind = .counters → t.get Reg.KEP_SET_GEN = st.gen % 2 ^ 32 ∧ t.keep.haveSet = true)) ∧
    (st.committed = true → s.keep.queue = [] → ∃ t, exec .storeComplete s = .next t ∧
      t.keep = { s.keep with shadow := putPages s.keep.shadow st.pages, run := none } ∧ t.mem = s.mem ∧
      t.word Reg.KEP_STORES = BitVec.ofNat 32 (Nat.min ((s.word Reg.KEP_STORES).toNat + st.pages.length) (2 ^ 32 - 1)) ∧
      t.get Reg.KEP_STATUS_BUSY = 0 ∧ t.get Reg.KEP_STATUS_OP = 0 ∧ RegsKept s t [Reg.KEP_STORES, Reg.KEP_STATUS]) ∧
    (st.committed = false → exec .storeComplete s = .next s)

/-- When its minute ends OPERATION_MINUTE adds one to counter 1,029 (saturating), starts the next minute, and changes no other register.
CLR_ERRORS makes KEP_ERRORS and KEP_ERR_PAGE zero and UNCORR 0, and changes no other register and no other bit of KEP_STATUS. (R377,
R383, Table 14-4, Table 14-9; derived) -/
def Obligations.CountersCountMinutesAndErrorsClear : Prop :=
  (∀ (s : State) (d : Nat), s.due Timer.minute = some d → ∃ t, exec .operationMinute s = .next t ∧
    t.pair (Reg.KEP_CNT_LO 1029) = Nat.min (s.pair (Reg.KEP_CNT_LO 1029) + 1) (2 ^ 48 - 1) ∧
    t.time.ticks = Nat.max s.time.ticks d ∧ t.due Timer.minute = some (t.time.ticks + msTicks 60000) ∧ t.mem = s.mem ∧
    RegsKept s t [Reg.KEP_CNT_LO 1029, Reg.KEP_CNT_LO 1029 + 4]) ∧
  (∀ s : State, s.reaches Reg.KEP_CMD = true → ∃ t, exec .kepClrErrors s = .next t ∧ t.word Reg.KEP_ERRORS = 0 ∧
    t.word Reg.KEP_ERR_PAGE = 0 ∧ t.word Reg.KEP_STATUS = Reg.KEP_STATUS_UNCORR.into (s.word Reg.KEP_STATUS) 0 ∧ OnlyApplied s t ∧
    RegsKept s t [Reg.KEP_ERRORS, Reg.KEP_ERR_PAGE, Reg.KEP_STATUS])

/-- With no store running or waiting, a WRITE to an unprotected page of the host region starts one page store and changes no byte of memory.
At its commit, word i of the frame stands at word ((ADDR / 4) + i) mod 16 of the page unless a later word of the frame replaced it
there, and every byte that belongs to no such word is as before. Outside the host region, or on a protected page, the WRITE is REFUSED
whole, once the stores that run or wait are over. (R367, R368, R372, R373, R374, Table 14-1; derived) -/
def Obligations.KeepPageWriteThenCommit : Prop :=
  ∀ (s : State) (addr : Nat) (words : List Word), s.reaches addr = true → 0x04000000 ≤ addr →
    (hostPage ((addr - 0x04000000) / 64) = true → protectedPage (s.get Reg.KEP_CTRL_BP) ((addr - 0x04000000) / 64) = false →
      s.keep.run = none → s.keep.queue = [] →
      ∃ t u, exec (.keepPageWrite addr words) s = .next t ∧ exec .storeCommit t = .next u ∧ t.mem = s.mem ∧
        t.get Reg.KEP_STATUS_BUSY = 1 ∧ t.get Reg.KEP_STATUS_OP = 1 ∧ RegsKept s t [Reg.KEP_STATUS] ∧
        (∀ i k, i < words.length → (∀ j, i < j → j < words.length → (addr / 4 + j) % 16 ≠ (addr / 4 + i) % 16) → k < 4 →
          (u.byte (keepPage ((addr - 0x04000000) / 64) + 4 * ((addr / 4 + i) % 16) + k)).toNat =
            (words.getD i 0).toNat / 256 ^ k % 256) ∧
        (∀ a, (∀ i k, i < words.length → k < 4 → a ≠ keepPage ((addr - 0x04000000) / 64) + 4 * ((addr / 4 + i) % 16) + k) →
          u.byte a = s.byte a)) ∧
    (hostPage ((addr - 0x04000000) / 64) = false ∨ protectedPage (s.get Reg.KEP_CTRL_BP) ((addr - 0x04000000) / 64) = true →
      exec (.keepPageWrite addr words) s = .next (s.storesOver.refuse addr)) ∧
    (s.keep.run = none → s.keep.queue = [] → s.storesOver = s)

/-- From the end of start-up step 2 on, PFI_N and a low VKEEP start the save sequence with cause 1 and 2: every switched domain is FALLOW,
the volatile windows and pending shadow words are lost, no line runs, and with no store running the bulk store starts with the next mark
position. Its commit writes its pages to both arrays, shows HELD and holds the part. HELD_EXIT then closes the charge switch and returns
the part to step 1 with the non-volatile array kept; after a thermal trip the part restarts once it has been cool for 10 s. Before step
2 completes PFI_N only shows. (R415, R416, R417, R420, Table 16-2, Table 16-6; derived) -/
def Obligations.SaveSequenceAndRestart : Prop :=
  (∀ (s : State) (mv : Nat), s.canSave = true → ∃ t, exec (.pfiNRecognised mv) s = .next t ∧ t.cfg.stage = .saving ∧ t.pwr.pfi = true ∧
    t.pwr.save.map (fun v => (v.cause, v.mv)) = some (1, mv) ∧ (∀ d, d < 36 → t.domain d = 0) ∧
    (∀ a, a < 0x04000000 → t.byte a = memDefault a) ∧ t.shadow = [] ∧ t.time.lines = false ∧
    (s.keep.run = none → t.keep.run.map (fun st => (st.kind, st.committed)) = some (.save, false)) ∧ t.keep.shadow = s.keep.shadow) ∧
  (∀ (s : State) (mv : Nat), s.canSave = true → ∃ t, exec (.vkeepLowRecognised mv) s = .next t ∧ t.cfg.stage = .saving ∧
    t.pwr.save.map (fun v => (v.cause, v.mv)) = some (2, mv) ∧ (∀ d, d < 36 → t.domain d = 0) ∧
    (∀ a, a < 0x04000000 → t.byte a = memDefault a) ∧ t.shadow = [] ∧ t.time.lines = false ∧ t.keep.shadow = s.keep.shadow) ∧
  (∀ (s : State) (mv : Nat), s.canSave = false → ∃ t, exec (.pfiNRecognised mv) s = .next t ∧ t.pwr.pfi = true ∧ t.cfg = s.cfg ∧
    t.get Reg.PWR_STATUS_PFI = 1 ∧ RegsKept s t [Reg.PWR_STATUS] ∧ t.mem = s.mem) ∧
  (∀ (s : State) (v : SaveState) (st : Store) (w mv : Nat), s.pwr.save = some v → s.keep.run = some st → st.kind = .save → st.committed = false →
    ∃ t, exec (.saveBulkStoreCommit w mv) s = .next t ∧ t.cfg.stage = .held ∧ t.get Reg.PWR_STATUS_HELD = 1 ∧ t.mem = putPages s.mem st.pages ∧
      t.keep.shadow = putPages s.keep.shadow st.pages ∧ t.keep.run = none ∧ t.get Reg.KEP_STATUS_BUSY = 0 ∧
      t.pair Reg.KEP_MPOS_LO = st.mpos % 2 ^ 64 ∧ t.time.ticks = s.time.ticks + w) ∧
  (∀ s : State, s.cfg.stage = .held → s.pwr.save.map (fun v => v.cause) ≠ some 3 → ∃ t, exec .heldExit s = .next t ∧ t.cfg.stage = .off ∧
    t.pwr.pfi = false ∧ t.pwr.chargeSwitch = true ∧ t.keep.shadow = s.keep.shadow ∧ t.pending = s.pending) ∧
  (∀ (s : State) (c : Nat), s.cfg.stage = .held → s.pwr.save.map (fun v => v.cause) = some 3 → s.pwr.coolSince = some c →
    ∃ t, exec .thermalTripRestart s = .next t ∧ t.cfg.stage = .off ∧ t.keep.shadow = s.keep.shadow ∧ t.pending = s.pending)

/-- VCORE_EVALUATION moves the VID code by at most one step and stays within VID_MIN and VID_MAX. A temperature conversion with all sensors
in band collects; the renewal of a region whose two sensors agree shows the hotter. BALLAST_UPDATE enters work and ballast of every
region. THROTTLE_EVALUATION without a region at T_TRIP takes E_used and the hottest region. Each evaluation is due again after its
period. HOLDUP_CHECK opens the charge switch, and is REFUSED while admission is active; its end enters C and CHECKED. The charge switch
follows VKIN outside a check and a save sequence, and before a start its closing ends VKEEP_LOW (the model's choice, log entry 93).
(R399, R402, R406, R408, R409, R412, R422; derived) -/
def Obligations.PowerControllerEvaluations : Prop :=
  ∀ s : State,
    (∀ lanes walk engines d, s.due Timer.vcore = some d → ∃ t, exec (.vcoreEvaluation lanes walk engines) s = .next t ∧
      t.due Timer.vcore = some (Nat.max s.time.ticks d + msTicks 1) ∧
      (t.get Reg.PWR_VID_STATUS_CODE = s.get Reg.PWR_VID_STATUS_CODE ∨
       t.get Reg.PWR_VID_STATUS_CODE = s.get Reg.PWR_VID_STATUS_CODE + 1 ∧ s.get Reg.PWR_VID_STATUS_CODE < s.get Reg.PWR_VID_VID_MAX ∨
       t.get Reg.PWR_VID_STATUS_CODE + 1 = s.get Reg.PWR_VID_STATUS_CODE ∧ s.get Reg.PWR_VID_VID_MIN < s.get Reg.PWR_VID_STATUS_CODE)) ∧
    (∀ cs : List (Bool × Int), s.cfg.stage ≠ .off → (∀ c ∈ cs, c.1 = true) → (s.pwr.readings.getD 0 []).length < 9 →
      ∃ t, exec (.tempSensorConvert cs) s = .next t ∧ OnlyRegs s { t with pwr := s.pwr } ∧ RegsKept s t [] ∧
        t.pwr = { s.pwr with readings := (List.range 24).map (fun k => s.pwr.readings.getD k [] ++ [(cs.getD k (true, 0)).2]) }) ∧
    (∀ (reading : Nat → Int) (z : Nat), z < 12 → s.broken (2 * z) = false → s.broken (2 * z + 1) = false →
      (∀ k, -50000000 ≤ reading k ∧ reading k ≤ 150000000) →
      (reading (2 * z) - reading (2 * z + 1)).natAbs ≤ 100000 * s.get Reg.PWR_TRIP_PAIR_TOL →
      (s.renewRegion reading z).getS (Reg.PWR_TEMP_TEMP z) = max (reading (2 * z)) (reading (2 * z + 1))) ∧
    (∀ works d z, s.due Timer.ballast = some d → z < 12 → ∃ t, exec (.ballastUpdate works) s = .next t ∧
      t.due Timer.ballast = some (Nat.max s.time.ticks d + usTicks 100) ∧
      t.get (Reg.PWR_LOAD_WORK_MW z) = Nat.min (works.getD z 0) 65535 ∧ t.get (Reg.PWR_LOAD_BALLAST_MW z) = Nat.min (s.ballast z (works.getD z 0)) 32767) ∧
    (∀ mv d, s.due Timer.throttle = some d →
      (∀ u : State, u = ((((s.elapseTo d).disarm Timer.throttle).arm Timer.throttle (msTicks 1)).throttleStep) → u.regionsAt u.tTrip = [] →
        exec (.throttleEvaluation mv) s = .next u ∧ u.pwr.eUsed = usedNext s.pwr.eUsed (max 0 (s.hottest.2 - s.tThrottle)) ∧
        u.get Reg.PWR_THROTTLE_STATUS_HOTTEST = s.hottest.1 % 16)) ∧
    (s.reaches Reg.PWR_CMD = true → s.admitting = false → ∃ t, exec .holdupCheck s = .next t ∧
      t = { s.applied with pwr := { s.pwr with checking := true, chargeSwitch := false } }) ∧
    (s.reaches Reg.PWR_CMD = true → s.admitting = true → exec .holdupCheck s = .next (s.refuse Reg.PWR_CMD)) ∧
    (∀ h : HoldupFacts, s.pwr.checking = true → ∃ t, exec (.holdupCheckDone h) s = .next t ∧ t.get Reg.PWR_HOLDUP_CHECKED = 1 ∧
      t.pwr = { s.pwr with checking := false, chargeSwitch := true } ∧
      (h.v2 < h.v1 → t.get Reg.PWR_HOLDUP_C_UF = Nat.min (rhe 199000000 ((h.v1 - h.v2 : Nat) : Int)).toNat 65535)) ∧
    (∀ above, s.pwr.checking = false → s.pwr.save = none → ∃ t, exec (.vkinChargeThreshold above) s = .next t ∧ t.pwr = { s.pwr with chargeSwitch := above } ∧
      (s.cfg.stage ≠ .off ∨ above = false → t.regs = s.regs) ∧
      (s.cfg.stage = .off → above = true → t.flag Reg.PWR_STATUS_VKEEP_LOW = false ∧ RegsKept s t [Reg.PWR_STATUS]))

/-- A pass that is due puts the pending sequence set in force, shows RUNNING and begins at the first entry. The end of an entry writes its
code, OVR and VALID and its scaled value together; an input beyond full scale reads as the full-scale code of its sign. SELF_CAL of
gains 0 to 5 and EXC_CAL queue their phases and are REFUSED while a calibration runs, as is SELF_CAL of gains 6 and 7. The end of an
offset phase writes OFS, of a gain phase GAIN, clearing the gain's UNCAL bit. (R386, R387, R391, R392, R394, R395, R396, Table 15-7;
derived) -/
def Obligations.ConverterRunsItsSequence : Prop :=
  ∀ s : State,
    (∀ d, s.due Timer.hkcPass = some d → s.hkc.inPass = false → ∃ t, exec .hkcPassStart s = .next t ∧
      t = ((s.elapseTo d).disarm Timer.hkcPass).startPass ∧ t.get Reg.HKC_STATUS_SET_PENDING = 0 ∧
      (∀ n, s.hkc.job = none → s.hkc.phases = [] → s.resetting 12 = false →
        (List.range 24).find? (fun k => (s.transfer inSetHkc).entryOn k) = some n → t.get Reg.HKC_STATUS_RUNNING = 1 ∧
        t.get Reg.HKC_STATUS_ENTRY = n ∧ t.hkc.inPass = true ∧ t.hkc.next = n + 1 ∧ t.hkc.job.isSome = true)) ∧
    (∀ n w ofs gain cur code ovr d, s.hkc.job = some (.entry n w ofs gain cur) → s.due Timer.hkcEntry = some d →
      ∃ t u v : State, exec (.hkcEntryDone code ovr) s = .next t ∧ t = v.hkcNext ∧ u = (s.elapseTo d).disarm Timer.hkcEntry ∧
        v = ({ u with hkc := { u.hkc with job := none } }).entryDone n w ofs gain cur code ovr ∧
        (n < 24 → -8388608 ≤ code → code ≤ 8388607 → t.get (Reg.HKC_RAW_VALID n) = 1 ∧
          t.get (Reg.HKC_RAW_CODE n) = (if ovr then (if 0 ≤ code then 0x7FFFFF else 0x800000) else (code % 16777216).toNat))) ∧
    (∀ n w ofs gain cur code ovr, n < 24 → seqField w (Reg.HKC_SEQ_SOURCE 0) = 16 → -8388608 ≤ code → code ≤ 8388607 →
      ∃ v, v = s.entryDone n w ofs gain cur code ovr ∧ v.get (Reg.HKC_RAW_VALID n) = 1 ∧ v.get (Reg.HKC_RAW_OVR n) = (if ovr then 1 else 0) ∧
        v.get (Reg.HKC_RAW_CODE n) = (if ovr then (if 0 ≤ code then 0x7FFFFF else 0x800000) else (code % 16777216).toNat) ∧
        RegsKept s v [Reg.HKC_RAW n, Reg.HKC_VAL n]) ∧
    (s.reaches Reg.HKC_CMD = true → s.calibrating = false →
      (∀ g, g ≤ 5 → ∃ t, exec (.selfCal g) s = .next t ∧ t = (s.addPhases [.offset g, .gain g]).applied ∧ t.get Reg.HKC_STATUS_CAL_BUSY = 1) ∧
      ∃ t, exec .excCal s = .next t ∧ t = (s.addPhases [.exc 0, .exc 1, .exc 2, .exc 3]).applied ∧ t.get Reg.HKC_STATUS_EXC_BUSY = 1) ∧
    (s.reaches Reg.HKC_CMD = true → (s.calibrating = true → exec .excCal s = .next (s.refuse Reg.HKC_CMD)) ∧
      (∀ g, g < 8 → s.calibrating = true ∨ 5 < g → exec (.selfCal g) s = .next (s.refuse Reg.HKC_CMD))) ∧
    (∀ p factor d, s.hkc.job = some (.phase p) → s.due Timer.hkcPhase = some d → ∃ t u : State, u = (s.elapseTo d).disarm Timer.hkcPhase ∧
      exec (.calPhaseDone factor) s = .next t ∧ t = ((({ u with hkc := { u.hkc with job := none } }).phaseDone p factor).hkcBusy).hkcNext ∧
      (∀ g, g < 6 → (p = .offset g → t.get (Reg.HKC_OFS_OFS g) = factor % 2 ^ 32) ∧
        (p = .gain g → t.get (Reg.HKC_GAIN_GAIN g) = factor % 2 ^ 32 ∧ bit (t.get Reg.HKC_STATUS_UNCAL) g = false))) ∧
    (∀ g factor, g < 6 → (s.phaseDone (.offset g) factor).get (Reg.HKC_OFS_OFS g) = factor % 2 ^ 32 ∧
      (s.phaseDone (.gain g) factor).get (Reg.HKC_GAIN_GAIN g) = factor % 2 ^ 32 ∧
      bit ((s.phaseDone (.gain g) factor).get Reg.HKC_STATUS_UNCAL) g = false)

/-- For a resistance ratio below R0 that the relation of R389 with C reaches between -2^31 microkelvin and 0, the search gives a temperature
t at which the relation reaches the ratio while at t - 1 it does not: the exact solution lies between, so that t and t - 1 are both
within 1 microkelvin. The result of pt1000 is one of the two; which one is the part's (a free value, log entry 5). (R389; derived) -/
def Obligations.Pt1000InvertsItsRelation : Prop :=
  (∀ q : Rat, pt1000Below (-2147483648) < q → q ≤ pt1000Below 0 →
    q ≤ pt1000Below (pt1000Search q 31 (-2147483648)) ∧ pt1000Below (pt1000Search q 31 (-2147483648) - 1) < q) ∧
  (∀ r : Rat, r < 1000 → pt1000 r = some (pt1000Search (r / 1000 - 1) 31 (-2147483648)) ∨
    pt1000 r = some (pt1000Search (r / 1000 - 1) 31 (-2147483648) - 1))

/-- In normal running, each of the 14 commands starts the reset of its function when that reset does not run and the function's domains are
not all FALLOW: RST_LAST names it with cause 1, its BUSY bit is set, its host count and the event position rise by one, it joins the
running resets, and then its own discarding action runs. While the reset runs, with FALLOW domains, and in the unconfigured state the
word is REFUSED. (R443, R444, R445, R447, R448, Table 18-4, Table 18-8; derived) -/
def Obligations.FunctionResetsBegin : Prop :=
  ∀ p ∈ ([(.readoutReset, 0), (.correctionReset, 1), (.walkReset, 2), (.detectionReset, 3), (.asterReset, 4), (.drillReset, 5), (.valveReset, 6),
      (.recordReset, 7), (.archiveReset, 8), (.nvmeReset, 9), (.ethernetReset, 10), (.ptpReset, 11), (.hkcReset, 12),
      (.calibrationReset, 13)] : List (Instr × Nat)), ∀ s : State,
    (s.cfg.stage = .running → s.resetting p.2 = false → s.funcFallow p.2 = false → ∃ t u : State, exec p.1 s = .next t ∧
      t = (u.resetAction p.2).applied ∧ t.get Reg.RST_LAST_FUNC = p.2 ∧ t.get Reg.RST_LAST_CAUSE = 1 ∧ bit (t.get Reg.RST_STATUS_BUSY) p.2 = true ∧
      t.get (Reg.RST_COUNT_HOST p.2) = Nat.min (s.get (Reg.RST_COUNT_HOST p.2) + 1) 65535 ∧ t.resetting p.2 = true ∧ u.get Reg.RST_LAST_FUNC = p.2 ∧ u.get Reg.RST_LAST_CAUSE = 1 ∧ bit (u.get Reg.RST_STATUS_BUSY) p.2 = true ∧
      u.get (Reg.RST_COUNT_HOST p.2) = Nat.min (s.get (Reg.RST_COUNT_HOST p.2) + 1) 65535 ∧
      u.pair Reg.GEN_EPOS_LO = (s.pair Reg.GEN_EPOS_LO + 1) % 2 ^ 64 ∧ u.resetting p.2 = true ∧ u.mem = s.mem) ∧
    (s.cfg.stage = .running → s.resetting p.2 = true ∨ s.funcFallow p.2 = true → exec p.1 s = .next (s.refuse Reg.RST_FUNC)) ∧
    (s.cfg.stage = .unconfigured → exec p.1 s = .next (s.refuse Reg.RST_FUNC))

/-- CORRECTION empties its lanes, and every pixel in its buffer and lanes becomes lost data. WALK empties the row history and its lag state
is zero and flagged lost. PTP enters FREE with its frequency correction held. HKC loses the entry in conversion, and a calibration phase
in conversion is due again. (R142, R445, R446; derived) -/
def Obligations.FunctionResetsDiscardTheirWork : Prop :=
  ∀ s : State,
    ((s.resetAction 1).cor.lanes = List.replicate 9 none ∧ (s.resetAction 1).cor.again = [] ∧ ∀ p ∈ (s.resetAction 1).cor.buffer, p.out = true ∧ p.raw = 0) ∧
    ((s.resetAction 2).walk.hist = [] ∧ (s.resetAction 2).walk.histFrom = s.time.line + 1 ∧ ∀ e ∈ (s.resetAction 2).walk.lag, e.2 = (0, Pf.lost)) ∧
    ((s.resetAction 11).get Reg.PTP_STATUS_STATE = 0 ∧ RegsKept s (s.resetAction 11) [Reg.PTP_STATUS] ∧ (s.resetAction 11).ptp.masters = []) ∧
    ((s.resetAction 12).hkc.job = none ∧ (s.resetAction 12).hkc.next = 0 ∧
      ∀ p, s.hkc.job = some (.phase p) → (s.resetAction 12).hkc.phases = p :: s.hkc.phases)

/-- In normal running the watchdog of a function with AUTO_EN set starts its reset with cause 2 when none runs and its domains are not
FALLOW; the third within 10 s clears its AUTO_EN bit. A reset that is ready to complete leaves the running resets, does its closing
action and then clears its BUSY bit and takes an event position. RST_CMD clears the 14 reset counts and REPLAYED and no other register.
(R443, R444, R448, Table 18-8, Table 18-9; derived) -/
def Obligations.WatchdogsAndResetEnds : Prop :=
  ∀ s : State,
    (∀ f, f < 14 → s.cfg.stage = .running → hasWatchdog f = true → bit (s.get Reg.RST_AUTO_AUTO_EN) f = true → s.resetting f = false →
      s.funcFallow f = false → ∃ t, exec (.watchdogExpiry f) s = .next t ∧ t = (s.beginReset f 2).noteDog f ∧ t.get Reg.RST_LAST_FUNC = f ∧
      t.get Reg.RST_LAST_CAUSE = 2 ∧ t.get (Reg.RST_COUNT_WATCHDOG f) = Nat.min (s.get (Reg.RST_COUNT_WATCHDOG f) + 1) 65535 ∧
      t.resetting f = true ∧ bit (t.get Reg.RST_STATUS_BUSY) f = true) ∧
    (∀ f, f < 14 → 2 ≤ (s.rst.dogs.filter (fun d => decide (d.1 = f ∧ s.time.ticks < d.2 + msTicks 10000))).length →
      bit ((s.noteDog f).get Reg.RST_AUTO_AUTO_EN) f = false) ∧
    (∀ f r, f < 14 → s.rst.running.find? (fun x => decide (x.func = f)) = some r → s.resetReady f = true → ∃ t u : State,
      exec (.funcResetDone f) s = .next t ∧ t = u.endReset r ∧ t.resetting f = false ∧ bit (t.get Reg.RST_STATUS_BUSY) f = false ∧
      u = ({ s with rst := { s.rst with running := s.rst.running.filter (fun x => decide (x.func ≠ f)) } }).doneAction r) ∧
    (∀ r : FuncReset, r.func < 14 → bit ((s.endReset r).get Reg.RST_STATUS_BUSY) r.func = false ∧
      (s.endReset r).pair Reg.GEN_EPOS_LO = (s.pair Reg.GEN_EPOS_LO + 1) % 2 ^ 64) ∧
    (s.reaches Reg.RST_CMD = true → ∃ t, exec .rstClrCounters s = .next t ∧ (∀ f, f < 14 → t.word (Reg.RST_COUNT f) = 0) ∧
      t.get Reg.RST_LAST_REPLAYED = 0 ∧ RegsKept s t (Reg.RST_LAST :: (List.range 14).map Reg.RST_COUNT) ∧ OnlyApplied s t)

/-- A PTP message that passes the receive checks of its port, with PTP on and port and domain in use, acts as follows. An Announce that
leaves no qualified master is only listed. A one-step Sync of the selected master enters OFFSET as receive time minus corrected origin
minus DELAY, and a two-step Sync waits for its Follow_Up, which within 1 s does the same. A Delay_Resp to the JT4096's own request
enters DELAY as half of the round trip, rounded half to even. A Sync of another master is counted in DROPPED. A message whose frame
fails a check only counts that check. A frame on the PTP ports that no message stands for is counted in DROPPED. (R335, R336, Table
12-2, Table 12-7; derived) -/
def Obligations.PtpMessagesSteerTheServo : Prop :=
  (∀ (s : State) (p : Nat) (f : RxFrame), p < 4 → s.rxFails p f = none → s.ptpOn = true → s.get Reg.PTP_CTRL_PORT = p →
    (∀ m : Announce, m.domain = s.get Reg.PTP_CTRL_DOMAIN → bestMaster (noteMaster s.ptp.masters m p s.time.ticks) s.time.ticks = none →
      ∃ t, exec (.ptpAnnounce p f m) s = .next t ∧ t = { s with ptp := { s.ptp with masters := noteMaster s.ptp.masters m p s.time.ticks } }) ∧
    (∀ (m : Announce) (b : Master), m.domain = s.get Reg.PTP_CTRL_DOMAIN →
      bestMaster (noteMaster s.ptp.masters m p s.time.ticks) s.time.ticks = some b → ∃ t, exec (.ptpAnnounce p f m) s = .next t ∧
      t.ptp.selected = some b.data.source ∧ t.pair Reg.PTP_GM_LO = b.data.identity % 2 ^ 64 ∧
      (s.get Reg.PTP_STATUS_STATE = 0 → t.get Reg.PTP_STATUS_STATE = 1)) ∧
    (∀ m : SyncMsg, m.domain = s.get Reg.PTP_CTRL_DOMAIN → s.ptp.selected = some m.source → m.twoStep = false →
      ∃ t, exec (.ptpSync p f m) s = .next t ∧ t.get Reg.PTP_STATUS_TWO_STEP = 0 ∧
        t.getS Reg.PTP_OFFSET_OFFSET =
          clampI (-2147483648) 2147483647 (m.received - (m.origin + m.correction) - (s.get Reg.PTP_DELAY_DELAY : Int)) ∧
        t.get Reg.PTP_COUNTS_SYNCS = Nat.min (s.get Reg.PTP_COUNTS_SYNCS + 1) 65535) ∧
    (∀ m : SyncMsg, m.domain = s.get Reg.PTP_CTRL_DOMAIN → s.ptp.selected = some m.source → m.twoStep = true →
      ∃ t, exec (.ptpSync p f m) s = .next t ∧ t.get Reg.PTP_STATUS_TWO_STEP = 1 ∧ t.ptp.sync = some m ∧ t.ptp.syncTick = s.time.ticks ∧
        RegsKept s t [Reg.PTP_STATUS]) ∧
    (∀ m : SyncMsg, m.domain = s.get Reg.PTP_CTRL_DOMAIN → s.ptp.selected ≠ some m.source → ∃ t, exec (.ptpSync p f m) s = .next t ∧
      t.get Reg.PTP_COUNTS_DROPPED = Nat.min (s.get Reg.PTP_COUNTS_DROPPED + 1) 255 ∧ RegsKept s t [Reg.PTP_COUNTS] ∧ OnlyRegs s t) ∧
    (∀ (m : FollowMsg) (y : SyncMsg), m.domain = s.get Reg.PTP_CTRL_DOMAIN → s.ptp.sync = some y → y.seqId = m.seqId → y.source = m.source →
      s.time.ticks ≤ s.ptp.syncTick + msTicks 1000 → ∃ t, exec (.ptpFollowUp p f m) s = .next t ∧ t.ptp.sync = none ∧
        t.getS Reg.PTP_OFFSET_OFFSET =
          clampI (-2147483648) 2147483647 (y.received - (m.origin + m.correction + y.correction) - (s.get Reg.PTP_DELAY_DELAY : Int))) ∧
    (∀ (m : RespMsg) (q : Nat) (t3 t1 t2 : Int), m.domain = s.get Reg.PTP_CTRL_DOMAIN → s.ptp.delayReq = some (q, t3) →
      s.ptp.lastSync = some (t1, t2) → m.own = true → m.seqId = q → s.ptp.selected = some m.source →
      ∃ t, exec (.ptpDelayResp p f m) s = .next t ∧ t.ptp.delayReq = none ∧ RegsKept s t [Reg.PTP_DELAY] ∧
        t.get Reg.PTP_DELAY_DELAY = Nat.min (rhe ((t2 - t1) + (m.received - m.correction - t3)) 2).toNat (2 ^ 32 - 1))) ∧
  (∀ (s : State) (p : Nat) (f : RxFrame) (m : SyncMsg) (c : Field), p < 4 → s.rxFails p f = some c →
    exec (.ptpSync p f m) s = .next (s.bump c 1)) ∧
  (∀ (s : State) (p : Nat) (f : RxFrame), p < 4 → s.rxFails p f = none → f.etherType = 0x0800 → f.dstPort = 319 ∨ f.dstPort = 320 →
    ∃ t, exec (.frameDropped p f) s = .next t ∧ t.get Reg.PTP_COUNTS_DROPPED = Nat.min (s.get Reg.PTP_COUNTS_DROPPED + 1) 255 ∧
      RegsKept s t [Reg.PTP_COUNTS] ∧ OnlyRegs s t)

/-- When its interval ends, with PTP on, a master selected and the port READY, DELAY_REQ sends one packet to UDP port 319 with its sequence
number and send time kept. Without a Sync for four intervals a LOCKED servo goes to HOLDOVER, and after HOLDOVER_S to FREE with its
frequency correction held. An FTACH pulse that its accumulator takes is counted and stamped; a PPS_IN edge is stamped; PPS_OUT rises at
the next whole second of device time for WIDTH_MS. (R335, R336, R338, R339, R432, Table 12-7; derived) -/
def Obligations.ServoTimersAndPulses : Prop :=
  ∀ s : State,
    (∀ d, s.due Timer.delayReq = some d → s.ptpOn = true → s.ptp.selected.isSome = true → s.portReady (s.get Reg.PTP_CTRL_PORT) = true →
      ∃ t, exec .ptpDelayReq s = .next t ∧ t.ptp.delayReq = some (s.ptp.reqId, ((s.elapseTo d).now : Int)) ∧
        t.eth.out.map (fun k => (k.kind, k.port, k.dport, k.payload.length)) = [(2, s.get Reg.PTP_CTRL_PORT, 319, 44)] ∧
        t.due Timer.delayReq = some (Nat.max s.time.ticks d + intervalTicks s.ptp.delayLog) ∧ RegsKept s t []) ∧
    (∀ d, s.due Timer.ptpHold = some d → s.get Reg.PTP_STATUS_STATE = 2 → ∃ t, exec .ptpHoldover s = .next t ∧
      t.get Reg.PTP_STATUS_STATE = 3 ∧ t.due Timer.ptpFree = some (Nat.max s.time.ticks d + msTicks (1000 * s.get Reg.PTP_CTRL_HOLDOVER_S)) ∧
      t.pair Reg.GEN_EPOS_LO = (s.pair Reg.GEN_EPOS_LO + 1) % 2 ^ 64) ∧
    (∀ d, s.due Timer.ptpFree = some d → s.get Reg.PTP_STATUS_STATE = 3 → ∃ t, exec .holdoverExpiry s = .next t ∧
      t.get Reg.PTP_STATUS_STATE = 0 ∧ t.ptp.selected = none ∧ RegsKept s t [Reg.PTP_STATUS]) ∧
    (∀ w, s.cfg.stage = .running → s.ownsAll 5 = true → (accumulate s.time.ftachAt s.time.ftachN (s.time.ticks + w)).2 = true →
      ∃ t, exec (.ftachPulse w) s = .next t ∧ t.get Reg.TBS_FTACH_COUNT = (s.get Reg.TBS_FTACH_COUNT + 1) % 65536 ∧
        t.time.ftachLast = some (s.elapse w).now ∧ RegsKept s t [Reg.TBS_FTACH]) ∧
    (∀ w, s.cfg.stage ≠ .off → (s.flag Reg.PTP_CTRL_EN && s.flag Reg.PTP_CTRL_SOURCE) = false →
      (accumulate s.time.ppsAt s.time.ppsN (s.time.ticks + w)).2 = true → ∃ t, exec (.ppsInEdge w) s = .next t ∧
        t.pair Reg.PTP_PPS_IN_LO = (s.elapse w).now % 2 ^ 64 ∧ RegsKept s t [Reg.PTP_PPS_IN_LO, Reg.PTP_PPS_IN_LO + 4]) ∧
    (s.cfg.stage = .running → s.ownsAll 3 = true → s.flag Reg.TBS_STATUS_PLL_LOCK = true → 0 < s.tickInc → ∃ t, exec .ppsOutPulse s = .next t ∧
      t.time.ppsOut = t.time.ticks + msTicks (s.get Reg.PTP_PPS_WIDTH_MS) ∧ RegsKept s t [] ∧
      (s.time.dev / (1000000000 * 2 ^ 32) + 1) * (1000000000 * 2 ^ 32) ≤ t.time.dev ∧
      t.time.dev < (s.time.dev / (1000000000 * 2 ^ 32) + 1) * (1000000000 * 2 ^ 32) + s.tickInc) ∧
    (∀ since n now, n = 0 ∨ since + 2 ≤ now → accumulate since n now = ((now, 1), true)) ∧
    (∀ since now, now < since + 2 → accumulate since 15 now = ((since, 15), false))

/-- A received frame that fails a check of Table 12-2 only counts it; one that passes, is for no PTP port and stands for no message leaves
no trace. An ARP request that passes is answered with one packet on its port. A port gains LINK when no fault is signalled, READY 10 ms
later with MODE above zero and a good MAC, and loses both with LINK. A port without signal for 1 s goes to RETAIN and wakes with signal.
A port with MODE 0 does not become READY. A write of ETH_Pp_CTRL with a defined MODE, with FEC only in mode 2 (the model's reading of
the table's 'mode 2 only', log entry 91), on a port of no enabled stream puts its four bits and restarts the link; MODE 3, and FEC in
another mode, are REFUSED. (R318, R319, R320, R404, Table 12-2, Table 16-2; derived) -/
def Obligations.ReceivedFramesAndPorts : Prop :=
  ∀ (s : State) (p : Nat), p < 4 →
    (∀ (f : RxFrame) (c : Field), s.rxFails p f = some c → exec (.frameDropped p f) s = .next (s.bump c 1) ∧
      exec (.arpRequest p f) s = .next (s.bump c 1)) ∧
    (∀ (f : RxFrame) (c : Field), s.rxFails p f = some c → ∃ t, exec (.frameDropped p f) s = .next t ∧ t.get c = Nat.min (s.get c + 1) (2 ^ c.width - 1) ∧
      RegsKept s t [c.addr]) ∧
    (∀ f : RxFrame, s.rxFails p f = none → f.dstPort ≠ 319 → f.dstPort ≠ 320 → ∃ t, exec (.frameDropped p f) s = .next t ∧ t = s) ∧
    (∀ f : RxFrame, s.rxFails p f = none → f.etherType = 0x0806 → ∃ t, exec (.arpRequest p f) s = .next t ∧
      t.eth.out.map (fun k => (k.kind, k.port, k.dmac)) = [(1, p, f.smac)] ∧ RegsKept s t [] ∧ t.mem = s.mem) ∧
    (∀ c u, s.domain (25 + p) = 2 → s.flag (Reg.ETH_P_STATUS_LINK p) = false → ∃ t, exec (.portLinkChange p true false false false c u) s = .next t ∧
      t.get (Reg.ETH_P_STATUS_LINK p) = 1 ∧ t.due (Timer.portReady p) = some (s.time.ticks + msTicks 10) ∧
      RegsKept s t [Reg.ETH_P_STATUS p, Reg.ETH_P_FEC p, Reg.ETH_STATUS]) ∧
    (∀ lf rf ber c u, s.domain (25 + p) = 2 → ∃ t, exec (.portLinkChange p false lf rf ber c u) s = .next t ∧
      t.get (Reg.ETH_P_STATUS_LINK p) = 0 ∧ t.get (Reg.ETH_P_STATUS_READY p) = 0) ∧
    (∀ d, s.due (Timer.portReady p) = some d → s.get (Reg.ETH_P_CTRL_MODE p) ≠ 0 → s.macGood = true → ∃ t, exec (.portReady p) s = .next t ∧
      t.get (Reg.ETH_P_STATUS_READY p) = 1 ∧ RegsKept s t [Reg.ETH_P_STATUS p, Reg.ETH_STATUS] ∧ t.mem = s.mem) ∧
    (s.get (Reg.ETH_P_CTRL_MODE p) = 0 → exec (.portReady p) s = .next s) ∧
    (s.domain (25 + p) = 2 → s.get (Reg.ETH_P_CTRL_MODE p) ≠ 0 → s.flag (Reg.ETH_P_STATUS_LINK p) = false →
      ∃ t, exec (.portRetain p) s = .next t ∧ t.domain (25 + p) = 3 ∧ RegsKept s t [Reg.PWR_DOM 1] ∧ OnlyRegs s t) ∧
    (s.domain (25 + p) = 3 → ∃ t, exec (.portWake p) s = .next t ∧ t.domain (25 + p) = 2 ∧ RegsKept s t [Reg.PWR_DOM 1] ∧ OnlyRegs s t) ∧
    (∀ v, s.reaches (Reg.ETH_P_CTRL p) = true → v % 4 ≠ 3 → (bit v 2 = true → v % 4 = 2) →
      (∀ st, st < 4 → s.flag (Reg.ETH_S_CTRL_EN st) = true → s.get (Reg.ETH_S_CTRL_PORT st) ≠ p) → ∃ t, exec (.portCtrlWrite p v) s = .next t ∧
      t.word (Reg.ETH_P_CTRL p) = BitVec.ofNat 32 (v % 16) ∧ t.get (Reg.ETH_P_STATUS_LINK p) = 0 ∧ t.get (Reg.ETH_P_STATUS_READY p) = 0 ∧
      (v % 4 = 0 → t.domain (25 + p) = 0)) ∧
    (∀ v, s.reaches (Reg.ETH_P_CTRL p) = true → v % 4 = 3 ∨ bit v 2 = true ∧ v % 4 ≠ 2 → exec (.portCtrlWrite p v) s = .next (s.refuse (Reg.ETH_P_CTRL p)))

/-- An acknowledgement within the sent records advances ACKED to it, one beyond them is counted. With records to send and the port READY, a
full packet goes at once from the next RPOS. RTO with records outstanding sends from ACKED again. Without a record for 100 ms an empty
packet goes. When the port in use was not READY for FAILOVER_MS, or records were outstanding for ACK_DEAD_MS, the stream moves to BACKUP
and shows it, and RETURN moves it back to its READY port. Event packets take up to 32 events, or count them lost on a port that is not
READY. Stream assignments that break R324 or R331 are REFUSED; CLR_COUNTERS clears the counters. (R324, R327, R328, R329, R330, R331,
R334, Table 12-9; derived) -/
def Obligations.RecordStreamDelivers : Prop :=
  ∀ s : State,
    (∀ p f seq, p < 4 → s.rxFails p f = none → s.acked < seq → seq ≤ s.eth.maxSent → seq < 2 ^ 64 → ∃ t, exec (.recordAck p f seq false) s = .next t ∧
      t.acked = seq ∧ t.eth.maxSent = s.eth.maxSent ∧ s.stg.freed ≤ t.stg.freed) ∧
    (∀ p f seq, p < 4 → s.rxFails p f = none → s.eth.maxSent < seq → s.acked ≤ s.eth.maxSent → ∃ t, exec (.recordAck p f seq false) s = .next t ∧
      t.get Reg.ETH_REC_RESENT_ACK_BAD = Nat.min (s.get Reg.ETH_REC_RESENT_ACK_BAD + 1) 65535 ∧ RegsKept s t [Reg.ETH_REC_RESENT] ∧ OnlyRegs s t) ∧
    (s.recordsFlow = true → s.eth.nextSend + s.perPacket ≤ s.sendLimit → 0 < s.perPacket → s.eth.resendTo ≤ s.eth.nextSend →
      ∃ t, exec .recordPacketSend s = .next t ∧ t.eth.nextSend = s.eth.nextSend + s.perPacket ∧
        t.eth.out.map (fun k => (k.kind, k.port)) = [(0, s.get Reg.ETH_STATUS_REC_PORT)] ∧ RegsKept s t [Reg.ETH_STATUS]) ∧
    (∀ d, s.due Timer.rto = some d → s.outstanding = true → s.recordStreamOn = true → ∃ t, exec .retransmitTimeout s = .next t ∧
      t.eth.nextSend = Nat.max s.acked s.stg.freed ∧ t.eth.resendTo = s.eth.maxSent ∧ RegsKept s t [] ∧
      t.due Timer.rto = some (Nat.max s.time.ticks d + msTicks (s.get Reg.ETH_REC_TIME_RTO_MS))) ∧
    (∀ d, s.due Timer.noRecord = some d → s.recordsFlow = true → ∃ t, exec .keepalive s = .next t ∧
      t.eth.out.map (fun k => (k.kind, k.port, k.payload.length)) = [(0, s.get Reg.ETH_STATUS_REC_PORT, 32)] ∧ RegsKept s t [] ∧
      t.due Timer.noRecord = some (Nat.max s.time.ticks d + msTicks 100)) ∧
    (∀ d, s.recordStreamOn = true → s.flag (Reg.ETH_S_CTRL_BACKUP_EN 2) = true → s.flag Reg.ETH_STATUS_FAILED_OVER = false →
      s.due (Timer.failover (s.get Reg.ETH_STATUS_REC_PORT)) = some d ∨
        s.outstanding = true ∧ d = s.eth.progressAt + msTicks (s.get Reg.ETH_REC_TIME_ACK_DEAD_MS) → ∃ t, exec .recordFailover s = .next t ∧
        t.get Reg.ETH_STATUS_REC_PORT = s.get (Reg.ETH_S_CTRL_BACKUP 2) ∧ t.get Reg.ETH_STATUS_FAILED_OVER = 1 ∧
        t.eth.nextSend = Nat.max s.acked s.stg.freed) ∧
    (s.reaches Reg.ETH_CMD = true → s.flag Reg.ETH_STATUS_FAILED_OVER = true → s.portReady (s.get (Reg.ETH_S_CTRL_PORT 2)) = true →
      ∃ t, exec .ethReturn s = .next t ∧ t.get Reg.ETH_STATUS_REC_PORT = s.get (Reg.ETH_S_CTRL_PORT 2) ∧
        t.get Reg.ETH_STATUS_FAILED_OVER = 0 ∧ RegsKept s t [Reg.ETH_STATUS]) ∧
    (s.reaches Reg.ETH_CMD = true → ∃ t, exec .ethClrCounters s = .next t ∧ t.word Reg.ETH_REC_RESENT = 0 ∧ t.word Reg.ETH_LOSS = 0 ∧
      (∀ p, p < 4 → t.word (Reg.ETH_P_DROP p) = 0 ∧ t.word (Reg.ETH_P_FEC p) = 0 ∧ t.get (Reg.ETH_P_STATUS_LINK_DOWNS p) = 0) ∧ OnlyApplied s t) ∧
    (32 ≤ s.eth.events.length → s.portReady (s.get (Reg.ETH_S_CTRL_PORT 3)) = true → ∃ t, exec .eventPacketSend s = .next t ∧
      t.eth.events = s.eth.events.drop 32 ∧ t.eth.out.map (fun k => (k.kind, k.port)) = [(0, s.get (Reg.ETH_S_CTRL_PORT 3))] ∧ RegsKept s t []) ∧
    (32 ≤ s.eth.events.length → s.portReady (s.get (Reg.ETH_S_CTRL_PORT 3)) = false → ∃ t, exec .eventPacketSend s = .next t ∧
      t.eth.events = s.eth.events.drop 32 ∧ t.get Reg.ETH_LOSS_EVT_LOST = Nat.min (s.get Reg.ETH_LOSS_EVT_LOST + 32) 255 ∧
      RegsKept s t [Reg.ETH_LOSS]) ∧
    (∀ st v, st < 4 → s.reaches (Reg.ETH_S_CTRL st) = true → st ≠ 2 →
      streamGood (fun i => if i = st then v % 128 + v / 65536 % 65536 * 65536 else s.streamCtrl i) s.portCtrl s.ptpPortNow st = true →
      ∃ t, exec (.streamAssign st v) s = .next t ∧ t.word (Reg.ETH_S_CTRL st) = BitVec.ofNat 32 (v % 128 + v / 65536 % 65536 * 65536) ∧
        RegsKept s t [Reg.ETH_S_CTRL st] ∧ t.mem = s.mem) ∧
    (∀ st v, st < 4 → s.reaches (Reg.ETH_S_CTRL st) = true →
      streamGood (fun i => if i = st then v % 128 + v / 65536 % 65536 * 65536 else s.streamCtrl i) s.portCtrl s.ptpPortNow st = false →
      exec (.streamAssign st v) s = .next (s.refuse (Reg.ETH_S_CTRL st)))

/-- A retry or RESTART puts the drive at bring-up step 1 with its port ON. The link with a supported endpoint comes up capped by MAX_GEN and
bounds the wait for the controller by 30 s; any other endpoint leaves bring-up where it is; the ready controller is sent the two
Identify commands, each awaited for CMD_MS. A timeout, a lost link, CSTS.CFS and the end of the wait fail the drive: DRIVE 4, ARCHIVING
0. Identify holds the usable capacity of a supported drive and sends Set Features, and leaves an unsupported one out; the granted queue
pairs, four at most, are created. The SMART poll enters its values every 60 s. FORMAT writes the label of the layout, deallocates the
regions in use, and is REFUSED while ARCHIVING. CLR_COUNTERS clears two registers. (R299, R300, R305, R306, R307, Table 11-11, Table
11-17; derived) -/
def Obligations.DriveComesUpAndFails : Prop :=
  ∀ s : State,
    (∀ d, s.due Timer.driveRetry = some d → ∃ t, exec .driveRetry s = .next t ∧ t.get Reg.NVH_STATUS_DRIVE = 1 ∧ t.get Reg.NVH_STATUS_ARCHIVING = 0 ∧
      t.domain 29 = 2 ∧ t.nvh.resetOut = true ∧ t.due Timer.driveRetry = none) ∧
    (s.reaches Reg.NVH_CMD = true → ∃ t, exec .nvhRestart s = .next t ∧ t.get Reg.NVH_STATUS_DRIVE = 1 ∧ t.nvh.retries = 0 ∧ t.domain 29 = 2) ∧
    (∀ gen width e, s.get Reg.NVH_STATUS_DRIVE = 1 → supportedEnd gen width e = false → exec (.pcieLinkUp gen width e) s = .next s) ∧
    (∀ gen width e, s.get Reg.NVH_STATUS_DRIVE = 1 → supportedEnd gen width e = true → ∃ t, exec (.pcieLinkUp gen width e) s = .next t ∧ t.get Reg.NVH_STATUS_DRIVE = 2 ∧
      t.get Reg.NVH_LINK_GEN = Nat.min gen (s.get Reg.NVH_CTRL_MAX_GEN) % 8 ∧ t.get Reg.NVH_LINK_WIDTH = width ∧ t.nvh.aer = e.aer ∧
      t.nvh.payload = Nat.min 256 e.payload ∧ t.nvh.maxRead = 512 ∧
      t.due Timer.capTo = some (s.time.ticks + Nat.min (msTicks (500 * e.capTo)) (msTicks 30000)) ∧ RegsKept s t [Reg.NVH_STATUS, Reg.NVH_LINK]) ∧
    (s.get Reg.NVH_STATUS_DRIVE = 2 → ∃ t, exec .controllerReady s = .next t ∧ t.nvh.outstanding = true ∧ t.due Timer.capTo = none ∧
      t.nvh.cmds.map (fun c => (c.queue, c.opcode, c.due)) = List.replicate 2 (0, 0x06, s.time.ticks + msTicks (s.get Reg.NVH_TIMEOUT_CMD_MS)) ∧
      RegsKept s t []) ∧
    (1 ≤ s.get Reg.NVH_STATUS_DRIVE → s.get Reg.NVH_STATUS_DRIVE ≤ 3 →
      (∀ c ∈ ([.pcieLinkLoss, .controllerFatal] : List Instr), ∃ t, exec c s = .next t ∧ t.get Reg.NVH_STATUS_DRIVE = 4 ∧
        t.get Reg.NVH_STATUS_ARCHIVING = 0 ∧ t.nvh.labelOk = false) ∧
      (∀ d, s.nvmeDue = some d → ∃ t, exec .nvmeTimeout s = .next t ∧ t.get Reg.NVH_STATUS_DRIVE = 4 ∧ t.get Reg.NVH_STATUS_ARCHIVING = 0) ∧
      (∀ d, s.due Timer.capTo = some d → ∃ t, exec .capToExpiry s = .next t ∧ t.get Reg.NVH_STATUS_DRIVE = 4 ∧ t.get Reg.NVH_STATUS_ARCHIVING = 0)) ∧
    (∀ lba blocks, s.enumerating = true → lba = 512 ∨ lba = 4096 → ∃ t, exec (.nvmeCommandComplete (.identify true lba 0 true blocks)) s = .next t ∧
      t.pair Reg.NVH_CAP_LO = Nat.min blocks (2 ^ 32) ∧ t.get Reg.NVH_LINK_LBA_512 = (if lba = 512 then 1 else 0) ∧
      t.flag Reg.NVH_STATUS_LAYOUT_BAD = t.layoutBad ∧ t.nvh.cmds.map (fun c => c.opcode) = [0x09, 0x09] ∧
      RegsKept s t [Reg.NVH_CAP_LO, Reg.NVH_CAP_LO + 4, Reg.NVH_LINK, Reg.NVH_STATUS]) ∧
    (∀ lba metadata nvm blocks, s.enumerating = true → (lba ≠ 512 ∧ lba ≠ 4096) ∨ metadata ≠ 0 ∨ nvm = false →
      ∃ t, exec (.nvmeCommandComplete (.identify true lba metadata nvm blocks)) s = .next t ∧ t.get Reg.NVH_STATUS_DRIVE = 5) ∧
    (∀ n, s.enumerating = true → ∃ t, exec (.nvmeCommandComplete (.queues n)) s = .next t ∧ t.get Reg.NVH_LINK_QUEUES = Nat.min n 4 ∧
      t.nvh.cmds = s.createCmds (Nat.min n 4) ∧ RegsKept s t [Reg.NVH_LINK]) ∧
    (∀ w u k d, s.due Timer.smart = some d → ∃ t, exec (.smartPoll w u k) s = .next t ∧ t.get Reg.NVH_SMART_WARNING = w % 256 ∧
      t.get Reg.NVH_SMART_USED_PCT = u % 256 ∧ t.get Reg.NVH_SMART_TEMP_K = k % 65536 ∧
      t.due Timer.smart = some (Nat.max s.time.ticks d + msTicks 60000)) ∧
    (s.reaches Reg.NVH_CMD = true → s.flag Reg.NVH_STATUS_ARCHIVING = false → s.get Reg.NVH_STATUS_DRIVE = 3 → s.layoutBad = false →
      ∃ t, exec .nvhFormat s = .next t ∧ t.nvh.labelOk = true ∧ t.nvh.outDrive = [s.labelWrite] ∧ t.nvh.cmds = s.labelCmd 1 :: s.trimCmds ∧
        t.get Reg.NVH_STATUS_LABEL_MISMATCH = 0 ∧ t.get Reg.NVH_STATUS_ARCHIVING = (if s.get Reg.NVH_CTRL_ARCH_MODE = 0 then 0 else 1) ∧
        RegsKept s t [Reg.NVH_STATUS, Reg.CFG_STATUS]) ∧
    (s.reaches Reg.NVH_CMD = true → s.flag Reg.NVH_STATUS_ARCHIVING = true → exec .nvhFormat s = .next (s.refuse Reg.NVH_CMD)) ∧
    (s.reaches Reg.NVH_CMD = true → ∃ t, exec .nvhClrCounters s = .next t ∧ t.word Reg.NVH_SKIPPED = 0 ∧ t.word Reg.NVH_DROPS = 0 ∧
      RegsKept s t [Reg.NVH_SKIPPED, Reg.NVH_DROPS] ∧ OnlyApplied s t)

/-- When REC_FLUSH_US ends with records not yet handed over, the block of the last released record is queued for the drive, with FUA, at its
place in region 0; in best-effort mode without a drive that can take it, nothing is queued. The configured label on the drive is
accepted; another valid label sets LABEL_MISMATCH. A completed write of channel 0 leaves the queue and raises ARCHIVED to its mark,
unless a record before it was never written (DEDUCED, log entry 89). After the searches over the drive's answers archiving continues at
the positions found (log entry 90). (R301, R302, R303, Table 11-6, Table 11-7; derived) -/
def Obligations.RecordsReachTheDrive : Prop :=
  ∀ s : State,
    (∀ d, s.due Timer.recFlush = some d → s.get Reg.NVH_CTRL_ARCH_MODE = 1 → s.driveCannot = true → ∃ t, exec .recFlushTimeout s = .next t ∧
      t.nvh = s.nvh ∧ RegsKept s t [] ∧ t.mem = s.mem) ∧
    (∀ d, s.due Timer.recFlush = some d → s.get Reg.NVH_CTRL_ARCH_MODE ≠ 0 → (s.get Reg.NVH_CTRL_ARCH_MODE = 1 → s.driveCannot = false) →
      s.regionUsed 0 = true → s.stg.flushed < s.stg.nextRpos →
      ∃ t, exec .recFlushTimeout s = .next t ∧ t.stg.flushed = s.stg.nextRpos ∧ RegsKept s t [] ∧
        ∃ first, (∀ r, (s.stg.nextRpos - 1) / 16 * 16 ≤ r → r < s.stg.nextRpos → (Map.find s.stg.slots r).isSome = true →
            first ≤ r ∨ ∃ q, r < q ∧ q < first ∧ Map.find s.stg.slots q = none) ∧
          t.nvh.writes.map (fun (w : DriveWrite) => { w with due := none }) = (s.nvh.writes ++ [(⟨0, s.regionStart 0 + (s.stg.nextRpos - 1) / 16 % 2 ^ s.regionLog 0,
            s.blockBytes ((s.stg.nextRpos - 1) / 16) s.stg.nextRpos, s.stg.nextRpos, first, true, none⟩ : DriveWrite)]).map (fun (w : DriveWrite) => { w with due := none })) ∧
    (∀ b, s.enumerating = true → s.layoutBad = false → b.take 0x64 = s.labelBytes.take 0x64 →
      ∃ t, exec (.nvmeCommandComplete (.label b)) s = .next t ∧ t.nvh.labelOk = true ∧ t.get Reg.NVH_STATUS_LABEL_MISMATCH = 0 ∧
        t.get Reg.NVH_STATUS_LAYOUT_BAD = 0) ∧
    (∀ b, s.enumerating = true → s.layoutBad = false → b.take 0x64 ≠ s.labelBytes.take 0x64 → labelValid b = true →
      ∃ t, exec (.nvmeCommandComplete (.label b)) s = .next t ∧ t.get Reg.NVH_STATUS_LABEL_MISMATCH = 1 ∧ t.get Reg.NVH_STATUS_DRIVE = 3) ∧
    (∀ probes tp lp sp ep blk, s.enumerating = true → s.nvh.labelOk = true → s.search probes = some (tp, lp, sp, ep, blk) →
      ∃ t, exec (.nvmeCommandComplete (.search probes)) s = .next t ∧
      t.get Reg.NVH_STATUS_DRIVE = 3 ∧ t.nvh.sposNext = sp ∧ t.nvh.eposBlock = ep ∧ t.nvh.evBytes = blk ∧ t.nvh.searched = true ∧
      (s.nvh.writes = [] → t.nvh.tposNext = tp ∧ t.nvh.lposNext = lp)) ∧
    (∀ w rest, s.flag Reg.NVH_STATUS_ARCHIVING = true → s.chState 0 < 2 → s.resetting 8 = false → s.nvh.writes = w :: rest → w.channel = 0 →
      w.upto < 2 ^ 64 → s.archived < 2 ^ 64 → (w.first ≤ s.archived ∨ w.first ≤ s.eth.first) → ∃ t, exec (.nvmeCommandComplete (.written 0)) s = .next t ∧ t.nvh.writes = rest ∧
        t.nvh.outDrive = [w] ∧ t.pair Reg.NVH_ARCHIVED_LO = Nat.max s.archived w.upto ∧ s.stg.freed ≤ t.stg.freed ∧
        t.get (Reg.DMA_CH_STATUS_RETRIES 0) = 0) ∧
    (∀ w rest, s.flag Reg.NVH_STATUS_ARCHIVING = true → s.chState 0 < 2 → s.resetting 8 = false → s.nvh.writes = w :: rest → w.channel = 0 →
      s.archived < w.first → s.eth.first < w.first → ∃ t, exec (.nvmeCommandComplete (.written 0)) s = .next t ∧ t.nvh.writes = rest ∧
        t.nvh.outDrive = [w] ∧ t.pair Reg.NVH_ARCHIVED_LO = s.pair Reg.NVH_ARCHIVED_LO)

/-- START of an idle maintenance channel with fitting sizes and alignment runs it, or queues it behind one that runs; otherwise it is
REFUSED. PAUSE of a running channel, after the units already read, reads PAUSED; RESUME of a paused or halted one clears its error and
continues; ABORT ends it or takes it out of the queue. A transfer whose last unit has moved sets its DMA_IRQ bit. PAUSE of an idle data
channel reads PAUSED as well. A bus error is retried while RETRIES stands below RETRY, else the channel halts with its code, DMA_HALT
and ALERT_N. A data channel's hand-over puts its pending words in force. A write to DMA_IRQ clears the bits written as one. (R309, R310,
R312, R313, R314, R315, Table 11-14, Table 11-15; derived) -/
def Obligations.ChannelsStartPauseAndComplete : Prop :=
  ∀ (s : State) (n : Nat), n < 8 →
    (s.reaches (Reg.DMA_CH_CTRL n) = true →
      (4 ≤ n → s.chState n = 0 → n ∉ s.dma.queue → (s.pendingChannel n).left * (s.pendingChannel n).srcW % (s.pendingChannel n).dstW = 0 →
        (s.pendingChannel n).src % (s.pendingChannel n).srcW = 0 → (s.pendingChannel n).dst % (s.pendingChannel n).dstW = 0 →
        ((s.transfer (inSetDma n)).maintBusy = false → ∃ t, exec (.dmaStart n) s = .next t ∧ t.chState n = 1 ∧
          t.get (Reg.DMA_CH_STATUS_QUEUED n) = 0 ∧ t.get (Reg.DMA_CH_PROGRESS_DONE n) = 0 ∧ t.setWaits (inSetDma n) = false) ∧
        ((s.transfer (inSetDma n)).maintBusy = true → ∃ t, exec (.dmaStart n) s = .next t ∧ t.get (Reg.DMA_CH_STATUS_QUEUED n) = 1 ∧
          t.dma.queue = s.dma.queue ++ [n] ∧ t.setWaits (inSetDma n) = false)) ∧
      (n < 4 ∨ s.chState n ≠ 0 ∨ n ∈ s.dma.queue → exec (.dmaStart n) s = .next (s.refuse (Reg.DMA_CH_CTRL n))) ∧
      (∀ units rd, (s.moveUnits n units rd).reaches (Reg.DMA_CH_CTRL n) = true →
        ((s.moveUnits n units rd).chState n = 1 → ∃ t, exec (.dmaPause n units rd) s = .next t ∧ t.chState n = 2 ∧
          RegsKept (s.moveUnits n units rd) t [Reg.DMA_CH_STATUS n, Reg.DMA_STATUS]) ∧
        (n < 4 → (s.moveUnits n units rd).chState n = 0 → ∃ t, exec (.dmaPause n units rd) s = .next t ∧ t.chState n = 2) ∧
        (4 ≤ n → n ∉ (s.moveUnits n units rd).dma.queue → (s.moveUnits n units rd).chState n ≠ 0 →
          exec (.dmaAbort n units rd) s = .next ((s.moveUnits n units rd).endTransfer n).applied) ∧
        (4 ≤ n → n ∈ (s.moveUnits n units rd).dma.queue → ∃ t, exec (.dmaAbort n units rd) s = .next t ∧
          t.get (Reg.DMA_CH_STATUS_QUEUED n) = 0 ∧ n ∉ t.dma.queue)) ∧
      (2 ≤ s.chState n → ∃ t, exec (.channelResume n) s = .next t ∧ t.chState n = (if n < 4 then 0 else 1) ∧
        t.get (Reg.DMA_CH_STATUS_ERR n) = 0 ∧ t.get (Reg.DMA_CH_STATUS_RETRIES n) = 0 ∧
        RegsKept s t [Reg.DMA_CH_STATUS n, Reg.DMA_STATUS] ∧ t.mem = s.mem)) ∧
    (∀ rd, 4 ≤ n → s.chState n = 1 → s.resetting 8 = false → (s.channel n).snapshotType n = 0 →
      (s.moveUnits n (s.channel n).left rd).moves n = true → ((s.moveUnits n (s.channel n).left rd).channel n).left = 0 →
      ∃ t, exec (.channelComplete n rd) s = .next t ∧ bit (t.get Reg.DMA_IRQ_DONE) n = true) ∧
    (∀ code units rd, 4 ≤ n → 1 ≤ code → code ≤ 4 → s.resetting 8 = false → (s.moveUnits n units rd).chState n = 1 →
      (∃ t, exec (.busError n code units rd) s = .next t ∧
        (((s.moveUnits n units rd).get (Reg.DMA_CH_STATUS_RETRIES n) < (s.moveUnits n units rd).get (Reg.DMA_CH_MODE_RETRY n) ∧
            t.get (Reg.DMA_CH_STATUS_RETRIES n) = (s.moveUnits n units rd).get (Reg.DMA_CH_STATUS_RETRIES n) + 1 ∧ t.chState n = 1) ∨
          ((s.moveUnits n units rd).get (Reg.DMA_CH_MODE_RETRY n) ≤ (s.moveUnits n units rd).get (Reg.DMA_CH_STATUS_RETRIES n) ∧
            t.chState n = 3 ∧ t.get (Reg.DMA_CH_STATUS_ERR n) = code ∧ t.get Reg.MPT_ALERT_DMA_HALT = 1))) ∧
      exec (.busError n code units rd) s =
        .next ((s.moveUnits n units rd).oneBusError n code ((s.moveUnits n units rd).channel n).src)) ∧
    (∀ code source, code < 16 → s.get (Reg.DMA_CH_MODE_RETRY n) ≤ s.get (Reg.DMA_CH_STATUS_RETRIES n) →
      (s.oneBusError n code source).chState n = 3 ∧ (s.oneBusError n code source).get (Reg.DMA_CH_STATUS_ERR n) = code ∧
      (s.oneBusError n code source).get Reg.MPT_ALERT_DMA_HALT = 1) ∧
    (∀ code source, s.get (Reg.DMA_CH_STATUS_RETRIES n) < s.get (Reg.DMA_CH_MODE_RETRY n) →
      (s.oneBusError n code source).get (Reg.DMA_CH_STATUS_RETRIES n) = s.get (Reg.DMA_CH_STATUS_RETRIES n) + 1 ∧
      RegsKept s (s.oneBusError n code source) [Reg.DMA_CH_STATUS n]) ∧
    (n < 4 → s.setWaits (inSetDma n) = true → s.resetting 8 = false → ∃ t, exec (.dataChannelHandover n) s = .next t ∧
      t.setWaits (inSetDma n) = false ∧ ∀ a, inSetDma n a = false → t.word a = s.word a) ∧
    (∀ mask, s.reaches Reg.DMA_IRQ = true → ∃ t, exec (.dmaIrqClear mask) s = .next t ∧
      t.word Reg.DMA_IRQ = s.word Reg.DMA_IRQ &&& ~~~(BitVec.ofNat 32 (mask % 256)) ∧ RegsKept s t [Reg.DMA_IRQ] ∧ OnlyApplied s t)

/-- A write of an ownership register takes its FUNCTION (and a pin's INVERT) when the class fits, no instance count breaks, and the resource
was free, becomes free or keeps its function; else it is REFUSED. RELOAD of slots 0 to 2 in the running or unconfigured part starts the
reload or waits for a flash operation; SLOT 3 is discarded. When every sheaf has its record and every slot is free, or at 10 s with
slots held, the part ends its stores, stores a counter set and a mark entry (CLEAN, or SAVE), and restarts. (R43, R44, R59, R364, R379,
Table 2-6; derived) -/
def Obligations.OwnershipWritesAndReload : Prop :=
  (∀ (s : State) (n v : Nat), n < 8 → s.reaches (Reg.CFG_PIN n) = true →
    (∀ u : State, u = (s.put (Reg.CFG_PIN_FUNCTION n) v).put (Reg.CFG_PIN_INVERT n) (v / 256) →
      if pinFunction (v % 256) = true ∧ countsOk (ownersOf u.word).1 (ownersOf u.word).2.1 = true ∧
        (s.get (Reg.CFG_PIN_FUNCTION n) = 0 ∨ v % 256 = 0 ∨ v % 256 = s.get (Reg.CFG_PIN_FUNCTION n))
      then ∃ t, exec (.cfgOwnershipWrite (Reg.CFG_PIN n) v) s = .next t ∧ t = u.gapOwner.applied ∧
          t.get (Reg.CFG_PIN_FUNCTION n) = v % 256 ∧ t.get (Reg.CFG_PIN_INVERT n) = v / 256 % 2
      else exec (.cfgOwnershipWrite (Reg.CFG_PIN n) v) s = .next (s.refuse (Reg.CFG_PIN n)))) ∧
  (∀ (s : State) (n v : Nat), n < 4 → s.reaches (Reg.CFG_TMR n) = true →
    (∀ u : State, u = s.put (Reg.CFG_TMR_FUNCTION n) v →
      if timerFunction (v % 256) = true ∧ countsOk (ownersOf u.word).1 (ownersOf u.word).2.1 = true ∧
        (s.get (Reg.CFG_TMR_FUNCTION n) = 0 ∨ v % 256 = 0 ∨ v % 256 = s.get (Reg.CFG_TMR_FUNCTION n))
      then ∃ t, exec (.cfgOwnershipWrite (Reg.CFG_TMR n) v) s = .next t ∧ t = u.gapOwner.applied ∧
          t.get (Reg.CFG_TMR_FUNCTION n) = v % 256
      else exec (.cfgOwnershipWrite (Reg.CFG_TMR n) v) s = .next (s.refuse (Reg.CFG_TMR n)))) ∧
  (∀ (s : State) (v : Nat), s.reaches Reg.CFG_AUX1 = true →
    (∀ u : State, u = s.put Reg.CFG_AUX1_FUNCTION v →
      if auxFunction (v % 256) = true ∧ countsOk (ownersOf u.word).1 (ownersOf u.word).2.1 = true ∧
        (s.get Reg.CFG_AUX1_FUNCTION = 0 ∨ v % 256 = 0 ∨ v % 256 = s.get Reg.CFG_AUX1_FUNCTION)
      then ∃ t, exec (.cfgOwnershipWrite Reg.CFG_AUX1 v) s = .next t ∧ t = u.gapOwner.applied ∧
          t.get Reg.CFG_AUX1_FUNCTION = v % 256
      else exec (.cfgOwnershipWrite Reg.CFG_AUX1 v) s = .next (s.refuse Reg.CFG_AUX1))) ∧
  (∀ (s : State) (slot : Nat), s.reaches Reg.CFG_CTRL = true → s.cfg.reloading = false → s.mayReload = true →
    (slot < 3 → s.mpt.flash = none → ∃ t, exec (.cfgReload slot) s = .next t ∧ t.cfg.reloading = true ∧ t.cfg.force = slot ∧ t.regs = s.regs ∧
      t.mem = s.mem ∧ t.time = s.time) ∧
    (slot < 3 → s.mpt.flash ≠ none → ∃ t, exec (.cfgReload slot) s = .next t ∧ t.cfg.reloading = false ∧ t.cfg.reloadNext = some slot ∧
      t.regs = s.regs ∧ t.mem = s.mem) ∧
    (slot % 4 = 3 → exec (.cfgReload slot) s = .next s.applied)) ∧
  (∀ s : State, s.cfg.reloading = true → s.mayReload = true → s.allReleased = true →
    (s.stagingEmpty = true → ∃ t u : State, exec .reloadDrained s = .next t ∧ u = s.finishStores (s.keep.queue.length + 2) ∧
      t.cfg = { CfgState.reset with force := s.cfg.force } ∧ t.time = TimeState.reset ∧ t.pending = u.pending ∧
      t.keep.shadow = putPages u.keep.shadow (counterPages u u.nextGen ++ [(markPage (u.pair Reg.KEP_MPOS_LO + 1),
        markEntry 1 (u.pair Reg.KEP_MPOS_LO + 1) u.seqMark u.rposMark u.seqNext u.stg.nextRpos 0)])) ∧
    (s.stagingEmpty = false → ∃ t u : State, exec .reloadTimeout s = .next t ∧
      u = (s.elapseTo (s.cfg.releasedAt + msTicks 10000)).finishStores (s.keep.queue.length + 2) ∧
      t.cfg = { CfgState.reset with force := s.cfg.force } ∧ t.time = TimeState.reset ∧
      t.keep.shadow = putPages u.keep.shadow (counterPages u u.nextGen ++ [(markPage (u.pair Reg.KEP_MPOS_LO + 1),
        markEntry 2 (u.pair Reg.KEP_MPOS_LO + 1) u.seqMark u.rposMark u.seqNext u.stg.nextRpos 0)])))

/-- While lines run, a good frame of a working data lane holds its codes in the group that is received. A bad frame is held as bad, and the
fourth bad one among a lane's last 16 declares the lane failed; so does a loss of block lock. A lane being retrained that gains block
lock starts its count of good idle frames. The XOR of parity and one data field gives back the other. (R86, R87, R88, R90, R92, Table
3-9; derived) -/
def Obligations.LinkFramesEnterTheirGroup : Prop :=
  (∀ (s : State) (lane : Nat) (f : LinkFrame), lane < 4 → s.time.lines = true → (s.linkLane lane).lock = true → (s.linkLane lane).retraining = false →
    s.resetting 0 = false → s.rdo.waitLines = false → s.linkSingle = false →
    s.rdo.input.par = none → some 1 ∈ s.frameRoles → some 2 ∈ s.frameRoles →
    (∀ role, s.frameRoles.getD lane none = some role → role < 2 → s.frameBad f false = false →
      (((s.linkLane lane).recent.take 15).filter id).length < 4 → ∃ t, exec (.groupFrameReceived lane f) s = .next t ∧
        t.rdo.input = (if role = 0 then { s.rdo.input with d0 := some (some (frameData f)) } else { s.rdo.input with d1 := some (some (frameData f)) }) ∧
        t.rdo.lanes = s.rdo.lanes.set lane { s.linkLane lane with recent := false :: (s.linkLane lane).recent.take 15 } ∧
        t.regs = s.regs ∧ t.mem = s.mem) ∧
    (∀ role, s.frameRoles.getD lane none = some role → role < 2 → s.frameBad f false = true →
      (((s.linkLane lane).recent.take 15).filter id).length = 3 → s.laneDead lane = false → ∃ t, exec (.groupFrameReceived lane f) s = .next t ∧
        t.rdo.input = (if role = 0 then { s.rdo.input with d0 := some none } else { s.rdo.input with d1 := some none }) ∧
        t.laneDead lane = true ∧ t.rdo.moving = s.rdo.moving ++ [lane] ∧ RegsKept s t [Reg.RDO_LINK_STATUS] ∧ t.mem = s.mem)) ∧
  (∀ (s : State) (lane : Nat), lane < 4 → (s.linkLane lane).retraining = false → s.laneDead lane = false →
    ∃ t, exec (.blockLockLost lane) s = .next t ∧ t.laneDead lane = true ∧ t.rdo.moving = s.rdo.moving ++ [lane] ∧
      t.rdo.lanes = s.rdo.lanes.set lane { s.linkLane lane with lock := false, good := 0 } ∧
      RegsKept s t [Reg.RDO_LINK_STATUS, Reg.RDO_STATUS] ∧ t.mem = s.mem) ∧
  (∀ (s : State) (lane : Nat), lane < 4 → (s.linkLane lane).retraining = true → ∃ t, exec (.blockLockGained lane) s = .next t ∧
    t.rdo.lanes = s.rdo.lanes.set lane { s.linkLane lane with lock := true, good := 0, recent := [] } ∧
    RegsKept s t [Reg.RDO_STATUS] ∧ t.mem = s.mem) ∧
  (∀ a b : List Nat, a.length = b.length →
    rebuildFrom none (some a) (some (xorCodes a b)) = some b ∧ rebuildFrom none (some b) (some (xorCodes a b)) = some a)

/-- Outside start-up step 7, a substitute command for a furrow of a group whose spare is free and whole waits for the line boundary, at
which the spare takes the furrow's column; so does a restore command, which ends it there; a bias from 1,500 to 3,500 mV is taken while
admission is not active; CLR_COUNTERS clears the link's and the saturation counters. Otherwise each is REFUSED. A thermometer without a
reading for its time is marked failed and stale, and an event position is taken. (R54, R65, R68, R72, R82, Table 3-16; derived) -/
def Obligations.ReadoutCommandsOfTheHost : Prop :=
  ∀ s : State,
    (∀ g f, s.reaches Reg.RDO_CMD = true →
      (s.rdoOpen = true → g ≤ 64 → f ≤ 63 → s.spareInUse g = false → s.flag (Reg.RDO_GROUP_SPARE_FAILED g) = false →
        ∃ t, exec (.furrowSubstitute g f) s = .next t ∧ t.rdo.spareNow = s.rdo.spareNow ++ [(g, f)] ∧ t.regs = s.regs ∧ t.mem = s.mem ∧
          (s.rdo.spareNow = [] → s.rdo.restoreNow = [] → s.rdo.spareDead = [] → s.rdo.declared = [] →
            t.spareBoundary.spareInUse g = true ∧ t.spareBoundary.substOf g = f)) ∧
      (s.rdoOpen = false ∨ 64 < g ∨ 63 < f ∨ s.spareInUse g = true ∨ s.flag (Reg.RDO_GROUP_SPARE_FAILED g) = true →
        exec (.furrowSubstitute g f) s = .next (s.refuse Reg.RDO_CMD)) ∧
      (s.rdoOpen = true → g ≤ 64 → f ≤ 63 → ∃ t, exec (.furrowRestore g f) s = .next t ∧ t.rdo.restoreNow = s.rdo.restoreNow ++ [(g, f)] ∧
        t.regs = s.regs ∧ t.mem = s.mem ∧
        (s.rdo.restoreNow = [] → s.rdo.spareNow = [] → (∀ k ∈ s.rdo.declared, k = furrowKey g f) → s.sparedFurrow g f = true →
          t.spareBoundary.spareInUse g = false)) ∧
      (s.rdoOpen = false ∨ 64 < g ∨ 63 < f → exec (.furrowRestore g f) s = .next (s.refuse Reg.RDO_CMD))) ∧
    (s.reaches Reg.RDO_CMD = true → s.rdoOpen = true → ∃ t, exec .rdoClrCounters s = .next t ∧ t.word Reg.RDO_LINK_ERR = 0 ∧
      t.word Reg.RDO_SAT_COUNT = 0 ∧ RegsKept s t [Reg.RDO_LINK_ERR, Reg.RDO_SAT_COUNT] ∧ OnlyApplied s t) ∧
    (∀ v, s.reaches Reg.RDO_BIAS = true →
      (s.rdoOpen = true → s.admitting = false → 1500 ≤ v % 4096 → v % 4096 ≤ 3500 → ∃ t, exec (.biasWrite v) s = .next t ∧
        t.get Reg.RDO_BIAS_BIAS_MV = v % 4096 ∧ t.rdo.biasMv = v % 4096 ∧ RegsKept s t [Reg.RDO_BIAS] ∧ t.mem = s.mem) ∧
      (s.rdoOpen = false ∨ s.admitting = true ∨ v % 4096 < 1500 ∨ 3500 < v % 4096 → exec (.biasWrite v) s = .next (s.refuse Reg.RDO_BIAS))) ∧
    (∀ k d, k < 8 → s.due (Timer.thermStale k) = some d → s.thermFailed k = false → ∃ t, exec (.thermStale k) s = .next t ∧
      t.thermFailed k = true ∧ Machine.State.thermStale t k = true ∧ t.pair Reg.GEN_EPOS_LO = (s.pair Reg.GEN_EPOS_LO + 1) % 2 ^ 64 ∧
      RegsKept s t [Reg.RDO_THERM_STATUS, Reg.GEN_EPOS_LO, Reg.GEN_EPOS_LO + 4, Reg.MPT_ALERT, Reg.ETH_LOSS] ∧ t.mem = s.mem)

/-- Row slot k of a line starts k x P / 25 ticks after the boundary, rounded half to even, and sends at most one waiting raw-row packet,
counted in RAW_LOST when its codes are not whole. The line stream sends the next field line in one jumbo packet or eight, in column
order from its port; on a port that is not READY its packets are counted in LINE_LOST, and a line dropped by throttling counts once.
(R62, R319, R325, R326, R413, Table 12-4; derived) -/
def Obligations.RowSlotsAndStreamPackets : Prop :=
  (∀ s : State, s.time.lines = true → s.rdo.slot < 25 → s.linkLostNow = false → s.rdo.rawReady = [] → ∃ t, exec .rowSlot s = .next t ∧
    t.rdo.slot = s.rdo.slot + 1 ∧
    t.time.ticks = Nat.max s.time.ticks (s.time.lineTick + (rhe ((s.rdo.slot * s.get Reg.TBS_STATUS_PERIOD_NOW : Nat) : Int) 25).toNat) ∧
    t.regs = s.regs ∧ t.mem = s.mem) ∧
  (∀ (s : State) (line slot : Nat) (codes : Option (List Nat)) (rest : List (Nat × Nat × Option (List Nat))), s.time.lines = true →
    s.rdo.slot < 25 → s.linkLostNow = false → s.rdo.rawReady = (line, slot, codes) :: rest →
    (codes = none ∨ (dropStep s.pwr.rawAcc (s.stageLevel 2)).2 = true ∨ s.streamReady 1 = false → ∃ t, exec .rowSlot s = .next t ∧
      t.rdo.rawReady = rest ∧ t.get Reg.ETH_LOSS_RAW_LOST = Nat.min (s.get Reg.ETH_LOSS_RAW_LOST + 1) 255 ∧ RegsKept s t [Reg.ETH_LOSS]) ∧
    (codes ≠ none → (dropStep s.pwr.rawAcc (s.stageLevel 2)).2 = false → s.streamReady 1 = true → ∃ t, exec .rowSlot s = .next t ∧
      t.rdo.rawReady = rest ∧ t.eth.out.map (fun k => (k.kind, k.port)) = [(0, s.get (Reg.ETH_S_CTRL_PORT 1))] ∧ t.regs = s.regs)) ∧
  (∀ (s : State) (n : Nat), s.flag (Reg.ETH_S_CTRL_EN 0) = true → s.nextLine = some n →
    ((dropStep s.pwr.lineAcc (s.stageLevel 2)).2 = true → ∃ t, exec .linePacketSend s = .next t ∧ t.eth.lineNext = n + 1 ∧
      t.get Reg.ETH_LOSS_LINE_LOST = Nat.min (s.get Reg.ETH_LOSS_LINE_LOST + 1) 65535 ∧ RegsKept s t [Reg.ETH_LOSS]) ∧
    ((dropStep s.pwr.lineAcc (s.stageLevel 2)).2 = false → s.streamReady 0 = false → ∃ t, exec .linePacketSend s = .next t ∧ t.eth.lineNext = n + 1 ∧
      t.get Reg.ETH_LOSS_LINE_LOST = Nat.min (s.get Reg.ETH_LOSS_LINE_LOST +
        (if s.flag (Reg.ETH_P_CTRL_JUMBO (s.get (Reg.ETH_S_CTRL_PORT 0))) then 1 else 8)) 65535 ∧ RegsKept s t [Reg.ETH_LOSS]) ∧
    ((dropStep s.pwr.lineAcc (s.stageLevel 2)).2 = false → s.streamReady 0 = true → ∃ t, exec .linePacketSend s = .next t ∧ t.eth.lineNext = n + 1 ∧
      t.eth.out.map (fun k => (k.kind, k.port)) =
        List.replicate (if s.flag (Reg.ETH_P_CTRL_JUMBO (s.get (Reg.ETH_S_CTRL_PORT 0))) then 1 else 8) (0, s.get (Reg.ETH_S_CTRL_PORT 0)) ∧
      t.regs = s.regs ∧ t.mem = s.mem))

/-- A pixel to recompute goes to its lane first; else the head of the issue buffer goes to the next free working lane, once its row's
headland mean is held; its result by a lane without a fault is that of its row's mean and its line's coefficients. What waits for the
buffer takes the room. A result without a mismatch enters its row as the stages give it. A first mismatch is counted and the pixel is
computed again elsewhere; at the limit of the line the lane is declared failed and its domain switched off. A stalled lane is declared
failed and its pixel computed again. The free spare then works in its place; without it one lane fewer works. (R108, R109, R110, R111,
R112, R113; derived) -/
def Obligations.PixelsPassTheLanes : Prop :=
  (∀ (s : State) (p : Pixel) (rest : List Pixel) (n : Nat), s.resetting 1 = false →
    (s.cor.again = p :: rest → s.recomputeLane p = some n → ∃ t u : State, exec .pixelIssue s = .next t ∧ t = u.swapProgress ∧
      u.cor.again = rest ∧ u.cor.lanes = s.cor.lanes.set n (some (s.readyPixel p)) ∧ u.cor.buffer = s.cor.buffer ∧ u.regs = s.regs ∧
      u.mem = s.mem ∧ (s.cor.swapLine = none → s.cor.tableLine = none → s.cal.due = [] → t = u)) ∧
    (s.cor.again = [] → s.cor.buffer = p :: rest → s.nextLane = some n → s.rowHeld p = true → ∃ t u : State, exec .pixelIssue s = .next t ∧
      t = u.swapProgress ∧ u.cor.buffer = rest ++ s.cor.waiting.take (32768 - rest.length) ∧
      u.cor.lanes = s.cor.lanes.set n (some (s.readyPixel p)) ∧ u.cor.lastLane = n ∧ u.regs = s.regs ∧ u.mem = s.mem ∧
      (s.cor.swapLine = none → s.cor.tableLine = none → s.cal.due = [] → t = u))) ∧
  (∀ (s : State) (p : Pixel) (e : LineEnv) (r : RowWork), p.exact = none → findEnv s.cor.env p.line = some e →
    s.cor.rows.find? (fun x => x.line = p.line ∧ x.row = p.row) = some r →
    s.readyPixel p = { p with exact := some (s.correctPixel e p (r.h.getD (0, true)).1 (r.h.getD (0, true)).2) }) ∧
  (∀ (s : State) (lane w transit : Nat) (p : Pixel) (r : RowPixel), lane < 9 → s.corLane lane = some p → p.tries = [] →
    p.exact = some r → (∀ x ∈ s.cor.rows, x.got + 1 < 4160) →
    (∃ t, exec (.laneResult lane w transit false 0) s = .next t ∧ t.cor.lanes = s.cor.lanes.set lane none ∧ t.cor.again = s.cor.again ∧
      t.cor.rows = s.cor.rows.map (fun x => if x.line = p.line ∧ x.row = p.row then
        { x with got := x.got + 1, px := Map.insert x.px p.col r } else x) ∧
      t.get Reg.COR_LATENCY_MAX_TRANSIT_NS = Nat.max (s.get Reg.COR_LATENCY_MAX_TRANSIT_NS) (Nat.min transit 65535) ∧
      RegsKept s t [Reg.COR_LATENCY_MAX] ∧ t.mem = s.mem) ∧
    (∀ err, s.cor.lineMiss.getD lane 0 + 1 < s.get Reg.COR_CTRL_MISMATCH_LIMIT →
      ∃ t, exec (.laneResult lane w transit true err) s = .next t ∧ t.cor.lanes = s.cor.lanes.set lane none ∧ t.cor.rows = s.cor.rows ∧
        t.cor.again = s.cor.again ++ [{ p with
          tries := [r.value + err], tried := lane :: p.tried }] ∧
        t.get Reg.COR_MISMATCH_COUNT = Nat.min (s.get Reg.COR_MISMATCH_COUNT + 1) (2 ^ 32 - 1) ∧
        t.get (Reg.COR_LANE_MISMATCHES lane) = Nat.min (s.get (Reg.COR_LANE_MISMATCHES lane) + 1) 65535 ∧
        RegsKept s t [Reg.COR_MISMATCH, Reg.COR_LANE lane, Reg.COR_LATENCY_MAX] ∧ t.mem = s.mem) ∧
    (∀ err, s.get Reg.COR_CTRL_MISMATCH_LIMIT ≤ s.cor.lineMiss.getD lane 0 + 1 → s.laneFailed lane = false →
      ∃ t, exec (.laneResult lane w transit true err) s = .next t ∧ t.laneFailed lane = true ∧ t.domain lane = 0)) ∧
  (∀ (s : State) (lane : Nat) (p : Pixel), lane < 9 → s.corLane lane = some p → s.laneFailed lane = false →
    ∃ t, exec (.laneStall lane) s = .next t ∧ t.laneFailed lane = true ∧ t.domain lane = 0 ∧ t.cor.lanes = s.cor.lanes.set lane none ∧
      t.cor.again = s.cor.again ++ [{ p with tried := lane :: p.tried }] ∧ t.flag Reg.COR_STATUS_SPARE_FREE = false ∧
      (s.flag Reg.COR_STATUS_SPARE_FREE = true → t.get Reg.COR_STATUS_LANES_WORKING = s.get Reg.COR_STATUS_LANES_WORKING) ∧
      (s.flag Reg.COR_STATUS_SPARE_FREE = false → t.get Reg.COR_STATUS_LANES_WORKING = s.get Reg.COR_STATUS_LANES_WORKING - 1))

/-- BANK_SWAP and TABLE_SWAP show pending, and are REFUSED while one is pending (a bank swap also while a sequence owns the standby bank). A
written word lands in the standby bank (in the flags word bits [7:4] of the flags only) unless a sequence owns it or a swap waits; a run
of words lands in the standby table, unless a sequence owns the standby bank or a table swap waits; a word for the active bank or table
is REFUSED. A built gain table waits for the boundary, or makes way for the one wanted. COR, walk and TRK counters clear. (R104, R105,
R106, R110, R120, R140, R207, Table 4-4, Table 4-5, Table 4-11, Table 7-15; derived) -/
def Obligations.CoefficientStoreOfTheHost : Prop :=
  (∀ s : State, s.reaches Reg.COR_CMD = true →
    (s.flag Reg.CAL_STATUS_OWN_STANDBY = false → s.flag Reg.COR_STATUS_SWAP_PENDING = false → ∃ t, exec .bankSwap s = .next t ∧
      t.get Reg.COR_STATUS_SWAP_PENDING = 1 ∧ RegsKept s t [Reg.COR_STATUS] ∧ OnlyApplied s t) ∧
    (s.flag Reg.CAL_STATUS_OWN_STANDBY = true ∨ s.flag Reg.COR_STATUS_SWAP_PENDING = true → exec .bankSwap s = .next (s.refuse Reg.COR_CMD)) ∧
    (s.flag Reg.COR_STATUS_TABLE_SWAP_PENDING = false → ∃ t, exec .tableSwap s = .next t ∧
      t.get Reg.COR_STATUS_TABLE_SWAP_PENDING = 1 ∧ RegsKept s t [Reg.COR_STATUS] ∧ OnlyApplied s t) ∧
    (s.flag Reg.COR_STATUS_TABLE_SWAP_PENDING = true → exec .tableSwap s = .next (s.refuse Reg.COR_CMD)) ∧
    (∃ t, exec .corClrCounters s = .next t ∧ t.word Reg.COR_MISMATCH = 0 ∧ t.word Reg.COR_UNRESOLVED = 0 ∧ t.word Reg.COR_CLAMP_COUNT = 0 ∧
      t.word Reg.COR_RANGE_COUNT = 0 ∧ t.word Reg.COR_LATENCY_MAX = 0 ∧ (∀ n, n < 9 → t.get (Reg.COR_LANE_MISMATCHES n) = 0) ∧
      t.get Reg.COR_HEADROOM_MIN_PCT = 0x7F ∧ OnlyApplied s t)) ∧
  (∀ (s : State) (a b off : Nat) (w : Word), s.reaches a = true → 0x01000000 ≤ a → a < 0x01800000 → storePart a = .bank b off →
    (b ≠ s.activeBank → s.flag Reg.CAL_STATUS_OWN_STANDBY = false → s.flag Reg.COR_STATUS_SWAP_PENDING = false → off < 0x30C000 →
      (off % 32 < 24 → ∃ t, exec (.coefficientWindowWrite a [w]) s = .next t ∧ t.memWord a = w ∧ BytesKept s t a 4 ∧ t.regs = s.regs) ∧
      (off % 32 = 24 → ∃ t, exec (.coefficientWindowWrite a [w]) s = .next t ∧ t.memWord a = w &&& 0x00F0FFFF ∧ BytesKept s t a 4 ∧
        t.regs = s.regs)) ∧
    (b = s.activeBank ∨ s.flag Reg.CAL_STATUS_OWN_STANDBY = true ∨ s.flag Reg.COR_STATUS_SWAP_PENDING = true →
      exec (.coefficientWindowWrite a [w]) s = .next (s.refuse a))) ∧
  (∀ (s : State) (a n : Nat) (ws : List Word), s.reaches a = true → 0x01000000 ≤ a → a < 0x01800000 →
    (∀ i, i < ws.length → storePart (a + 4 * i) = .table n) → n ≠ s.activeTable → s.flag Reg.COR_STATUS_TABLE_SWAP_PENDING = false →
    s.flag Reg.CAL_STATUS_OWN_STANDBY = false →
    ∃ t, exec (.coefficientWindowWrite a ws) s = .next t ∧ (∀ i, i < ws.length → t.memWord (a + 4 * i) = ws.getD i 0) ∧
      BytesKept s t a (4 * ws.length) ∧ t.regs = s.regs) ∧
  (∀ (s : State) (a n : Nat) (w : Word), s.reaches a = true → 0x01000000 ≤ a → a < 0x01800000 → storePart a = .table n →
    n = s.activeTable ∨ s.flag Reg.CAL_STATUS_OWN_STANDBY = true ∨ s.flag Reg.COR_STATUS_TABLE_SWAP_PENDING = true →
    exec (.coefficientWindowWrite a [w]) s = .next (s.refuse a)) ∧
  (∀ (s : State) (b : Nat × Nat), s.walk.building = some b →
    (s.walk.wanted = none → ∃ t, exec .lagTableBuilt s = .next t ∧ t.walk.built = some b ∧ t.walk.building = none ∧ t.regs = s.regs) ∧
    (∀ x, s.walk.wanted = some x → ∃ t, exec .lagTableBuilt s = .next t ∧ t.walk.built = s.walk.built ∧ t.walk.building = some x ∧
      t.walk.wanted = none ∧ t.regs = s.regs)) ∧
  (∀ s : State, s.reaches Reg.COR_WALK_CMD = true → ∃ t, exec .walkClrCounters s = .next t ∧ t.word Reg.COR_LAG_OFF_LINES = 0 ∧
    t.word Reg.COR_WALK_FILLED = 0 ∧ t.word Reg.COR_WALK_LATE = 0 ∧ RegsKept s t [Reg.COR_LAG_OFF_LINES, Reg.COR_WALK_FILLED, Reg.COR_WALK_LATE] ∧
    OnlyApplied s t) ∧
  (∀ s : State, s.reaches Reg.TRK_CMD = true → ∃ t, exec .trkClrCounters s = .next t ∧ (∀ k, k < 4 → t.get (refusedField k) = 0) ∧
    t.get Reg.TRK_PEAK_PEAK_LIVE = s.get Reg.TRK_LIVE_LIVE ∧ t.get Reg.TRK_PEAK_MIN_FREE = s.get Reg.TRK_LIVE_FREE_BLOCKS ∧
    t.get Reg.TRK_FORCED_LONG = 0 ∧ t.get Reg.TRK_FORCED_MEM = 0 ∧ t.get Reg.TRK_SHADOW_SHADOW_OVERFLOW = 0 ∧
    t.get Reg.TRK_COPY_REPAIRED = 0 ∧ t.get Reg.TRK_LIFE_MAX_US = 0 ∧ OnlyApplied s t)

/-- When its last row is in, field line n is formed for every column, and is then staged, applied to detection, and gleaned, in that order.
The complete image of a sealed sheaf writes its summary and queues it with the binding of its slot. While a slot is free and no mark
store is waited for, the next record in the stated order takes the next RPOS; its sequence number counts on with an object or lost-entry
record. Without a slot it waits, and STAGING_FULL shows it. The refusals of a millisecond become an aggregate record. (R126, R127, R130,
R138, R196, R206, R287, R288, R296, R297, R198, Table 7-6; derived) -/
def Obligations.FieldLinesImagesAndRecords : Prop :=
  (∀ (s : State) (w : Nat) (ecc : List EccFact) (n : Nat) (e : LineEnv), (s.elapse w).walk.nextField = n → n ∈ s.walk.lineDone → s.resetting 2 = false →
    s.linkLostNow = false → findEnv s.cor.env n = some e →
    ∃ t v u : State, v = ({ s.elapse w with walk := { s.walk with lineDone := s.walk.lineDone.filter (fun m => decide (m ≠ n)) } }).eccFacts ecc ∧
      exec (.fieldLineComplete w ecc) s = .next t ∧
      t = ((if (u.archiveLine e).resetting 3 then (u.archiveLine e).missField else (u.archiveLine e).applyField e).glean n).flagCheck n ∧
      (findEnv v.cor.env n = some e → u.walk.nextField = n + 1 ∧ n ∈ u.walk.formed ∧
        ∀ c, c < 4096 → (n * 4096 + c, v.fieldPixel e (v.routes n e.nu) ((List.range 24).map (v.routedLines n)) c) ∈ u.walk.ring)) ∧
  (∀ (s : State) (w slot : Nat) (x : Sheaf), s.sheaf slot = some x → x.state = 2 → ∃ t u : State,
    exec (.sheafImageComplete w slot) s = .next t ∧ t = u.queueSheaf slot ∧
    u.trk.sheaves = Map.insert s.trk.sheaves x.slot (s.readImage x).summary ∧
    RegsKept s u [Reg.COR_WALK_LATE] ∧ u.mem = s.mem ∧
    (∀ y, u.sheaf slot = some y → (u.binding (u.slotOf y)).len ≠ 0 → ∃ d, (u.queueSheaf slot).trk.sheaves =
      Map.insert u.trk.sheaves y.slot { y with state := 3, bound := some (u.binding (u.slotOf y)), deadline := some d } ∧
      d ≤ (y.tSeal : Int) + 1000 * ((u.binding (u.slotOf y)).deadlineUs : Int))) ∧
  (∀ (s : State) (w : Nat) (ecc : List EccFact) (r : NextRecord), (s.elapse w).mayRelease = true →
    ((s.elapse w).eccFacts ecc).mayRelease = true → ((s.elapse w).eccFacts ecc).nextRecord = some r →
    ∃ t u : State, exec (.recordRelease w ecc) s = .next t ∧ t = u.stagingFull ∧ t.stg = u.stg ∧ u = ((s.elapse w).eccFacts ecc).release r ∧
      u.stg.nextRpos = ((s.elapse w).eccFacts ecc).stg.nextRpos + 1 ∧
      u.stg.nextSeq = (match r with
        | .object x => x.seq + 1
        | .lost e => e.seq + 1
        | _ => ((s.elapse w).eccFacts ecc).stg.nextSeq)) ∧
  (∀ (s : State) (w : Nat) (ecc : List EccFact), (s.elapse w).mayRelease = false → s.nextRecord ≠ none → s.slotFree = false →
    ∃ t, exec (.recordRelease w ecc) s = .next t ∧ t.get Reg.NVH_STATUS_STAGING_FULL = 1 ∧ RegsKept s t [Reg.NVH_STATUS] ∧ t.stg = s.stg) ∧
  (∀ (s : State) (d : Nat) (r : Refusals), s.due Timer.aggregate = some d → s.trk.refused = some r → ∃ t, exec .aggregateRecord s = .next t ∧
    t.trk.refused = none ∧ RegsKept s t [Reg.NVH_STATUS] ∧
    t.stg.aggregates = s.stg.aggregates ++ [⟨s.seqNext, leBytes 8 (r.ms * 1000000) ++ leBytes 4 r.stopped ++ leBytes 4 r.rate ++ leBytes 4 r.store ++
      leBytes 4 r.memory ++ leBytes 4 r.hot ++ leBytes 4 r.cold ++ leBytes 4 r.spill ++ leBytes 1 (s.get Reg.TRK_CTRL_DEFAULT_DISP) ++
      List.replicate 183 0⟩])

/-- When the word that a running engine fetches is the instruction and its cost fits the budget, ADD, SUB, MUL, MULS, DIV, AND, OR, XOR,
MIN, MAX, ABS, SQRT, SLT, SHL and SRA write register d with the result of Table 8-3, computed exactly and rounded and saturated once,
add their cycles and go on at the next instruction. Nothing else changes but the time of the step. Where the cost would exceed the
budget, the run ends with status BUDGET. (R209, R211, R212, R213, R214, R231, Table 8-2, Table 8-3, Table 8-7; derived) -/
def Obligations.AsterArithmetic : Prop :=
  ∀ (s : State) (st : EngStep) (slot : Nat) (x : Sheaf) (b : Binding) (e : Engine), e = s.engine st.engine →
    (∀ d a c, Fetches s st slot x b (isR 0x01 d a c 0) → e.cycles + 1 ≤ b.budget →
      exec (.asterAdd st d a c) s = .next (ran s st x 1 (e.set d (satS32 (e.r a + e.r c))).next)) ∧
    (∀ d a c, Fetches s st slot x b (isR 0x02 d a c 0) → e.cycles + 1 ≤ b.budget →
      exec (.asterSub st d a c) s = .next (ran s st x 1 (e.set d (satS32 (e.r a - e.r c))).next)) ∧
    (∀ d a c, Fetches s st slot x b (isR 0x03 d a c 0) → e.cycles + 2 ≤ b.budget →
      exec (.asterMul st d a c) s = .next (ran s st x 2 (e.set d (satS32 (e.r a * e.r c))).next)) ∧
    (∀ d a c fn, Fetches s st slot x b (isR 0x04 d a c fn) → e.cycles + 2 ≤ b.budget →
      exec (.asterMuls st d a c fn) s = .next (ran s st x 2 (e.set d (satS32 (rhe (e.r a * e.r c) (2 ^ (fn % 32))))).next)) ∧
    (∀ d a c, Fetches s st slot x b (isR 0x05 d a c 0) → e.cycles + 12 ≤ b.budget →
      exec (.asterDiv st d a c) s = .next (ran s st x 12 (e.set d (if e.r c = 0 then (if 0 < e.r a then 2 ^ 31 - 1 else if e.r a < 0 then -2 ^ 31 else 0) else satS32 (rheS (e.r a) (e.r c)))).next)) ∧
    (∀ d a c, Fetches s st slot x b (isR 0x09 d a c 0) → e.cycles + 1 ≤ b.budget →
      exec (.asterMin st d a c) s = .next (ran s st x 1 (e.set d (min (e.r a) (e.r c))).next)) ∧
    (∀ d a c, Fetches s st slot x b (isR 0x0A d a c 0) → e.cycles + 1 ≤ b.budget →
      exec (.asterMax st d a c) s = .next (ran s st x 1 (e.set d (max (e.r a) (e.r c))).next)) ∧
    (∀ d a c, Fetches s st slot x b (isR 0x0D d a c 0) → e.cycles + 1 ≤ b.budget →
      exec (.asterSlt st d a c) s = .next (ran s st x 1 (e.set d (if e.r a < e.r c then 1 else 0)).next)) ∧
    (∀ d a c, Fetches s st slot x b (isR 0x0E d a c 0) → e.cycles + 1 ≤ b.budget →
      exec (.asterShl st d a c) s = .next (ran s st x 1 (e.set d (satS32 (e.r a * 2 ^ ((e.rw c).toNat % 32)))).next)) ∧
    (∀ d a c, Fetches s st slot x b (isR 0x0F d a c 0) → e.cycles + 1 ≤ b.budget →
      exec (.asterSra st d a c) s = .next (ran s st x 1 (e.set d (rhe (e.r a) (2 ^ ((e.rw c).toNat % 32)))).next)) ∧
    (∀ d a c, Fetches s st slot x b (isR 0x06 d a c 0) → e.cycles + 1 ≤ b.budget →
      exec (.asterAnd st d a c) s = .next (ran s st x 1 (e.setW d (e.rw a &&& e.rw c)).next)) ∧
    (∀ d a c, Fetches s st slot x b (isR 0x07 d a c 0) → e.cycles + 1 ≤ b.budget →
      exec (.asterOr st d a c) s = .next (ran s st x 1 (e.setW d (e.rw a ||| e.rw c)).next)) ∧
    (∀ d a c, Fetches s st slot x b (isR 0x08 d a c 0) → e.cycles + 1 ≤ b.budget →
      exec (.asterXor st d a c) s = .next (ran s st x 1 (e.setW d (e.rw a ^^^ e.rw c)).next)) ∧
    (∀ d a, Fetches s st slot x b (isR 0x0B d a 0 0) → e.cycles + 1 ≤ b.budget →
      exec (.asterAbs st d a) s = .next (ran s st x 1 (e.set d (satS32 (e.r a).natAbs)).next)) ∧
    (∀ d a, Fetches s st slot x b (isR 0x0C d a 0 0) → e.cycles + 8 ≤ b.budget →
      exec (.asterSqrt st d a) s = .next (ran s st x 8 (e.set d (if e.r a < 0 then 0 else ((rheSqrt (e.r a).toNat 1 : Nat) : Int))).next)) ∧
    (∀ d a c, Fetches s st slot x b (isR 0x01 d a c 0) → b.budget < e.cycles + 1 →
      exec (.asterAdd st d a c) s = .next ((stepped s st x).endRun st.engine slot (RunEnd.bad 2 e.cycles st.engine)))

/-- With its cost within the budget, ADDI, LI, LIH, ANDI, SLTI, SHLI and SRAI write register d with the result of Table 8-3; LDW and LDH
load the little-endian data word or sign-extended halfword at a + imm past DATA_BASE, and LDS and STS load and store the engine's
scratch word at a + imm. Of memory only the word that STS names changes. An offset of LDW out of range or misaligned ends the run with
status ADDR, and an uncorrectable data word with MEM. (R211, R213, R214, R219, R221, R231, Table 8-3, Table 8-6, Table 8-7; derived) -/
def Obligations.AsterImmediatesAndMemory : Prop :=
  ∀ (s : State) (st : EngStep) (slot : Nat) (x : Sheaf) (b : Binding) (e : Engine), e = s.engine st.engine →
    (∀ d a imm, Fetches s st slot x b (isI 0x10 d a imm) → e.cycles + 1 ≤ b.budget →
      exec (.asterAddi st d a imm) s = .next (ran s st x 1 (e.set d (satS32 (e.r a + immS imm))).next)) ∧
    (∀ d imm, Fetches s st slot x b (isI 0x11 d 0 imm) → e.cycles + 1 ≤ b.budget →
      exec (.asterLi st d imm) s = .next (ran s st x 1 (e.set d (immS imm)).next)) ∧
    (∀ d imm, Fetches s st slot x b (isI 0x12 d 0 imm) → e.cycles + 1 ≤ b.budget →
      exec (.asterLih st d imm) s = .next (ran s st x 1 (e.setW d (BitVec.ofNat 32 (imm * 65536 + (e.rw d).toNat % 65536))).next)) ∧
    (∀ d a imm, Fetches s st slot x b (isI 0x13 d a imm) → e.cycles + 1 ≤ b.budget →
      exec (.asterAndi st d a imm) s = .next (ran s st x 1 (e.setW d (e.rw a &&& BitVec.ofNat 32 imm)).next)) ∧
    (∀ d a imm, Fetches s st slot x b (isI 0x14 d a imm) → e.cycles + 1 ≤ b.budget →
      exec (.asterSlti st d a imm) s = .next (ran s st x 1 (e.set d (if e.r a < immS imm then 1 else 0)).next)) ∧
    (∀ d a imm, Fetches s st slot x b (isI 0x15 d a imm) → e.cycles + 1 ≤ b.budget →
      exec (.asterShli st d a imm) s = .next (ran s st x 1 (e.set d (satS32 (e.r a * 2 ^ (imm % 32)))).next)) ∧
    (∀ d a imm, Fetches s st slot x b (isI 0x16 d a imm) → e.cycles + 1 ≤ b.budget →
      exec (.asterSrai st d a imm) s = .next (ran s st x 1 (e.set d (rhe (e.r a) (2 ^ (imm % 32)))).next)) ∧
    (∀ d a imm o : Nat, (o : Int) = e.r a + immS imm → o < b.dlen → st.dataBad = false →
      (Fetches s st slot x b (isI 0x18 d a imm) → e.cycles + 4 ≤ b.budget → o % 4 = 0 →
        exec (.asterLdw st d a imm) s = .next (ran s st x 4 (e.setW d (s.memWord (dataAddr (b.dbase + o)))).next)) ∧
      (Fetches s st slot x b (isI 0x19 d a imm) → e.cycles + 4 ≤ b.budget → o % 2 = 0 →
        exec (.asterLdh st d a imm) s =
          .next (ran s st x 4 (e.set d (BitVec.ofNat 16 ((s.byte (dataAddr (b.dbase + o))).toNat + (s.byte (dataAddr (b.dbase + o) + 1)).toNat * 256)).toInt).next))) ∧
    (∀ d a imm o : Nat, (o : Int) = e.r a + immS imm → o < 4096 → o % 4 = 0 →
      (Fetches s st slot x b (isI 0x1A d a imm) → e.cycles + 2 ≤ b.budget →
        exec (.asterLds st d a imm) s = .next (ran s st x 2 (e.setW d (s.memWord (scratchAddr st.engine o))).next)) ∧
      (Fetches s st slot x b (isI 0x1B d a imm) → e.cycles + 2 ≤ b.budget →
        exec (.asterSts st d a imm) s = .next ((ran s st x 2 e.next).setMemWord (scratchAddr st.engine o) (e.rw d)))) ∧
    (∀ d a imm, Fetches s st slot x b (isI 0x18 d a imm) → e.cycles + 4 ≤ b.budget →
      (e.r a + immS imm < 0 ∨ (b.dlen : Int) ≤ e.r a + immS imm ∨ (e.r a + immS imm) % 4 ≠ 0 →
        exec (.asterLdw st d a imm) s = .next ((stepped s st x).endRun st.engine slot (RunEnd.bad 3 e.cycles st.engine))) ∧
      (asterOffset (e.r a) imm 4 b.dlen ≠ none → st.dataBad = true →
        exec (.asterLdw st d a imm) s = .next ((stepped s st x).endRun st.engine slot (RunEnd.bad 4 e.cycles st.engine))))

/-- With its cost within the budget, WIN sets the window clipped to the box; PIX writes an unmarked pixel of the box and clears M, else 0
and sets M; RED writes the reduction of its mode at 4 + T cycles; HIST counts the unmarked pixels of the window in scratch words 0 to 63
at 68 + 2T cycles and writes nothing else; BR goes to its target at 2 cycles when its condition holds, else on at 1; FEAT sets a feature
word; VERD ends the run with status OK, its verdict, its class or register a limited to 0 to 254, and the feature words. (R205, R211,
R213, R215, R216, R217, R218, R231, Table 8-3, Table 8-4, Table 8-5; derived) -/
def Obligations.AsterImageAndControl : Prop :=
  ∀ (s : State) (st : EngStep) (slot : Nat) (x : Sheaf) (b : Binding) (e : Engine), e = s.engine st.engine →
    (∀ a c, Fetches s st slot x b (isR 0x20 0 a c 0) → e.cycles + 1 ≤ b.budget →
      exec (.asterWin st a c 0) s = .next (ran s st x 1 { e.next with l0 := max 0 (e.r a), l1 := min ((x.lines : Int) - 1) (e.r c) })) ∧
    (∀ a c, Fetches s st slot x b (isR 0x20 0 a c 1) → e.cycles + 1 ≤ b.budget →
      exec (.asterWin st a c 1) s = .next (ran s st x 1 { e.next with k0 := max 0 (e.r a), k1 := min ((x.width : Int) - 1) (e.r c) })) ∧
    (∀ a c, Fetches s st slot x b (isR 0x20 0 a c 2) → e.cycles + 1 ≤ b.budget →
      exec (.asterWin st a c 2) s = .next (ran s st x 1 { e.next with l0 := 0, l1 := (x.lines : Int) - 1, k0 := 0, k1 := (x.width : Int) - 1 })) ∧
    (∀ d a c, Fetches s st slot x b (isR 0x21 d a c 0) → e.cycles + 3 ≤ b.budget →
      (∀ v, (x.imageErrors st.imgBad).pixel (e.r a) (e.r c) = some (v, false) →
        exec (.asterPix st d a c) s = .next (ran s st x 3 { (e.set d v).next with m := false })) ∧
      ((x.imageErrors st.imgBad).pixel (e.r a) (e.r c) = none ∨ (∃ v, (x.imageErrors st.imgBad).pixel (e.r a) (e.r c) = some (v, true)) →
        exec (.asterPix st d a c) s = .next (ran s st x 3 { (e.set d 0).next with m := true }))) ∧
    (∀ (d a mode : Nat) (k : RunCtx), k = ⟨st.engine, e, x.imageErrors st.imgBad, b⟩ → Fetches s st slot x b (isR 0x22 d a 0 mode) →
      e.cycles + (4 + k.segments) ≤ b.budget →
      exec (.asterRed st d a mode) s = .next (ran s st x (4 + k.segments) (e.set d (k.reduce mode (e.r a))).next)) ∧
    (∀ (a c : Nat) (k : RunCtx), k = ⟨st.engine, e, x.imageErrors st.imgBad, b⟩ → Fetches s st slot x b (isR 0x23 0 a c 0) →
      e.cycles + (68 + 2 * k.segments) ≤ b.budget → ∃ t, exec (.asterHist st a c) s = .next t ∧
        (∀ j, j < 64 → t.memWord (scratchAddr st.engine (4 * j)) = BitVec.ofNat 32 (k.window.filter (fun p =>
          !p.marked && decide (clampI 0 63 ((p.v - e.r a) / 2 ^ ((e.rw c).toNat % 16)) = j))).length) ∧
        BytesKept s t (scratchAddr st.engine 0) 256 ∧ t = { ran s st x (68 + 2 * k.segments) e.next with mem := t.mem }) ∧
    (∀ cond a c target, Fetches s st slot x b (isB cond a c target) →
      (([true, decide (e.r a = e.r c), decide (e.r a ≠ e.r c), decide (e.r a < e.r c), decide (e.r c ≤ e.r a), decide (e.r c < e.r a),
        decide (e.r a ≤ e.r c)].getD cond e.m) = true → e.cycles + 2 ≤ b.budget →
        exec (.asterBr st cond a c target) s = .next (ran s st x 2 { e with idx := target })) ∧
      (([true, decide (e.r a = e.r c), decide (e.r a ≠ e.r c), decide (e.r a < e.r c), decide (e.r c ≤ e.r a), decide (e.r c < e.r a),
        decide (e.r a ≤ e.r c)].getD cond e.m) = false → e.cycles + 1 ≤ b.budget →
        exec (.asterBr st cond a c target) s = .next (ran s st x 1 e.next))) ∧
    (∀ k a, Fetches s st slot x b (isR 0x32 0 a 0 k) → e.cycles + 1 ≤ b.budget →
      exec (.asterFeat st k a) s = .next (ran s st x 1 { e.next with feats := e.feats.set k (e.rw a) })) ∧
    (∀ verdict a cls, e.cycles + 1 ≤ b.budget →
      (Fetches s st slot x b (isV verdict a 0 cls) → exec (.asterVerd st verdict a 0 cls) s =
        .next ((stepped s st x).endRun st.engine slot ⟨0, verdict, cls, e.feats, e.cycles + 1, st.engine⟩)) ∧
      (Fetches s st slot x b (isV verdict a 1 cls) → exec (.asterVerd st verdict a 1 cls) s =
        .next ((stepped s st x).endRun st.engine slot ⟨0, verdict, (max 0 (min 254 (e.r a))).toNat, e.feats, e.cycles + 1, st.engine⟩)))

/-- A free working engine accepts the first queued sheaf: its registers are those of Table 8-1, its scratch is zero, RUNS counts it and the
sheaf is JUDGING. A deadline that passes ends a queued sheaf, or a running one with its engine's cycles, with status DEADLINE. An engine
that completes nothing for 2 us faults. A self-test, due every 100 ms, leaves an idle engine idle when it passes, and counts a fault
when it fails. RESTORE of a failed engine whose test passes makes it free again, and CLR_COUNTERS clears the judging counters. (R210,
R229, R230, R232, R233, R234, Table 8-1, Table 8-7, Table 8-13; derived) -/
def Obligations.EnginesRunTheQueuedSheaves : Prop :=
  (∀ (s : State) (w : Nat) (ecc : List EccFact) (x : Sheaf) (e : Nat), ((s.elapse w).eccFacts ecc).nextRun = some (x, e) →
    ((s.elapse w).eccFacts ecc).resetting 4 = false →
    ∃ t u : State, exec (.engineAccept w ecc) s = .next t ∧ u = (s.elapse w).eccFacts ecc ∧ t = u.startRun x e ∧ e < 16 ∧ t.engState e = 1 ∧
      (u.ast.engines.length = 16 → (t.engine e).sheaf = some x.slot) ∧ t.sheaf x.slot = some { x with state := 4, engine := e, runs := x.runs + 1 } ∧
      t.pair Reg.AST_RUNS_LO = (u.pair Reg.AST_RUNS_LO + 1) % 2 ^ 64) ∧
  (∀ (s : State) (x : Sheaf) (e : Nat), e < 16 → (s.startRun x e).engState e = 1 ∧
    (∀ o, o < 4096 → (s.startRun x e).byte (scratchAddr e o) = 0) ∧ BytesKept s (s.startRun x e) (scratchAddr e 0) 4096 ∧
    (s.startRun x e).pair Reg.AST_RUNS_LO = (s.pair Reg.AST_RUNS_LO + 1) % 2 ^ 64 ∧
    (s.startRun x e).trk.sheaves = Map.insert s.trk.sheaves x.slot { x with state := 4, engine := e, runs := x.runs + 1 }) ∧
  (∀ (x : Sheaf) (slot tick : Nat) (f : List Nat) (g : Engine), g = Engine.start x slot tick f →
    g.regs.length = 32 ∧ g.rw 0 = 0 ∧ g.rw 1 = BitVec.ofNat 32 x.lines ∧ g.rw 2 = BitVec.ofNat 32 x.width ∧ g.rw 3 = BitVec.ofNat 32 x.ctx.pol ∧
    g.rw 4 = BitVec.ofNat 32 (x.ctx.flags + 65536 * x.pixflags) ∧ g.rw 5 = BitVec.ofNat 32 x.ctx.vel ∧ g.rw 6 = BitVec.ofNat 32 x.area ∧
    g.rw 7 = BitVec.ofInt 32 x.peak ∧ g.rw 8 = BitVec.ofNat 32 x.seq ∧ g.rw 9 = BitVec.ofNat 32 slot ∧ g.rw 10 = BitVec.ofNat 32 x.ctx.left ∧
    (∀ i, 10 < i → g.rw i = 0) ∧ g.winLines.length = x.lines ∧ g.m = false ∧ g.feats = [0, 0, 0, 0] ∧ g.idx = 0 ∧ g.cycles = 0) ∧
  (∀ (s : State) (slot d : Nat) (x : Sheaf), s.due (Timer.deadline slot) = some d → s.sheaf slot = some x →
    (x.state = 3 → ∃ t, exec (.deadlinePassed slot) s = .next t ∧
      t = ((s.elapseTo d).disarm (Timer.deadline slot)).outcome slot (RunEnd.bad 5 0 0xFF) ∧
      (x.slot = slot → ∃ y, t.sheaf slot = some y ∧ y.status = 5 ∧ y.verdict = 3 ∧ y.engine = 0xFF ∧ y.seq = x.seq)) ∧
    (∀ e, s.runner slot = some e → x.state = 4 → ∃ t, exec (.deadlinePassed slot) s = .next t ∧
      t = ((s.elapseTo d).disarm (Timer.deadline slot)).endRun e slot (RunEnd.bad 5 (s.engine e).cycles e) ∧ t.engState e = 0 ∧
      (x.slot = slot → ∃ y, t.sheaf slot = some y ∧ y.status = 5 ∧ y.verdict = 3 ∧ y.engine = e ∧ y.cycles = (s.engine e).cycles ∧
        y.seq = x.seq))) ∧
  (∀ (s : State) (e : Nat), e < 16 →
    (s.engState e = 1 → ∃ t, exec (.engineStall e) s = .next t ∧ t = (s.elapseTo ((s.engine e).lastDone + usTicks 2)).runFault e 1 ∧
      t.engState e = 3 ∧ bit (t.get Reg.AST_STATUS_FAILED) e = true ∧ t.domain (9 + e) = 0 ∧
      t.get (Reg.AST_ENG_FAULTS e) = Nat.min (s.get (Reg.AST_ENG_FAULTS e) + 1) (2 ^ (Reg.AST_ENG_FAULTS e).width - 1)) ∧
    (∀ w d, s.engState e = 0 → s.flag Reg.AST_CTRL_SELFTEST_ON = true → bit (s.get Reg.AST_STATUS_FAILED) e = false →
      s.due (Timer.selftest e) = some d →
      (∃ t, exec (.engineSelftest e w true) s = .next t ∧ RegsKept s t [] ∧ t.mem = s.mem ∧ t.ast = s.ast ∧
        t.time.ticks = Nat.max s.time.ticks d + w ∧ t.due (Timer.selftest e) = some (Nat.max s.time.ticks d + msTicks 100)) ∧
      (∃ t, exec (.engineSelftest e w false) s = .next t ∧ t.time.ticks = Nat.max s.time.ticks d + w ∧
        t.get (Reg.AST_ENG_FAULTS e) = Nat.min (s.get (Reg.AST_ENG_FAULTS e) + 1) (2 ^ (Reg.AST_ENG_FAULTS e).width - 1) ∧
        (t.engState e = 0 ∨ t.engState e = 3 ∧ bit (t.get Reg.AST_STATUS_FAILED) e = true))) ∧
    (s.reaches Reg.AST_CMD = true → bit (s.get Reg.AST_STATUS_FAILED) e = true → s.engState e = 3 →
      (∃ t, exec (.engineRestore e true) s = .next t ∧ t.engState e = 0 ∧ bit (t.get Reg.AST_STATUS_FAILED) e = false ∧ t.domain (9 + e) = 2) ∧
      (∃ t, exec (.engineRestore e false) s = .next t ∧ t.engState e = 3 ∧ bit (t.get Reg.AST_STATUS_FAILED) e = true ∧ t.domain (9 + e) = 0 ∧
        t.get (Reg.AST_ENG_FAULTS e) = Nat.min (s.get (Reg.AST_ENG_FAULTS e) + 1) (2 ^ (Reg.AST_ENG_FAULTS e).width - 1)))) ∧
  (∀ s : State, s.reaches Reg.AST_CMD = true → ∃ t, exec .astClrCounters s = .next t ∧ t.word Reg.AST_RERUNS = 0 ∧ t.word Reg.AST_FAULT_PROG = 0 ∧
    t.word Reg.AST_FAULT_TIME = 0 ∧ t.word Reg.AST_CYCLES_MAX = 0 ∧ t.word Reg.AST_LATE = 0 ∧ t.get Reg.AST_QUEUE_QUEUE_MAX = 0 ∧
    RegsKept s t [Reg.AST_RERUNS, Reg.AST_FAULT_PROG, Reg.AST_FAULT_TIME, Reg.AST_CYCLES_MAX, Reg.AST_LATE, Reg.AST_QUEUE] ∧ OnlyApplied s t)

/-- A word written to a program area that nothing locks lands in copy 0 and copy 1, one written to the data region lands there, and no other
byte changes; a word for a locked area, for copy 1 or for scratch is REFUSED. A write of AST_SLOTn_PROG whose program passes the check,
or whose LEN is 0, becomes pending and sets SET_PENDING; one that fails leaves its code in LAST_CHECK and is REFUSED, and the pending
set stays. (R219, R220, R223, R224, R227, R228, Table 8-6; derived) -/
def Obligations.AsterMemoryAndSlotsOfTheHost : Prop :=
  (∀ (s : State) (o : Nat) (w : Word), s.reaches (asterBase + o) = true →
    (o < 0x20000 → o % 4 = 0 → s.areaLocked (o / 0x1000) = false → ∃ t, exec (.asterMemoryWrite (asterBase + o) [w]) s = .next t ∧
      t.memWord (asterBase + o) = w ∧ t.memWord (asterBase + o + 0x20000) = w ∧ t.regs = s.regs ∧
      (∀ a, a < asterBase + o ∨ asterBase + o + 4 ≤ a → a < asterBase + o + 0x20000 ∨ asterBase + o + 0x20004 ≤ a → t.byte a = s.byte a)) ∧
    (0x50000 ≤ o → o < 0x200000 → ∃ t, exec (.asterMemoryWrite (asterBase + o) [w]) s = .next t ∧ t.memWord (asterBase + o) = w ∧
      t.regs = s.regs ∧ BytesKept s t (asterBase + o) 4) ∧
    (o < 0x20000 ∧ s.areaLocked (o / 0x1000) = true ∨ 0x20000 ≤ o ∧ o < 0x50000 →
      exec (.asterMemoryWrite (asterBase + o) [w]) s = .next (s.refuse (asterBase + o)))) ∧
  (∀ (s : State) (n v : Nat), n < 16 → s.reaches (Reg.AST_SLOT_PROG n) = true →
    (s.slotCheck n v = 0 → ∃ t, exec (.slotProgWrite n v) s = .next t ∧ t.pendGet (Reg.AST_SLOT_PROG_LEN n) = bits v (Reg.AST_SLOT_PROG_LEN n).lo (Reg.AST_SLOT_PROG_LEN n).width ∧
      t.pendGet (Reg.AST_SLOT_PROG_AREA n) = bits v (Reg.AST_SLOT_PROG_AREA n).lo (Reg.AST_SLOT_PROG_AREA n).width ∧
      t.get Reg.AST_STATUS_SET_PENDING = 1 ∧ RegsKept s t [Reg.AST_STATUS] ∧ t.mem = s.mem) ∧
    (s.slotCheck n v ≠ 0 → exec (.slotProgWrite n v) s =
      .next ((s.put Reg.AST_STATUS_LAST_CHECK (s.slotCheck n v)).refuse (Reg.AST_SLOT_PROG n))))

/-- The request of a pull-in with nothing waiting before it makes the gate edge at the next 0.1 us tick, with boost (hold-only in a group
whose boost is lost), when its group, its column and the reservoir allow it. Otherwise it waits and shows what it waits on; with the
matrix closed or the valve disabled it ends without a gate. A waiting pull-in that comes to its turn starts the same way. At its
requested gate plus DEFER_US it starts, by the conditions of the tick before, hold-only when it waits on its group or on energy, and
shares its column when it waits on that. Each gate edge counts in the valve's counter and in DRL_GATES. (R245, R247, R250, R251, R252,
Table 9-2; derived) -/
def Obligations.GatesAreGrantedAndFallBack : Prop :=
  (∀ (s : State) (v : Nat) (p : PullIn), v < 1024 → s.nextPull v = some p → s.resetting 5 = false → ∀ u : State, u = (s.elapseDev p.req).endScan →
    (u.matrixOpen = false → exec (.pullInRequest v) s = .next (u.noGate p Ef.notArmed)) ∧
    (u.matrixOpen = true → u.valveDisabled v = true → exec (.pullInRequest v) s = .next (u.noGate p Ef.disabled)) ∧
    (∀ g : Int, g = tick100 (max p.req (u.nowI - 9)) → u.matrixOpen = true → u.valveDisabled v = false → s.resetting 6 = false → s.waiting = [] →
      (u.groupOk v = true → u.columnOk v = true → u.energyOk v = true → s.act v = none → ∃ t, exec (.pullInRequest v) s = .next t ∧
        (t.act v).map (fun a => (a.mode, a.gate, a.stop, a.owners)) =
          some (if u.boostLost v then 2 else 1, g, max p.stop (g + (p.minOn : Int)), p.owners) ∧
        t.drl.pulls = s.drl.pulls.filter (fun q => decide (q.owners.head? ≠ p.owners.head?)) ∧
        (s.drl.pulls.filter (fun q => decide (q.owners.head? = p.owners.head?)) = [p] →
          (u.boostLost v = false → t.drl.eEst = u.energy - (u.ePull v : Rat)) ∧
          t.pair Reg.DRL_GATES_LO = (s.pair Reg.DRL_GATES_LO + 1) % 2 ^ 64 ∧
          RegsKept s t ([Reg.DRL_STATUS, Reg.DRL_E_EST, Reg.DRL_FALLBACK, Reg.DRL_GATES_LO, Reg.DRL_GATES_HI, Reg.DRL_RATE_HIGH, Reg.VLV_STATUS, Reg.KEP_CNT_LO v,
            Reg.KEP_CNT_LO v + 4] ++ matrixRegs s [v])) ∧ t.mem = s.mem) ∧
      (u.groupOk v = false ∨ u.columnOk v = false ∨ u.energyOk v = false → ∃ t, exec (.pullInRequest v) s = .next t ∧
        t.waitingPull v = some { p with waits := true, unmet := unmetBits (u.groupOk v) (u.columnOk v) (u.energyOk v) } ∧ t.vlv = { s.vlv with scanCol := none } ∧
        RegsKept s t [Reg.DRL_STATUS, Reg.DRL_DEFER, Reg.DRL_HEAT_CNT, Reg.VLV_STATUS] ∧ t.mem = s.mem))) ∧
  (∀ (s : State) (v w : Nat) (p : PullIn), v < 1024 → s.waitingPull v = some p → s.waiting = [p] → s.resetting 5 = false → s.resetting 6 = false →
    ∀ u : State, u = s.elapse w → u.matrixOpen = true → u.valveDisabled v = false →
    (u.groupOk v = true → u.columnOk v = true → u.energyOk v = true → ∃ t, exec (.pullInStart v w) s = .next t ∧
      (t.act v).map (fun a => (a.mode, a.gate, a.owners)) = some (if u.boostLost v then 2 else 1, tick100 u.nowI, p.owners) ∧
      t.pair Reg.DRL_GATES_LO = (s.pair Reg.DRL_GATES_LO + 1) % 2 ^ 64 ∧ t.waiting = [] ∧ t.time = u.time) ∧
    (u.groupOk v = false ∨ u.columnOk v = false ∨ u.energyOk v = false → ∃ t, exec (.pullInStart v w) s = .next t ∧ t.vlv = s.vlv ∧
      RegsKept s t [Reg.DRL_STATUS, Reg.DRL_DEFER, Reg.DRL_HEAT_CNT] ∧ t.mem = s.mem ∧ t.time = u.time)) ∧
  (∀ (s : State) (v : Nat) (p : PullIn), v < 1024 → s.waitingPull v = some p → s.resetting 5 = false → s.resetting 6 = false →
    ∀ x : Int, x = p.req + 1000 * (s.get Reg.DRL_BOOST_DEFER_US : Int) → ∀ b : State, b = s.elapseDev (x - 100) →
    ∀ u : State, u = b.grantPass (tick100 (b.nowI - 9)) → ∀ q : PullIn, (u.elapseDev x).waitingPull v = some q → q.owners.head? = p.owners.head? →
    (u.elapseDev x).matrixOpen = true → (u.elapseDev x).valveDisabled v = false →
    ∀ weak : Bool, weak = (bit q.unmet Ef.deferGroup || bit q.unmet Ef.deferEnergy || (u.elapseDev x).boostLost v) →
    ∃ t, exec (.deferralLimit v false) s = .next t ∧
      (t.act v).map (fun a => (a.mode, a.gate, a.stop, a.owners)) =
        some (if weak then 2 else 1, x, max q.stop (x + (q.minOn : Int)), q.owners) ∧
      t.pair Reg.DRL_GATES_LO = (u.pair Reg.DRL_GATES_LO + 1) % 2 ^ 64 ∧
      t.get Reg.DRL_FALLBACK_WEAK = Nat.min (u.get Reg.DRL_FALLBACK_WEAK + (if weak then 1 else 0)) 65535 ∧
      t.get Reg.DRL_FALLBACK_SHARED = Nat.min (u.get Reg.DRL_FALLBACK_SHARED + (if bit q.unmet Ef.deferColumn then 1 else 0)) 65535 ∧
      t.mem = s.mem) ∧
  (∀ (s : State) (v : Nat) (p : PullIn), v < 1024 → s.waitingPull v = some p → s.waiting = [p] → s.drl.pulls = [p] → s.resetting 5 = false →
    s.resetting 6 = false → ∀ x : Int, (s.groupOk v && s.columnOk v && s.energyOk v) = false →
    (s.grantPass x).waitingPull v = some { p with unmet := unmetBits (s.groupOk v) (s.columnOk v) (s.energyOk v) })

/-- When a valve is planned with the matrix open: a disabled valve gets no gate; an outcome later than the planned gate plus LATE_TOL is
MISSED and counted; one not later than the planned gate requests the gate there, a late one at the next 0.1 us tick with LATE counted,
both to the planned end or earlier for heat; and a gate at most MERGE_GAP after the planned end of a running actuation joins it without
a new gate edge. With no VBOOST result for 100 ms the energy estimate is 0. CLR_COUNTERS makes the drill's six counter words zero.
(R243, R245, R246, R247, R253, Table 9-1, Table 9-9; derived) -/
def Obligations.PlanningRequestsMergesAndLearns : Prop :=
  (∀ (s : State) (o v : Nat) (q p : Plan), s.plan o = some q → v < 1024 → s.matrixOpen = true →
    ∀ gate : Int, gate = plannedGate p.start (s.useLead v).2.1 → ∀ late : Int, late = gate + 1000 * (p.lateTol : Int) →
    (s.valveDisabled v = true → (s.planValve o p v).drl.pulls = s.drl.pulls ∧ (s.planValve o p v).vlv = s.vlv) ∧
    (s.valveDisabled v = false → late < s.nowI → (s.planValve o p v).drl.pulls = s.drl.pulls ∧ (s.planValve o p v).vlv = s.vlv ∧
      (s.planValve o p v).get Reg.DRL_TIMING_MISSED = Nat.min (s.get Reg.DRL_TIMING_MISSED + 1) 65535) ∧
    (s.valveDisabled v = false → s.nowI ≤ late → s.act v = none → (∀ x ∈ s.drl.pulls, x.valve ≠ v) →
      ∀ e : Int, e = (s.hotStop v gate (gate + p.onNs) p.minOn).1 → (s.planValve o p v).drl.pulls =
          s.drl.pulls ++ [⟨[(o, q.entries.length)], v, gate, if s.nowI ≤ gate then gate else tick100 s.nowI, e, p.minOn, false, 0⟩] ∧
        e ≤ gate + p.onNs ∧ (s.thetaPredict v gate (gate + p.onNs) ≤ s.thetaMax v → e = gate + p.onNs) ∧
        (s.planValve o p v).get Reg.DRL_TIMING_LATE = Nat.min (s.get Reg.DRL_TIMING_LATE + (if s.nowI ≤ gate then 0 else 1)) 65535 ∧
        (s.planValve o p v).vlv = s.vlv) ∧
    (∀ a : Act, s.act v = some a → s.valveDisabled v = false → s.nowI ≤ gate → a.on = true →
      gate ≤ a.planned + 1000 * (s.get Reg.DRL_BOOST_MERGE_GAP : Int) →
      (s.planValve o p v).drl.pulls = s.drl.pulls ∧ ((s.planValve o p v).act v).map (fun b => (b.mode, b.gate, b.owners)) =
        some (a.mode, a.gate, a.owners ++ [(o, q.entries.length)]) ∧
      (s.planValve o p v).pair Reg.DRL_GATES_LO = s.pair Reg.DRL_GATES_LO)) ∧
  (∀ (s : State) (d : Nat), s.due Timer.boostStale = some d → ∃ t, exec .vboostStale s = .next t ∧ t.get Reg.DRL_STATUS_VBOOST_STALE = 1 ∧
    t.energy = 0 ∧ t.get Reg.DRL_E_EST_E_EST = 0 ∧ t.time.ticks = Nat.max s.time.ticks d ∧ RegsKept s t [Reg.DRL_STATUS, Reg.DRL_E_EST] ∧
    t.mem = s.mem ∧ t.vlv = s.vlv) ∧
  (∀ s : State, s.reaches Reg.DRL_CMD = true → ∃ t, exec .drlClrCounters s = .next t ∧ t.word Reg.DRL_DEFER = 0 ∧ t.word Reg.DRL_FALLBACK = 0 ∧
    t.word Reg.DRL_TIMING = 0 ∧ t.word Reg.DRL_HEAT_CNT = 0 ∧ t.word Reg.DRL_FAST = 0 ∧ t.word Reg.DRL_RATE_HIGH = 0 ∧
    RegsKept s t [Reg.DRL_DEFER, Reg.DRL_FALLBACK, Reg.DRL_TIMING, Reg.DRL_HEAT_CNT, Reg.DRL_FAST, Reg.DRL_RATE_HIGH] ∧ OnlyApplied s t)

/-- A gate edge of a pull-in, with boost or hold-only, sharing its column or not, adds one to its valve's actuation counter in the keep
store, up to its limit. Merging an entry into a running actuation or into a requested pull-in leaves every actuation counter as it was.
DRL_RATE_HIGH goes up when the edge comes less than 1.0 ms after the valve's previous one and not otherwise. However short that time is,
the valve is actuated. (R247) -/
def Obligations.GateEdgesAreCounted : Prop :=
  (∀ (s : State) (p : PullIn) (t : Int) (boost shared : Bool), p.valve < 1024 → s.matrixOpen = true → s.valveDisabled p.valve = false →
    ∀ u : State, u = s.startPull p t boost shared →
    u.pair (Reg.KEP_CNT_LO p.valve) = Nat.min (s.pair (Reg.KEP_CNT_LO p.valve) + 1) (2 ^ 48 - 1) ∧
    (∀ i, i < 1056 → i ≠ p.valve → u.pair (Reg.KEP_CNT_LO i) = s.pair (Reg.KEP_CNT_LO i)) ∧
    (∀ l, Map.find s.drl.lastGate p.valve = some l → u.get Reg.DRL_RATE_HIGH_COUNT =
      Nat.min (s.get Reg.DRL_RATE_HIGH_COUNT + (if t < (l : Int) + 1000000 then 1 else 0)) (2 ^ Reg.DRL_RATE_HIGH_COUNT.width - 1)) ∧
    (Map.find s.drl.lastGate p.valve = none → u.get Reg.DRL_RATE_HIGH_COUNT = s.get Reg.DRL_RATE_HIGH_COUNT) ∧
    (u.act p.valve).map (fun a => (a.mode, a.gate)) = some (if boost then 1 else 2, t) ∧ Map.find u.drl.lastGate p.valve = some t.toNat) ∧
  (∀ (s : State) (a : Act) (o : Nat × Nat) (gate stop : Int) (minOn i : Nat), i < 1056 →
    (s.mergeAct a o gate stop minOn).pair (Reg.KEP_CNT_LO i) = s.pair (Reg.KEP_CNT_LO i)) ∧
  (∀ (s : State) (p : PullIn) (o : Nat × Nat) (gate req stop : Int) (minOn i : Nat), i < 1056 →
    (s.mergePull p o gate req stop minOn).pair (Reg.KEP_CNT_LO i) = s.pair (Reg.KEP_CNT_LO i))

/-- Samples that reach the column's target take every boosting valve of the column to HOLD, and so does BOOST_MAX, counted in PEAK_TIMEOUT
and told by an event. A chopping period ends its on interval at the column's target and adds to a holding valve's I2t. A dip found in
the window gives MOVE to the valve, counts, and moves its lead when learning is on; samples without a dip change nothing. At its planned
end a valve decays from the current it had, unless both its column and its group hold another valve not yet at its end: then it is held.
When its release time has elapsed it is no longer energised. (R243, R268, R269, R270, R272, R273, R275, R276, Table 10-4; derived) -/
def Obligations.ActuationsBoostHoldAndRelease : Prop :=
  (∀ (s : State) (v w blank n : Nat) (codes : List Nat) (a : Act), v < 1024 → oneActPerValve s → s.act v = some a → a.mode = 1 →
    codes.getLast? = some n → blanked a.opened blank < codes.length → (s.columnTarget (columnOf v) : Rat) ≤ s.codeMa n → ∀ u : State, u = s.elapse w →
    ∃ t, exec (.peakReached v w blank codes) s = .next t ∧ (t.act v).map (fun b => (b.mode, b.gate, b.stop, b.owners)) = some (2, a.gate, a.stop, a.owners) ∧
      (∀ b ∈ t.vlv.acts, columnOf b.valve = columnOf v → b.mode ≠ 1) ∧ t.time = u.time ∧
      t.get (Reg.VLV_LAST_BOOST_US v) = Nat.min (rhe (u.nowI - a.gate) 1000).toNat 65535 ∧
      RegsKept s t (matrixRegs s [v] ++ [Reg.VLV_DIP_MISS] ++ s.vlv.acts.map (fun b => Reg.VLV_LAST b.valve) ++ (List.range 4).map Reg.DRL_CLASS_E) ∧
      t.mem = s.mem) ∧
  (∀ (s : State) (v blank : Nat) (codes : List Nat) (a : Act), v < 1024 → oneActPerValve s → s.act v = some a → a.mode = 1 →
    ∃ t, exec (.peakTimeout v blank codes) s = .next t ∧ (t.act v).map (fun b => b.mode) = some 2 ∧
      t.time = (s.elapseDev (a.gate + boostMaxNs a.prof)).time ∧ t.get Reg.VLV_LAST_FAULT_CODE = 0x10 ∧ t.get Reg.VLV_LAST_FAULT_TARGET = 0 ∧
      t.get Reg.VLV_LAST_FAULT_INDEX = v ∧ t.get (Reg.VLV_VALVE_FAULT v) = 0x10 ∧
      t.get Reg.VLV_FAULTS_PEAK_TIMEOUT = Nat.min (s.get Reg.VLV_FAULTS_PEAK_TIMEOUT + 1) 65535 ∧
      t.pair Reg.GEN_EPOS_LO = (s.pair Reg.GEN_EPOS_LO + 1) % 2 ^ 64 ∧
      RegsKept s t (matrixRegs s [v] ++ [Reg.VLV_DIP_MISS, Reg.VLV_LAST v, Reg.VLV_LAST_FAULT, Reg.VLV_FAULTS] ++ (List.range 4).map Reg.DRL_CLASS_E ++
        eventRegs) ∧
      t.mem = s.mem) ∧
  (∀ (s : State) (v w n : Nat) (codes : List Nat) (a : Act), v < 1024 → s.vlv.acts.filter (fun b => decide (columnOf b.valve = columnOf v)) = [a] →
    a.valve = v → a.mode = 2 → ∀ cs : List Nat, cs = s.onInterval (s.columnTarget (columnOf v)) (s.columnPeriod (columnOf v)) codes →
    cs.getLast? = some n → ∀ u : State, u = s.chopEnd (columnOf v) w (s.columnPeriod (columnOf v)) →
    (∀ x ∈ cs.dropLast, s.codeMa x < (s.columnTarget (columnOf v) : Rat)) ∧
    ∃ t, exec (.chopPeriod (columnOf v) w codes) s = .next t ∧
      t.act v = some { s.chopAct a (s.columnPeriod (columnOf v)) cs with seen := u.nowI } ∧
      t.get (Reg.VLV_COLUMN_CURRENT (columnOf v)) = Nat.min (rheQ (s.codeMa n)).toNat 16383 ∧ RegsKept s t [Reg.VLV_COLUMN (columnOf v)] ∧
      t.time = u.time ∧ t.mem = s.mem) ∧
  (∀ (s : State) (v w first : Nat) (codes : List Nat) (a : Act), v < 1024 → s.act v = some a → a.mode = 1 → dipEn a.prof = true → a.dip = none →
    s.sharedCol (columnOf v) = false → ∀ d : DipSearch, d = s.dipSearch a.prof first codes →
    (d.found = false → exec (.dipFound v w first codes) s = .next s) ∧
    (∀ (m : Rat) (x : Int), d.low = some (m, x) → d.found = true → ∀ mv : Nat, mv = (rhe x 100).toNat → mv < 65536 →
      ∃ t, exec (.dipFound v w first codes) s = .next t ∧ (t.act v).map (fun b => (b.mode, b.dip)) = some (1, some mv) ∧
        t.get (Reg.VLV_LAST_MOVE v) = mv ∧ t.get Reg.VLV_DIP_FOUND_COUNT = Nat.min (s.get Reg.VLV_DIP_FOUND_COUNT + 1) (2 ^ 32 - 1) ∧
        t.get (Reg.DRL_VALVE_LEAD v) = (if s.flag Reg.DRL_CTRL_LEARN_ON then s.leadClamp v ((s.get (Reg.DRL_VALVE_LEAD v) : Int) +
          rhe ((mv : Int) + 10 * (s.get Reg.DRL_LEARN_AIR_US : Int) - (s.get (Reg.DRL_VALVE_LEAD v) : Int)) (2 ^ s.get Reg.DRL_LEARN_LEAD_SHIFT))
          else s.get (Reg.DRL_VALVE_LEAD v)) ∧
        RegsKept s t ([Reg.VLV_LAST v, Reg.VLV_DIP_FOUND, Reg.DRL_VALVE v] ++ eventRegs) ∧ t.mem = s.mem)) ∧
  (∀ (s : State) (v blank : Nat) (codes : List Nat) (a : Act), v < 1024 → oneActPerValve s → s.act v = some a → a.mode = 2 →
    a.heldPast = false → s.pwr.arm = true → ∀ u : State, u = s.elapseDev a.stop → a.stop ≤ u.nowI →
    ((∀ b ∈ s.vlv.acts, b.on = true → columnOf b.valve = columnOf v → b.stop ≤ u.nowI) ∨
      (∀ b ∈ s.vlv.acts, b.on = true → groupOf b.valve = groupOf v → b.stop ≤ u.nowI) →
      (s.vlv.acts = [a] → s.vlv.crossRel = [] → ∃ t, exec (.actuationEnd v blank codes) s = .next t ∧
        (t.act v).map (fun b => (b.mode, b.release)) = some (3, some (u.nowI + 1000 * ((s.offCurrent a).2 : Int))) ∧
        Map.find t.drl.theta v = some (u.thetaAt v u.now + u.thetaRise v (a.i2t + (s.offCurrent a).1 / 1000 * ((s.offCurrent a).1 / 1000) * decayUs a.prof / 2), u.now) ∧
        RegsKept s t (matrixRegs s [v] ++ [Reg.DRL_THETA v, Reg.DRL_STATUS]) ∧ t.mem = s.mem) ∧
      ∃ t, exec (.actuationEnd v blank codes) s = .next t ∧ (t.act v).map (fun b => b.mode) = some 3) ∧
    (∀ b c : Act, b ∈ s.vlv.acts → c ∈ s.vlv.acts → b.on = true → c.on = true → columnOf b.valve = columnOf v → groupOf c.valve = groupOf v →
      u.nowI < b.stop → u.nowI < c.stop →
      ∃ t, exec (.actuationEnd v blank codes) s = .next t ∧ (t.act v).map (fun b => (b.mode, b.heldPast)) = some (2, true))) ∧
  (∀ (s : State) (v : Nat) (a : Act) (r : Int), v < 1024 → s.act v = some a → a.release = some r →
    ∃ t, exec (.valveReleased v) s = .next t ∧ t.act v = none ∧ t.time = (s.elapseDev r).time ∧
      t.vlv.acts.map (fun b => (b.valve, b.mode)) = (s.vlv.acts.filter (fun b => decide (b.valve ≠ v))).map (fun b => (b.valve, b.mode))) ∧
  (∀ (s : State) (v : Nat) (e : Nat × Int), v < 1024 → s.act v = none → s.vlv.crossRel.find? (fun e => decide (e.1 = v)) = some e →
    ∃ t, exec (.valveReleased v) s = .next t ∧ t.vlv.crossRel.any (fun e => decide (e.1 = v)) = false ∧ t.time = (s.elapseDev e.2).time ∧
      RegsKept s t (matrixRegs s [v]) ∧ t.mem = s.mem)

/-- Two low currents in a row on the right band count an open run for the valve and disables it at VALVE_OPEN_N, or its column when another
group's valve showed the same there: what runs there decays; a good current clears the run. A group fault marks the group stuck or lost,
or disables it; a column fault disables the column, where what runs decays; the stuck faults stop the matrix when STUCK_STOP is set; an
AUX fault puts the channel in FAULT. A reading that does not meet a fault changes nothing. The idle scan reads every group, then column
after column until the next command, and disables a column that shows a short. ENABLE clears a part's fault unless its off-state fault
is still present. (R265, R278, R279, R280, R281, R282, Table 10-7; derived) -/
def Obligations.FaultsDisableTheirParts : Prop :=
  (∀ (s : State) (v code1 code2 gsn n : Nat) (a : Act), v < 1024 → oneActPerValve s → s.act v = some a → a.on = true →
    s.sharedCol (columnOf v) = false → s.band gsn = some (s.groupDrive (groupOf v) + 1) → n = Nat.min 15 (s.get (Reg.VLV_VALVE_OPEN_RUN v) + 1) →
    ((openMa a.prof : Rat) ≤ s.codeMa code1 ∨ (openMa a.prof : Rat) ≤ s.codeMa code2 → ∃ t, exec (.openLoadCheck v (code1, code2) gsn) s = .next t ∧ t.get (Reg.VLV_VALVE_OPEN_RUN v) = 0 ∧
      t.vlv.acts = s.vlv.acts ∧ RegsKept s t [Reg.VLV_VALVE v, Reg.VLV_COLUMN (columnOf v), Reg.VLV_GROUP (groupOf v)] ∧ t.mem = s.mem) ∧
    (s.codeMa code1 < (openMa a.prof : Rat) → s.codeMa code2 < (openMa a.prof : Rat) → ∀ h : Option Nat, h = Map.find s.vlv.openCols (columnOf v) →
      (h = none ∨ h = some (groupOf v) → n < s.get Reg.VLV_CTRL_VALVE_OPEN_N → ∃ t, exec (.openLoadCheck v (code1, code2) gsn) s = .next t ∧
        t.get (Reg.VLV_VALVE_OPEN_RUN v) = n ∧ t.get (Reg.VLV_VALVE_FAULT v) = 1 ∧ t.get Reg.VLV_LAST_FAULT_CODE = 1 ∧
        t.get Reg.VLV_LAST_FAULT_INDEX = v ∧ t.get Reg.VLV_FAULTS_FAULTS = Nat.min (s.get Reg.VLV_FAULTS_FAULTS + 1) 65535 ∧
        t.vlv.acts = s.vlv.acts ∧ t.vlv.valveDis = s.vlv.valveDis ∧ t.time.ticks = (s.elapseDev (a.gate + 1000 * (openUs a.prof : Int))).time.ticks ∧
        RegsKept s t ([Reg.VLV_VALVE v, Reg.VLV_COLUMN (columnOf v), Reg.VLV_GROUP (groupOf v), Reg.VLV_LAST_FAULT, Reg.VLV_FAULTS] ++ eventRegs) ∧
        t.mem = s.mem) ∧
      (h = none ∨ h = some (groupOf v) → s.get Reg.VLV_CTRL_VALVE_OPEN_N ≤ n → ∃ t, exec (.openLoadCheck v (code1, code2) gsn) s = .next t ∧
        v ∈ t.vlv.valveDis ∧ (t.act v).map (fun b => b.mode) = some 3 ∧ t.get (Reg.VLV_VALVE_STATE v) = 3 ∧ t.get (Reg.DRL_VALVE_DISABLED v) = 1) ∧
      (h ≠ none → h ≠ some (groupOf v) → ∃ t, exec (.openLoadCheck v (code1, code2) gsn) s = .next t ∧ t.get (Reg.VLV_COLUMN_DISABLED (columnOf v)) = 1 ∧
        t.get (Reg.VLV_COLUMN_FAULT (columnOf v)) = 2 ∧ (∀ b ∈ t.vlv.acts, columnOf b.valve = columnOf v → b.on = false)))) ∧
  (∀ (s : State) (w code index c1 c2 : Nat), ∀ u : State, u = s.elapse w →
    (u.faultMet code index c1 c2 = false → exec (.valveFault w code index (c1, c2)) s = .next u) ∧
    (u.faultMet code index c1 c2 = true → (∀ b ∈ s.vlv.acts, b.valve < 1024) → ∃ t, exec (.valveFault w code index (c1, c2)) s = .next t ∧ t.time = u.time ∧
      t.get Reg.VLV_LAST_FAULT_CODE = code ∧ t.get Reg.VLV_LAST_FAULT_INDEX = index ∧ t.get Reg.MPT_ALERT_VALVE = 1 ∧
      t.get Reg.VLV_FAULTS_FAULTS = Nat.min (s.get Reg.VLV_FAULTS_FAULTS + 1) 65535 ∧ t.mem = s.mem ∧
      (code ≤ 5 → t.get (Reg.VLV_COLUMN_DISABLED index) = 1 ∧ t.get (Reg.VLV_COLUMN_FAULT index) = code ∧
        ∀ b ∈ t.vlv.acts, columnOf b.valve = index → b.on = false) ∧
      (6 ≤ code → code ≤ 12 → t.get (Reg.VLV_GROUP_FAULT index) = code ∧ (code = 8 → t.get (Reg.VLV_GROUP_BOOST_STUCK index) = 1) ∧
        (code = 9 → t.get (Reg.VLV_GROUP_BOOST_LOST index) = 1) ∧
        (code ≠ 8 → code ≠ 9 → t.get (Reg.VLV_GROUP_DISABLED index) = 1 ∧ ∀ b ∈ t.vlv.acts, groupOf b.valve = index → b.on = false)) ∧
      (code = 4 ∨ code = 11 ∨ code = 12 → s.flag Reg.VLV_CTRL_STUCK_STOP = true → t.get Reg.VLV_STATUS_STOPPED = 1 ∧
        t.get Reg.VLV_STATUS_ENABLED = 0 ∧ t.waiting = [] ∧ t.vlv.acts.any Act.on = false) ∧
      (12 < code → t.get (auxFault index) = 1 ∧ (code ≠ 13 → t.get (auxState index) = 4 ∧ t.auxOf index = none)))) ∧
  (∀ (s : State) (w : Nat) (gsn : List (Nat × Nat)) (cols : List Nat), ∀ u : State, u = s.elapse w → gsn.length = 16 →
    (u.scanReady = false → s.vlv.scanCol = none → exec (.idleScan w gsn cols) s = .next u) ∧
    (∀ k, k < 64 → s.vlv.scanCol = some k → k + cols.length ≤ 64 → ∃ t, exec (.idleScan w gsn cols) s = .next t ∧
      t.vlv.scanCol = (if k + cols.length = 64 then none else some (k + cols.length)) ∧ t.time.ticks = u.time.ticks + usTicks 2 * cols.length ∧
      (∀ c, c < cols.length → t.get (Reg.VLV_COLUMN_CURRENT (k + c)) = Nat.min (rheQ (s.codeMa (cols.getD c 0))).toNat 16383 ∧
        t.get (Reg.VLV_COLUMN_DISABLED (k + c)) =
          (if (s.get Reg.VLV_DIAG_SC_MA : Rat) ≤ s.codeMa (cols.getD c 0) then 1 else s.get (Reg.VLV_COLUMN_DISABLED (k + c)))) ∧ t.mem = s.mem) ∧
    (cols.length ≤ 64 → u.scanReady = true → (∀ p ∈ gsn, u.band p.1 = some 1 ∧ u.band p.2 = some 1) → ∃ t, exec (.idleScan w gsn cols) s = .next t ∧
      t.vlv.lastScan = some u.time.ticks ∧ t.vlv.scanCol = (if cols.length = 64 then none else some cols.length) ∧
      t.get Reg.VLV_STATUS_SCAN_BUSY = (if cols.length = 64 then 0 else 1) ∧
      (∀ c, c < cols.length → t.get (Reg.VLV_COLUMN_CURRENT c) = Nat.min (rheQ (s.codeMa (cols.getD c 0))).toNat 16383 ∧
        t.get (Reg.VLV_COLUMN_DISABLED c) =
          (if (s.get Reg.VLV_DIAG_SC_MA : Rat) ≤ s.codeMa (cols.getD c 0) then 1 else s.get (Reg.VLV_COLUMN_DISABLED c))) ∧
      (∀ g, g < 16 → t.get (Reg.VLV_GROUP_NODE g) = Nat.min (rheQ (nodeMv (gsn.getD g (0, 0)).2 / 100)).toNat 4095 ∧
        t.get (Reg.VLV_GROUP_DISABLED g) = s.get (Reg.VLV_GROUP_DISABLED g)) ∧ t.mem = s.mem)) ∧
  (∀ (s : State) (target index code : Nat), target < 4 → index < targetSize target → s.reaches Reg.VLV_CMD = true → ∀ u : State,
    u = (if target = 1 then s.showCurrent index code else if target = 2 then s.showNode index code
      else if target = 3 then { s with vlv := { s.vlv with auxCode := s.vlv.auxCode.set index code } } else s) →
    (u.stillPresent target index = true → exec (.valveEnable target index code) s = .next (u.refuse Reg.VLV_CMD)) ∧
    (u.stillPresent target index = false → ∃ t, exec (.valveEnable target index code) s = .next t ∧ t.mem = s.mem ∧
      (target = 0 → t.get (Reg.VLV_VALVE_FAULT index) = 0 ∧ t.vlv.valveDis = s.vlv.valveDis.filter (fun x => decide (x ≠ index))) ∧
      (target = 1 → t.get (Reg.VLV_COLUMN_DISABLED index) = 0 ∧ t.get (Reg.VLV_COLUMN_FAULT index) = 0 ∧ t.vlv = s.vlv) ∧
      (target = 2 → t.get (Reg.VLV_GROUP_DISABLED index) = 0 ∧ t.get (Reg.VLV_GROUP_FAULT index) = 0 ∧ t.get (Reg.VLV_GROUP_BOOST_LOST index) = 0 ∧
        t.get (Reg.VLV_GROUP_BOOST_STUCK index) = 0 ∧ t.vlv = s.vlv) ∧
      (target = 3 → t.get (auxFault index) = 0 ∧ t.get (auxState index) ≠ 4 ∧ RegsKept s t [Reg.VLV_AUX_STATUS])))

/-- ARM asserted only arms; deasserted, every waiting pull-in ends without a gate and the matrix is no longer enabled once nothing is in
BOOST or HOLD. RESUME clears STOPPED, CLR_COUNTERS the four counter words. A command for AUX1 runs a profile of that channel for a time,
a zero profile or the end of that time makes it decay, its peak or BOOST_MAX takes it to HOLD, and its release ends it; a command for
AUX0, or for AUX1 without its owner, is REFUSED. (R51, R269, R270, R281, R283, R284, R285, Table 10-11; derived) -/
def Obligations.ArmAuxAndMatrixCounters : Prop :=
  (∀ s : State, exec .armAssert s = .next { s with pwr := { s.pwr with arm := true } }) ∧
  (∀ s : State, ∃ t, exec .armDeassert s = .next t ∧ t.pwr.arm = false ∧ t.waiting = [] ∧ t.vlv = s.vlv ∧ t.mem = s.mem ∧ t.time.ticks = s.time.ticks ∧
    (s.vlv.acts.any Act.on = true → t.get Reg.VLV_STATUS_ENABLED = s.get Reg.VLV_STATUS_ENABLED) ∧
    (s.vlv.acts.any Act.on = false → t.get Reg.VLV_STATUS_ENABLED = 0)) ∧
  (∀ s : State, s.reaches Reg.VLV_CMD = true →
    (∃ t, exec .matrixResume s = .next t ∧ t.get Reg.VLV_STATUS_STOPPED = 0 ∧ t.get Reg.VLV_STATUS_ENABLED = s.get Reg.VLV_STATUS_ENABLED ∧
      RegsKept s t [Reg.VLV_STATUS] ∧ OnlyApplied s t) ∧
    (∃ t, exec .vlvClrCounters s = .next t ∧ t.word Reg.VLV_DIP_FOUND = 0 ∧ t.word Reg.VLV_DIP_MISS = 0 ∧ t.word Reg.VLV_FAULTS = 0 ∧
      t.word Reg.VLV_SHARE_EXT = 0 ∧ RegsKept s t [Reg.VLV_DIP_FOUND, Reg.VLV_DIP_MISS, Reg.VLV_FAULTS, Reg.VLV_SHARE_EXT] ∧ OnlyApplied s t)) ∧
  (∀ (s : State) (second ms : Nat), second < 2 → ms < 65536 → s.reaches Reg.VLV_AUX_CMD = true → s.cfg.stage = .running → ∀ p : List Word, p = s.profile (18 + second) →
    (∀ x, x < 2 → exec (.auxCommand (2 * x + 65536 * ms)) s = .next (s.refuse Reg.VLV_AUX_CMD)) ∧
    (s.ownsAll 8 = false → exec (.auxCommand (1 + 2 * second + 65536 * ms)) s = .next (s.refuse Reg.VLV_AUX_CMD)) ∧
    (s.ownsAll 8 = true → s.get Reg.VLV_AUX_STATUS_STATE1 ≠ 4 → s.vlv.aux.length = 2 →
      (peakMa p ≠ 0 ∨ holdMa p ≠ 0 → ∃ t, exec (.auxCommand (1 + 2 * second + 65536 * ms)) s = .next t ∧
        t.auxOf 1 = some ⟨1, p, !(s.switch 65).1, s.nowI, 0, none⟩ ∧ (t.switch 65).1 = true ∧ t.auxOf 0 = s.auxOf 0 ∧ t.get Reg.VLV_AUX_STATUS_STATE1 = 1 ∧
        t.due (Timer.auxEnd 1) = (if ms = 0 then none else some (s.time.ticks + msTicks ms)) ∧ RegsKept s t [Reg.VLV_AUX_STATUS] ∧ t.mem = s.mem) ∧
      (peakMa p = 0 → holdMa p = 0 → ∀ a : Aux, s.auxOf 1 = some a → a.mode ≠ 3 → ∃ t, exec (.auxCommand (1 + 2 * second + 65536 * ms)) s = .next t ∧
        (t.auxOf 1).map (fun b => b.mode) = some 3 ∧ t.get Reg.VLV_AUX_STATUS_STATE1 = 3 ∧ t.due (Timer.auxEnd 1) = none ∧
        RegsKept s t [Reg.VLV_AUX_STATUS] ∧ t.mem = s.mem))) ∧
  (∀ (s : State) (k : Nat) (a : Aux), k < 2 → s.auxOf k = some a → s.get (auxState k) ≠ 4 →
    (∀ d codes, a.mode ≠ 3 → s.due (Timer.auxEnd k) = some d → ∃ t, exec (.auxDurationEnd ⟨k, codes⟩) s = .next t ∧
      (t.auxOf k).map (fun b => (b.mode, b.prof)) = some (3, a.prof) ∧ t.get (auxState k) = 3 ∧ t.due (Timer.auxEnd k) = none ∧
      RegsKept s t [Reg.VLV_AUX_STATUS] ∧ t.mem = s.mem) ∧
    (∀ (w n blank : Nat) (codes : List Nat), a.mode = 1 → codes.getLast? = some n → blanked a.opened blank < codes.length →
      (peakMa a.prof : Rat) ≤ s.codeMa n → ∃ t, exec (.peakReached (1024 + k) w blank codes) s = .next t ∧
        t.auxOf k = some { a.sampled (blanked a.opened blank) codes with mode := 2 } ∧
        t.get (auxState k) = 2 ∧ (t.switch (64 + k)).1 = false ∧ RegsKept s t [Reg.VLV_AUX_STATUS] ∧ t.mem = s.mem) ∧
    (∀ (blank : Nat) (codes : List Nat), a.mode = 1 → ∃ t, exec (.peakTimeout (1024 + k) blank codes) s = .next t ∧
      (t.auxOf k).map (fun b => (b.mode, b.prof)) = some (2, a.prof) ∧ t.time = (s.elapseDev (a.gate + boostMaxNs a.prof)).time ∧
      t.get Reg.VLV_LAST_FAULT_CODE = 0x10 ∧ t.get Reg.VLV_LAST_FAULT_TARGET = 3 ∧ t.get Reg.VLV_LAST_FAULT_INDEX = k ∧ t.mem = s.mem) ∧
    (a.mode = 3 → ∃ t, exec (.valveReleased (1024 + k)) s = .next t ∧ t.auxOf k = none ∧ t.get (auxState k) = 0 ∧
      t.time = (s.elapseDev a.release).time ∧ RegsKept s t [Reg.VLV_AUX_STATUS] ∧ t.mem = s.mem))

/-- A header with a bad CRC, width 3, a reserved bit, an undefined OPCODE, or LEN above 0 in a NOP or SYNC, and one cut short by SEL_N,
changes nothing but BAD_HEADER and what the next leading status says, and gets no reply. A NOP of the expected ALIVE, or while any is
expected, is counted and makes ALIVE plus 1 mod 16 expected; another one is not counted, counts in ALIVE_ERR and leaves the expectation.
A SYNC makes any expected. A reply tells in its leading status what the port held before; its trailing status and CRC are those of the
frame, its lanes those of WIDTH, and it comes after the busy bytes, or as an abort with TIMEOUT after BUSY_LIMIT of them. Bits of
MPT_ALERT written as one clear where they are W1C. CLR_COUNTERS clears MPT_ERRORS and MPT_COLLIDE. (R344, R345, R347, R348, R350, R351,
R352, R354, R365, Table 13-6, Table 13-7, Table 13-12; derived) -/
def Obligations.FramesAreCountedAndAnswered : Prop :=
  (∀ h : FrameHeader, headerOk h = true ↔ crc16 0xFFFF (headerBytes h) = h.hcrc ∧ h.width ≠ 3 ∧ h.reserved = 0 ∧ h.opcode ≤ 3 ∧
    (h.opcode = 0 ∨ h.opcode = 3 → h.len = 0)) ∧
  (∀ s : State, s.cfg.stage ≠ .off → ∀ u : State, u = s.selFall →
    (∀ (h : FrameHeader) (env : ReadEnv) (words : List (BitVec 32)) (dcrc : BitVec 16) (held : Bool), headerOk h = false →
      exec (.frameNop h) s = exec .invalidHeader s ∧ exec (.frameRead h env) s = exec .invalidHeader s ∧
      exec (.frameWrite h words dcrc held) s = exec .invalidHeader s ∧ exec (.frameSync h) s = exec .invalidHeader s) ∧
    ∃ t, exec .invalidHeader s = .next t ∧
      t.get Reg.MPT_ERRORS_BAD_HEADER = Nat.min (s.get Reg.MPT_ERRORS_BAD_HEADER + 1) 255 ∧
      t.get Reg.MPT_STATUS_EXPECT = s.get Reg.MPT_STATUS_EXPECT ∧ t.get Reg.MPT_STATUS_EXPECT_ANY = s.get Reg.MPT_STATUS_EXPECT_ANY ∧
      bit t.leadingStatus 4 = true ∧ t.mpt.reply = none ∧ RegsKept u t [Reg.MPT_ERRORS] ∧ t.mem = s.mem) ∧
  (∀ (s : State) (h : FrameHeader), s.cfg.stage = .running ∨ s.cfg.stage = .unconfigured ∨ s.cfg.stage = .saving ∨ s.cfg.stage = .held →
    headerOk h = true → ∀ u : State, u = s.selFall →
    (∀ ok late : Bool, ok = (s.flag Reg.MPT_STATUS_EXPECT_ANY || decide (s.get Reg.MPT_STATUS_EXPECT = h.alive)) →
      late = decide (s.get Reg.MPT_CTRL_BUSY_LIMIT < h.busy) → h.opcode = 0 → ∃ t, exec (.frameNop h) s = .next t ∧
        t.get Reg.MPT_STATUS_EXPECT = (if ok then (h.alive + 1) % 16 else s.get Reg.MPT_STATUS_EXPECT) ∧
        t.get Reg.MPT_STATUS_EXPECT_ANY = (if ok then 0 else s.get Reg.MPT_STATUS_EXPECT_ANY) ∧
        t.get Reg.MPT_ERRORS_ALIVE_ERR = Nat.min (s.get Reg.MPT_ERRORS_ALIVE_ERR + (if ok then 0 else 1)) 255 ∧
        t.get Reg.MPT_ERRORS_TIMEOUT = Nat.min (s.get Reg.MPT_ERRORS_TIMEOUT + (if late then 1 else 0)) 255 ∧
        t.mpt.reply.map (fun r => (r.busy, r.busyAbort, r.lanes, r.data)) =
          some (if late then s.get Reg.MPT_CTRL_BUSY_LIMIT else h.busy, late, 2 * 2 ^ h.width, []) ∧
        t.mpt.reply.map (fun r => (r.leading, r.trailing % 16, bit r.trailing 5, r.trailing / 4096)) =
          some (u.leadingStatus, if ok then 1 else 2, late, if ok then (h.alive + 1) % 16 else s.get Reg.MPT_STATUS_EXPECT) ∧
        t.mpt.reply.map (fun r => r.crc) = t.mpt.reply.map (fun r => (crc16 0xFFFF (beBytes 2 r.leading ++ beBytes 2 r.trailing)).toNat) ∧
        t.mpt.prevCounted = ok ∧ t.mpt.prevApplied = false ∧ t.mpt.prevDiscarded = false ∧ t.mpt.badHeader = false ∧ t.mpt.collision = false ∧
        RegsKept u t [Reg.MPT_STATUS, Reg.MPT_ERRORS] ∧ t = { u with regs := t.regs, mpt := t.mpt }) ∧
    (h.opcode = 3 → h.busy ≤ s.get Reg.MPT_CTRL_BUSY_LIMIT → ∃ t, exec (.frameSync h) s = .next t ∧ t.get Reg.MPT_STATUS_EXPECT_ANY = 1 ∧
      t.mpt.prevCounted = true ∧ t.mpt.reply.map (fun r => (r.leading, r.trailing % 16)) = some (u.leadingStatus, 1) ∧
      RegsKept u t [Reg.MPT_STATUS] ∧ t.mem = s.mem ∧ t.time = s.time)) ∧
  (∀ (s : State) (mask : Nat), s.reaches Reg.MPT_ALERT = true → ∃ t, exec (.alertClear mask) s = .next t ∧
    t.word Reg.MPT_ALERT = s.word Reg.MPT_ALERT &&& ~~~(BitVec.ofNat 32 mask &&& 0x1BE) ∧ RegsKept s t [Reg.MPT_ALERT] ∧ OnlyApplied s t) ∧
  (∀ s : State, s.reaches Reg.MPT_CMD = true → ∃ t, exec .mptClrCounters s = .next t ∧ t.word Reg.MPT_ERRORS = 0 ∧ t.word Reg.MPT_COLLIDE = 0 ∧
    RegsKept s t [Reg.MPT_ERRORS, Reg.MPT_COLLIDE] ∧ OnlyApplied s t)

/-- A valid READ whose trailing status shows ALIVE_ERR, ALIGN or UNCONF returns data words that are all zero, one for each word of the frame
unless it met TIMEOUT. A WRITE with ALIVE_ERR, with a failed data CRC, with ALIGN or with TIMEOUT, and one released before its start
byte, changes no register but the port's status and error counters, no memory and nothing else outside the port, and the next leading
status shows PREV_DISCARDED. (A keep-window frame that is served has by then waited for the stores that ran, and a transfer of the flash
has been abandoned by SEL_N: these are the states v and u.) (R353) -/
def Obligations.DiscardedFramesShowItAndChangeNothing : Prop :=
  ∀ (s : State) (h : FrameHeader), s.cfg.stage ≠ .off → headerOk h = true → ∀ u : State, u = s.selFall →
    ∀ f : FrameFacts, f = u.frameFacts h false (h.len + 1) true → ∀ v : State, v = u.awaitStores h f →
    (f.aliveErr = !s.aliveFits h.alive ∧ f.align = decide (h.addr % 4 ≠ 0) ∧
      f.unconf = (decide (s.cfg.stage = .unconfigured) && !s.reaches h.addr)) ∧
    (∀ env : ReadEnv, h.opcode = 1 → ∃ t, exec (.frameRead h env) s = .next t ∧
      t.mpt.reply.map (fun r => (bit r.trailing 1, bit r.trailing 4, bit r.trailing 5, bit r.trailing 7)) = some (f.aliveErr, f.align, f.timeout, f.unconf) ∧
      (f.aliveErr = true ∨ f.align = true ∨ f.unconf = true →
        t.mpt.reply.map (fun r => r.data) = some (if f.timeout then [] else List.replicate (h.len + 1) 0))) ∧
    (∀ (words : List (BitVec 32)) (dcrc : BitVec 16) (held : Bool), h.opcode = 2 →
      f.aliveErr = true ∨ dataCrcOk words dcrc = false ∨ f.align = true ∨ f.timeout = true ∨ held = false →
      ∃ t, exec (.frameWrite h words dcrc held) s = .next t ∧ bit t.leadingStatus 3 = true ∧ bit t.leadingStatus 1 = false ∧
        RegsKept v t [Reg.MPT_STATUS, Reg.MPT_ERRORS] ∧ t = { v with regs := t.regs, mpt := t.mpt } ∧
        (held = true → t.mpt.reply.map (fun r => (bit r.trailing 1, bit r.trailing 2, bit r.trailing 4, bit r.trailing 5)) =
          some (f.aliveErr, !dataCrcOk words dcrc, f.align, f.timeout)))

/-- A counted READ in the flash buffer returns its words in order and zeros with RANGE past the last register of the bank, and changes no
register but the port's status. A counted WRITE there with a good data CRC, while no flash operation runs, puts its words in order,
discards those past the end, and shows PREV_APPLIED when none was. While an operation runs, the write of the buffer is REFUSED: nothing
is put, and MPT_LAST_REFUSE names its first word. (R353, R355, R356, R357, R363, Table 13-6, Table 19-1; derived) -/
def Obligations.GoodFramesReadAndWriteTheirWords : Prop :=
  ∀ (s : State) (h : FrameHeader) (n : Nat), n < 64 → s.cfg.stage = .running ∨ s.cfg.stage = .unconfigured → headerOk h = true → h.addr = Reg.MPT_FL_BUF n →
    s.aliveFits h.alive = true → h.busy ≤ s.get Reg.MPT_CTRL_BUSY_LIMIT → ∀ u : State, u = s.selFall →
    (∀ env : ReadEnv, h.opcode = 1 → ∃ t, exec (.frameRead h env) s = .next t ∧
      t.mpt.reply.map (fun r => r.data) =
        some ((List.range (h.len + 1)).map (fun i => if n + i < 64 then s.word (Reg.MPT_FL_BUF (n + i)) else 0)) ∧
      t.mpt.reply.map (fun r => (bit r.trailing 0, bit r.trailing 3)) = some (true, decide (64 < n + h.len + 1)) ∧
      t.get Reg.MPT_STATUS_EXPECT = (h.alive + 1) % 16 ∧ t.get Reg.MPT_STATUS_EXPECT_ANY = 0 ∧ RegsKept u t [Reg.MPT_STATUS] ∧ t.mem = s.mem) ∧
    (∀ (words : List (BitVec 32)) (dcrc : BitVec 16), h.opcode = 2 → words.length = h.len + 1 → dataCrcOk words dcrc = true →
      (s.mpt.flash = none → ∃ t, exec (.frameWrite h words dcrc true) s = .next t ∧
        (∀ i, i < words.length → n + i < 64 → t.word (Reg.MPT_FL_BUF (n + i)) = words.getD i 0) ∧
        RegsKept u t ([Reg.MPT_STATUS] ++ (List.range (Nat.min words.length (64 - n))).map (fun i => Reg.MPT_FL_BUF (n + i))) ∧
        t.mpt.prevCounted = true ∧ t.mpt.prevApplied = decide (n + words.length ≤ 64) ∧ t.mpt.prevRefused = false ∧ t.mem = s.mem) ∧
      (s.mpt.flash ≠ none → ∃ t, exec (.frameWrite h words dcrc true) s = .next t ∧ t.word Reg.MPT_LAST_REFUSE = BitVec.ofNat 32 (Reg.MPT_FL_BUF n) ∧
        t.mpt.prevRefused = true ∧ t.get Reg.MPT_COLLIDE_REFUSED = Nat.min (s.get Reg.MPT_COLLIDE_REFUSED + 1) 65535 ∧
        RegsKept u t [Reg.MPT_STATUS, Reg.MPT_LAST_REFUSE, Reg.MPT_COLLIDE] ∧ t.mem = s.mem))

/-- Each flash command starts its operation at MPT_FL_ADDR when R363 allows it: BUSY is set, DONE and ERR clear, the commands of Table 13-9
go out, and its timeout runs; otherwise it is REFUSED. While a program or erase polls, SR shows the status read, and the polling goes on
every 10 us until the flash is no longer busy; a program is then read back. SEL_N that falls while the part masters the flash abandons
the transfer once, counted and told; 10 us after its end the transfer goes on with the commands of its phase, at the last confirmed
address. (R360, R361, R362, R363, Table 13-9; derived) -/
def Obligations.FlashOperationsStartAndWait : Prop :=
  (∀ (s : State) (op n len : Nat) (c : Instr), n < 256 → len = n + 1 → s.reaches Reg.MPT_FL_CMD = true →
    (op, len, c) ∈ [(1, len, .flashRead n), (2, len, .flashProgram n), (3, 1, .flashErase4k), (4, 1, .flashErase64k), (5, 1, .flashReadStatus)] →
    (s.flashAllowed op (s.get Reg.MPT_FL_ADDR_ADDR) len = true → ∃ t, exec c s = .next t ∧
      t.mpt.flash = some ⟨op, s.get Reg.MPT_FL_ADDR_ADDR, len, .command, 0⟩ ∧
      t.mpt.flashOut.map (fun k => (k.opcode, k.addr)) = (if op = 5 then [(0x05, none)]
        else if op = 1 then [(s.readOpcode, some (s.get Reg.MPT_FL_ADDR_ADDR))]
        else [(0x06, none), (if op = 2 then 0x02 else (if op = 3 then s.cfg.erase4k else s.cfg.erase64k).getD 0, some (s.get Reg.MPT_FL_ADDR_ADDR))]) ∧
      t.get Reg.MPT_FL_STATUS_BUSY = 1 ∧ t.get Reg.MPT_FL_STATUS_DONE = 0 ∧ t.get Reg.MPT_FL_STATUS_ERR = 0 ∧ t.get Reg.MPT_STATUS_MASTERING = 1 ∧
      t.due Timer.flash = some (s.time.ticks + msTicks (if op = 2 then 5 else if op = 3 then 1000 else if op = 4 then 4000 else 1)) ∧
      (2 ≤ op ∧ op ≤ 4 → t.due Timer.flashPoll = some (s.time.ticks + usTicks 10)) ∧
      RegsKept s t [Reg.MPT_FL_STATUS, Reg.MPT_STATUS] ∧ t.mem = s.mem ∧ t.mpt.prevApplied = true) ∧
    (s.flashAllowed op (s.get Reg.MPT_FL_ADDR_ADDR) len = false → exec c s = .next (s.refuse Reg.MPT_FL_CMD))) ∧
  (∀ (s : State) (op addr len : Nat), s.flashAllowed op addr len = true ↔
    s.mpt.flash = none ∧ (op = 2 → addr % 256 + len ≤ 256) ∧ (op = 3 → addr % 4096 = 0 ∧ s.cfg.erase4k ≠ none) ∧
    (op = 4 → addr % 65536 = 0 ∧ s.cfg.erase64k ≠ none) ∧
    (2 ≤ op ∧ op ≤ 4 → (s.get Reg.CFG_STATUS_SLOT_USED = 1 → 0x800000 ≤ addr) ∧
      (s.get Reg.CFG_STATUS_SLOT_USED = 2 → addr + (if op = 3 then 4096 else if op = 4 then 65536 else len) ≤ 0x800000))) ∧
  (∀ (s : State) (sr d : Nat) (f : FlashRun), sr < 256 → s.mpt.flash = some f → s.mpt.abandoned = false → s.due Timer.flashPoll = some d →
    ∀ g : FlashRun, g = { f with phase := if bit sr 0 = false ∧ f.op = 2 then .verify else .poll } →
    ∃ t, exec (.flashStatusPoll sr) s = .next t ∧ t.get Reg.MPT_FL_STATUS_SR = sr ∧ t.time.ticks = Nat.max s.time.ticks d ∧
      t.due Timer.flashPoll = (if bit sr 0 then some (t.time.ticks + usTicks 10) else none) ∧
      t.mpt = { s.mpt with flash := some g, flashOut := s.flashCmds g } ∧ RegsKept s t [Reg.MPT_FL_STATUS] ∧ t.mem = s.mem) ∧
  (∀ s : State,
    (s.masters = true → s.mpt.abandoned = false → ∃ t, exec .masterCollision s = .next t ∧ t.mpt.abandoned = true ∧ bit t.leadingStatus 5 = true ∧
      t.get Reg.MPT_COLLIDE_COLLISIONS = Nat.min (s.get Reg.MPT_COLLIDE_COLLISIONS + 1) 65535 ∧ t.get Reg.MPT_ALERT_MASTER_COLLISION = 1 ∧
      t.csfN = true ∧ t.mpt.flash.map (fun f => (f.op, f.addr, f.length, f.phase)) = s.mpt.flash.map (fun f => (f.op, f.addr, f.length, f.phase)) ∧
      (∀ f g : FlashRun, s.mpt.flash = some f → t.mpt.flash = some g → f.got ≤ g.got ∧ (f.got ≤ f.length → g.got ≤ f.length)) ∧
      RegsKept s t [Reg.MPT_COLLIDE, Reg.MPT_ALERT] ∧ t.mem = s.mem) ∧
    (s.masters = false ∨ s.mpt.abandoned = true → exec .masterCollision s = .next s) ∧
    (s.mpt.abandoned = true → ∃ t, exec .flashTransferResume s = .next t ∧ t.mpt.abandoned = false ∧ t.mpt.flash = s.mpt.flash ∧
      t.mpt.flashOut = (match s.mpt.flash with
        | some f => s.flashCmds f
        | none => [⟨s.readOpcode, some s.mpt.loadAt, []⟩]) ∧
      t.regs = s.regs ∧ t.mem = s.mem ∧ t.time = (s.elapse (usTicks 10)).time))

/-- When the timeout of Table 13-9 comes, the running operation ends with ERR 1; a program whose verify read differs from the buffer ends
with ERR 2; a program or erase whose write-enable latch is not set ends with ERR 3; an operation that succeeds ends with ERR 0. Each
sets DONE, clears BUSY and MASTERING, raises FLASH_DONE and leaves no operation running; a read fills the buffer from byte 0 on. A
reload that was commanded while the operation ran starts at its end. (R364) -/
def Obligations.FlashOperationsEndWithTheirError : Prop :=
  ∀ (s : State) (f : FlashRun) (c : Instr) (err d : Nat) (bytes : List Byte), s.mpt.flash = some f → s.due Timer.flash = some d → f.length ≤ 256 →
    (c = .flashOpTimeout ∧ err = 1) ∨
    (s.mpt.abandoned = false ∧
      ((c = .flashOpDone (.ok bytes) ∧ f.op = 2 ∧ s.due Timer.flashPoll = none ∧ bytes.take f.length ≠ s.bufferBytes f.length ∧ err = 2) ∨
       (c = .flashOpDone .noWriteEnable ∧ 2 ≤ f.op ∧ f.op ≤ 4 ∧ err = 3) ∨
       (c = .flashOpDone (.ok bytes) ∧ (f.op = 1 ∨ f.op = 5 ∨
         (s.due Timer.flashPoll = none ∧ (f.op = 2 → bytes.take f.length = s.bufferBytes f.length))) ∧ err = 0))) →
    ∃ t, exec c s = .next t ∧ t.get Reg.MPT_FL_STATUS_DONE = 1 ∧ t.get Reg.MPT_FL_STATUS_ERR = err ∧ t.get Reg.MPT_FL_STATUS_BUSY = 0 ∧
      t.get Reg.MPT_STATUS_MASTERING = 0 ∧ t.get Reg.MPT_ALERT_FLASH_DONE = 1 ∧ t.mpt.flash = none ∧ t.due Timer.flash = none ∧
      t.due Timer.flashPoll = none ∧ (err = 1 → t.time.ticks = Nat.max s.time.ticks d) ∧
      (err = 0 → f.op = 1 → ∀ i, i < f.length → i < bytes.length → t.get ⟨Reg.MPT_FL_BUF (i / 4), 8 * (i % 4), 8⟩ = (bytes.getD i 0).toNat) ∧
      (err = 0 → f.op = 5 → t.get Reg.MPT_FL_STATUS_SR = (bytes.headD 0).toNat) ∧
      (∀ slot, s.cfg.reloadNext = some slot → s.cfg.reloading = false → t.cfg.reloading = true ∧ t.cfg.force = slot) ∧
      (s.cfg.reloadNext = none → t.cfg = s.cfg ∧ RegsKept s t ([Reg.MPT_FL_STATUS, Reg.MPT_STATUS, Reg.MPT_ALERT] ++
        (if err = 0 ∧ f.op = 1 then (List.range 64).map Reg.MPT_FL_BUF else []))) ∧ t.mem = s.mem

end
end

