-- ==== Sys2Proof/Laws/Keeps.lean ====
section
/-!
SUPPORT. What no operation does: touch the queue, or leave the canonical form of a sparse part. `Keeps r s` says that s came from r that
way; each operation carries it on.
-/
namespace Sys2Proof.Laws

open Sys2Proof.Machine Sys2Proof.Safety

/-- The memory, the non-volatile array and the register map stand in their canonical form. -/
def Canonical (s : State) : Prop :=
  Memory.wf s.mem = true ∧ Memory.wf s.keep.shadow = true ∧ Map.wf Reg.resetWord s.regs = true

/-- A state s that came from r with the same queue, canonical if r is, and with one actuation per valve if r has. -/
structure Keeps (r s : State) : Prop where
  queue : s.pending = r.pending
  form  : Canonical r → Canonical s
  acts  : oneActPerValve r → oneActPerValve s

def KeepsO (r : State) (o : Option State) : Prop := ∀ t, o = some t → Keeps r t
def KeepsP {α : Type} (r : State) (o : Option (State × α)) : Prop := ∀ p, o = some p → Keeps r p.1
def KeepsX (r : State) (x : Host.Outcome State Fault Refusal) : Prop := ∀ t, x = .next t → Keeps r t

theorem Keeps.refl (s : State) : Keeps s s := ⟨rfl, id, id⟩
theorem Keeps.trans {r s t : State} (h : Keeps r s) (k : Keeps s t) : Keeps r t := 
  ⟨k.queue.trans h.queue, fun c => k.form (h.form c), fun c => k.acts (h.acts c)⟩

theorem keeps_ite {r a b : State} {c : Prop} [Decidable c] (ha : Keeps r a) (hb : Keeps r b) : Keeps r (if c then a else b) := by
  split <;> assumption
theorem keeps_ite_fst {α : Type} {r : State} {a b : State × α} {c : Prop} [Decidable c] (ha : Keeps r a.1) (hb : Keeps r b.1) :
    Keeps r (if c then a else b).1 := by
  split <;> assumption
theorem keeps_fst {α : Type} {r s : State} {a : α} (h : Keeps r s) : Keeps r (s, a).1 := h
theorem keepsO_ite {r : State} {a b : Option State} {c : Prop} [Decidable c] (ha : KeepsO r a) (hb : KeepsO r b) :
    KeepsO r (if c then a else b) := by
  split <;> assumption
theorem keepsO_some {r s : State} (h : Keeps r s) : KeepsO r (some s) := fun t e => by cases e; exact h
theorem keepsO_none {r : State} : KeepsO r none := fun t e => by cases e
theorem KeepsO.use {r t : State} {o : Option State} (e : o = some t) (h : KeepsO r o) : Keeps r t := h t e
theorem keepsO_map {α : Type} {r : State} {o : Option α} {f : α → State} (h : ∀ x, Keeps r (f x)) : KeepsO r (o.map f) := by
  intro t e
  cases o with
  | none => cases e
  | some x => cases e; exact h x
theorem keepsP_ite {α : Type} {r : State} {a b : Option (State × α)} {c : Prop} [Decidable c] (ha : KeepsP r a) (hb : KeepsP r b) :
    KeepsP r (if c then a else b) := by
  split <;> assumption
theorem keepsP_some {α : Type} {r s : State} {a : α} (h : Keeps r s) : KeepsP r (some (s, a)) := fun t e => by cases e; exact h
theorem keepsP_none {α : Type} {r : State} : KeepsP (α := α) r none := fun t e => by cases e
theorem KeepsP.use {α : Type} {r t : State} {a : α} {o : Option (State × α)} (e : o = some (t, a)) (h : KeepsP r o) : Keeps r t := h _ e
theorem keepsX_next {r s : State} (h : Keeps r s) : KeepsX r (.next s) := fun t e => by cases e; exact h
theorem keepsX_fault {r : State} {f : Fault} : KeepsX r (.fault f) := fun t e => by cases e
theorem keepsX_ite {r : State} {a b : Host.Outcome State Fault Refusal} {c : Prop} [Decidable c] (ha : KeepsX r a) (hb : KeepsX r b) :
    KeepsX r (if c then a else b) := by
  split <;> assumption
theorem Keeps.ofPair {α : Type} {r t : State} {a : α} {p : State × α} (e : p = (t, a)) (h : Keeps r p.1) : Keeps r t := by
  cases e; exact h
theorem Keeps.ofFst {α : Type} {r t : State} {p : State × α} (e : p.1 = t) (h : Keeps r p.1) : Keeps r t := by
  cases e; exact h

theorem keeps_foldl {α : Type} {r s : State} {f : State → α → State} {l : List α} (hf : ∀ t x, Keeps r t → Keeps r (f t x))
    (h : Keeps r s) : Keeps r (l.foldl f s) := by
  induction l generalizing s with
  | nil => exact h
  | cons x l ih => exact ih (hf s x h)
theorem keeps_foldl_fst {α β : Type} {r : State} {p : State × β} {f : State × β → α → State × β} {l : List α}
    (hf : ∀ t x, Keeps r t.1 → Keeps r (f t x).1) (h : Keeps r p.1) : Keeps r (l.foldl f p).1 := by
  induction l generalizing p with
  | nil => exact h
  | cons x l ih => exact ih (hf p x h)

theorem Keeps.parts {r x : State} (h : Keeps r x) :
    x.pending = r.pending ∧ (Canonical r → Memory.wf x.mem = true ∧ Memory.wf x.keep.shadow = true ∧ Map.wf Reg.resetWord x.regs = true) ∧
      (oneActPerValve r → oneEach x.vlv.acts) :=
  ⟨h.queue, h.form, h.acts⟩

theorem keeps_mk {r : State} {p g sh m f t c mp k pw rs e pt nv d st hk rd co wa ca tr a dr v} :
    Keeps r (State.mk p g sh m f t c mp k pw rs e pt nv d st hk rd co wa ca tr a dr v) ↔
      p = r.pending ∧ (Canonical r → Memory.wf m = true ∧ Memory.wf k.shadow = true ∧ Map.wf Reg.resetWord g = true) ∧
        (oneActPerValve r → oneEach v.acts) :=
  ⟨fun h => ⟨h.queue, h.form, h.acts⟩, fun h => ⟨h.1, h.2.1, h.2.2⟩⟩

/-- A record update that leaves the queue and the sparse parts alone. -/
theorem keeps_mk' {r x : State} {sh f t c mp k pw rs e pt nv d st hk rd co wa ca tr a dr v} (h : Keeps r x) (hk' : k.shadow = x.keep.shadow)
    (hv : v.acts = x.vlv.acts) :
    Keeps r (State.mk x.pending x.regs sh x.mem f t c mp k pw rs e pt nv d st hk rd co wa ca tr a dr v) :=
  keeps_mk.2 ⟨h.queue, fun hr => hk' ▸ h.form hr, fun hr => hv ▸ h.acts hr⟩

/-! ### Actuations -/

theorem oneEach_sub {l m : List Act} (h : (l.map (fun a => a.valve)).Sublist (m.map (fun a => a.valve))) (hm : oneEach m) : oneEach l :=
  List.Nodup.sublist h hm
theorem sub_map {l : List Act} {f : Act → Act} (h : ∀ a, (f a).valve = a.valve) :
    ((l.map f).map (fun a => a.valve)).Sublist (l.map (fun a => a.valve)) := by
  rw [List.map_map]
  exact (List.map_congr_left (fun a _ => h a)) ▸ List.Sublist.refl _
theorem sub_filter {l : List Act} {p : Act → Bool} : ((l.filter p).map (fun a => a.valve)).Sublist (l.map (fun a => a.valve)) :=
  List.filter_sublist.map _

/-- A new actuation takes the place of one of its valve. -/
theorem oneEach_new {l : List Act} {a : Act} {v : Nat} (h : a.valve = v) (hl : oneEach l) :
    oneEach (l.filter (fun b => decide (b.valve ≠ v)) ++ [a]) := by
  unfold oneEach
  rw [List.map_append, List.nodup_append]
  refine ⟨List.Nodup.sublist sub_filter hl, by simp, ?_⟩
  intro x hx y hy
  simp only [List.mem_map, List.mem_filter, decide_eq_true_eq] at hx
  obtain ⟨b, hb, rfl⟩ := hx
  simp only [List.map_cons, List.map_nil, List.mem_singleton] at hy
  subst hy
  rw [h]
  exact hb.2

/-! ### Sparse maps -/

theorem rising_mono {α : Type} {m : Map α} {a b : Nat} (h : b ≤ a) (hm : Map.rising m a = true) : Map.rising m b = true := by
  cases m with
  | nil => rfl
  | cons e m =>
    obtain ⟨j, v⟩ := e
    simp only [Map.rising, Bool.and_eq_true, decide_eq_true_eq] at hm ⊢
    exact ⟨Nat.le_trans h hm.1, hm.2⟩

theorem rising_erase {α : Type} {m : Map α} {b k : Nat} (hm : Map.rising m b = true) : Map.rising (Map.erase m k) b = true := by
  induction m generalizing b with
  | nil => rfl
  | cons e m ih =>
    obtain ⟨j, v⟩ := e
    simp only [Map.rising, Bool.and_eq_true, decide_eq_true_eq] at hm
    unfold Map.erase
    split
    · exact ih (rising_mono (by omega) hm.2)
    · simp only [Map.rising, Bool.and_eq_true, decide_eq_true_eq]
      exact ⟨hm.1, ih hm.2⟩

theorem rising_insert {α : Type} {m : Map α} {b k : Nat} {w : α} (hb : b ≤ k) (hm : Map.rising m b = true) :
    Map.rising (Map.insert m k w) b = true := by
  induction m generalizing b with
  | nil => simpa [Map.insert, Map.rising] using hb
  | cons e m ih =>
    obtain ⟨j, v⟩ := e
    simp only [Map.rising, Bool.and_eq_true, decide_eq_true_eq] at hm
    unfold Map.insert
    split
    · rename_i hk
      simp only [Map.rising, Bool.and_eq_true, decide_eq_true_eq]
      exact ⟨hb, by omega, hm.2⟩
    · split
      · rename_i hk
        simp only [Map.rising, Bool.and_eq_true, decide_eq_true_eq]
        exact ⟨hb, hk ▸ hm.2⟩
      · simp only [Map.rising, Bool.and_eq_true, decide_eq_true_eq]
        exact ⟨hm.1, ih (by omega) hm.2⟩

theorem rising_filter {α : Type} {m : Map α} {b : Nat} {p : Nat × α → Bool} (hm : Map.rising m b = true) :
    Map.rising (m.filter p) b = true := by
  induction m generalizing b with
  | nil => rfl
  | cons e m ih =>
    obtain ⟨j, v⟩ := e
    simp only [Map.rising, Bool.and_eq_true, decide_eq_true_eq] at hm
    rw [List.filter_cons]
    split
    · simp only [Map.rising, Bool.and_eq_true, decide_eq_true_eq]
      exact ⟨hm.1, ih hm.2⟩
    · exact ih (rising_mono (by omega) hm.2)

theorem all_erase {α : Type} {m : Map α} {k : Nat} {p : Nat × α → Bool} (h : m.all p = true) : (Map.erase m k).all p = true := by
  induction m with
  | nil => rfl
  | cons e m ih =>
    obtain ⟨j, v⟩ := e
    simp only [List.all_cons, Bool.and_eq_true] at h
    unfold Map.erase
    split
    · exact ih h.2
    · simp only [List.all_cons, Bool.and_eq_true]
      exact ⟨h.1, ih h.2⟩

theorem all_insert {α : Type} {m : Map α} {k : Nat} {w : α} {p : Nat × α → Bool} (h : m.all p = true) (hw : p (k, w) = true) :
    (Map.insert m k w).all p = true := by
  induction m with
  | nil => simpa [Map.insert] using hw
  | cons e m ih =>
    obtain ⟨j, v⟩ := e
    simp only [List.all_cons, Bool.and_eq_true] at h
    unfold Map.insert
    split
    · simp only [List.all_cons, Bool.and_eq_true]; exact ⟨hw, h.1, h.2⟩
    · split
      · simp only [List.all_cons, Bool.and_eq_true]; exact ⟨hw, h.2⟩
      · simp only [List.all_cons, Bool.and_eq_true]; exact ⟨h.1, ih h.2⟩

/-- A write keeps the canonical form. -/
theorem wf_write {α : Type} [DecidableEq α] {d : Nat → α} {m : Map α} (k : Nat) (v : α) (h : Map.wf d m = true) :
    Map.wf d (Map.write d m k v) = true := by
  simp only [Map.wf, Bool.and_eq_true] at h ⊢
  unfold Map.write
  split
  · exact ⟨rising_erase h.1, all_erase h.2⟩
  · rename_i hv
    exact ⟨rising_insert (Nat.zero_le k) h.1, all_insert h.2 (by simpa using hv)⟩

/-- So does dropping entries. -/
theorem wf_filter {α : Type} [DecidableEq α] {d : Nat → α} {m : Map α} {p : Nat × α → Bool} (h : Map.wf d m = true) :
    Map.wf d (m.filter p) = true := by
  simp only [Map.wf, Bool.and_eq_true] at h ⊢
  refine ⟨rising_filter h.1, ?_⟩
  rw [List.all_eq_true] at h ⊢
  intro x hx
  exact h.2 x (List.mem_filter.1 hx).1

theorem wf_keep {α : Type} [DecidableEq α] {d : Nat → α} {m : Map α} {p : Nat → Bool} (h : Map.wf d m = true) :
    Map.wf d (Map.keep p m) = true := wf_filter h

theorem wf_writeBytes {m : List Host.Cell} {a : Nat} {bs : List Byte} (h : Memory.wf m = true) :
    Memory.wf (Memory.writeBytes m a bs) = true := by
  induction bs generalizing m a with
  | nil => exact h
  | cons b bs ih => exact ih (wf_write a b h)

theorem wf_foldl {α : Type} {f : List Host.Cell → α → List Host.Cell} (hf : ∀ m x, Memory.wf m = true → Memory.wf (f m x) = true)
    {l : List α} {m : List Host.Cell} (h : Memory.wf m = true) : Memory.wf (l.foldl f m) = true := by
  induction l generalizing m with
  | nil => exact h
  | cons x l ih => exact ih (hf m x h)

theorem wf_putPages {m : List Host.Cell} {ps : List (Nat × List Byte)} (h : Memory.wf m = true) : Memory.wf (putPages m ps) = true :=
  wf_foldl (fun _ _ hm => wf_writeBytes hm) h

theorem wf_dropWords {m : List Host.Cell} {ws : List Nat} (h : Memory.wf m = true) : Memory.wf (dropWords m ws) = true :=
  wf_foldl (fun _ _ hm => wf_writeBytes hm) h

/-! ### The operations that write the sparse parts -/

theorem keeps_setWord {r s : State} {a : Nat} {w : Word} (h : Keeps r s) : Keeps r (s.setWord a w) :=
  ⟨h.queue, fun c => ⟨(h.form c).1, (h.form c).2.1, wf_write a w (h.form c).2.2⟩, h.acts⟩

theorem keeps_setByte {r s : State} {a : Nat} {b : Byte} (h : Keeps r s) : Keeps r (s.setByte a b) :=
  ⟨h.queue, fun c => ⟨wf_write a b (h.form c).1, (h.form c).2⟩, h.acts⟩

theorem keeps_setMemWord {r s : State} {a : Nat} {w : Word} (h : Keeps r s) : Keeps r (s.setMemWord a w) :=
  ⟨h.queue, fun c => ⟨wf_writeBytes (h.form c).1, (h.form c).2⟩, h.acts⟩

theorem keeps_putBytes {r s : State} {a : Nat} {bs : List Byte} (h : Keeps r s) : Keeps r (s.putBytes a bs) :=
  ⟨h.queue, fun c => ⟨wf_writeBytes (h.form c).1, (h.form c).2⟩, h.acts⟩

theorem keeps_put {r s : State} {f : Field} {v : Nat} (h : Keeps r s) : Keeps r (s.put f v) := keeps_setWord h

theorem canonical_reset : Canonical State.reset := ⟨rfl, rfl, rfl⟩

/-! ### Record updates that write a sparse part whole -/

theorem Keeps.parts' {r x : State} {y : List Host.Cell} (h : Keeps r x) (e : y = x.keep.shadow) :
    x.pending = r.pending ∧ (Canonical r → Memory.wf x.mem = true ∧ Memory.wf y = true ∧ Map.wf Reg.resetWord x.regs = true) ∧
      (oneActPerValve r → oneEach x.vlv.acts) :=
  ⟨h.queue, fun c => e ▸ h.form c, h.acts⟩

theorem Keeps.partsPages {r x : State} {ps : List (Nat × List Byte)} (h : Keeps r x) :
    x.pending = r.pending ∧ (Canonical r → Memory.wf (putPages x.mem ps) = true ∧ Memory.wf x.keep.shadow = true ∧
      Map.wf Reg.resetWord x.regs = true) ∧
      (oneActPerValve r → oneEach x.vlv.acts) :=
  ⟨h.queue, fun c => ⟨wf_putPages (h.form c).1, (h.form c).2⟩, h.acts⟩

theorem Keeps.partsShadow {r x : State} {ps : List (Nat × List Byte)} (h : Keeps r x) :
    x.pending = r.pending ∧ (Canonical r → Memory.wf x.mem = true ∧ Memory.wf (putPages x.keep.shadow ps) = true ∧
      Map.wf Reg.resetWord x.regs = true) ∧
      (oneActPerValve r → oneEach x.vlv.acts) :=
  ⟨h.queue, fun c => ⟨(h.form c).1, wf_putPages (h.form c).2.1, (h.form c).2.2⟩, h.acts⟩

theorem Keeps.partsBoth {r x : State} {ps qs : List (Nat × List Byte)} (h : Keeps r x) :
    x.pending = r.pending ∧ (Canonical r → Memory.wf (putPages x.mem ps) = true ∧ Memory.wf (putPages x.keep.shadow qs) = true ∧
      Map.wf Reg.resetWord x.regs = true) ∧
      (oneActPerValve r → oneEach x.vlv.acts) :=
  ⟨h.queue, fun c => ⟨wf_putPages (h.form c).1, wf_putPages (h.form c).2.1, (h.form c).2.2⟩, h.acts⟩

theorem Keeps.partsKeep {r x : State} {p : Nat → Bool} (h : Keeps r x) :
    x.pending = r.pending ∧ (Canonical r → Memory.wf (Map.keep p x.mem) = true ∧ Memory.wf x.keep.shadow = true ∧
      Map.wf Reg.resetWord x.regs = true) ∧
      (oneActPerValve r → oneEach x.vlv.acts) :=
  ⟨h.queue, fun c => ⟨wf_keep (h.form c).1, (h.form c).2⟩, h.acts⟩

theorem Keeps.partsFallow {r x : State} {p : Nat → Bool} (h : Keeps r x) :
    x.pending = r.pending ∧ (Canonical r → Memory.wf (Map.keep p x.mem) = true ∧ Memory.wf x.keep.shadow = true ∧
      Map.wf Reg.resetWord x.regs = true) ∧ (oneActPerValve r → oneEach VlvState.reset.acts) :=
  ⟨h.queue, fun c => ⟨wf_keep (h.form c).1, (h.form c).2⟩, fun _ => List.nodup_nil⟩

theorem Keeps.partsActs {r x : State} {l : List Act} (h : Keeps r x) (e : (l.map (fun a => a.valve)).Sublist (x.vlv.acts.map (fun a => a.valve))) :
    x.pending = r.pending ∧ (Canonical r → Memory.wf x.mem = true ∧ Memory.wf x.keep.shadow = true ∧ Map.wf Reg.resetWord x.regs = true) ∧
      (oneActPerValve r → oneEach l) :=
  ⟨h.queue, h.form, fun c => oneEach_sub e (h.acts c)⟩

theorem Keeps.partsNew {r x : State} {a : Act} {v : Nat} (h : Keeps r x) (e : a.valve = v) :
    x.pending = r.pending ∧ (Canonical r → Memory.wf x.mem = true ∧ Memory.wf x.keep.shadow = true ∧ Map.wf Reg.resetWord x.regs = true) ∧
      (oneActPerValve r → oneEach (x.vlv.acts.filter (fun b => decide (b.valve ≠ v)) ++ [a])) :=
  ⟨h.queue, h.form, fun c => oneEach_new e (h.acts c)⟩

end Sys2Proof.Laws
end

