-- ==== Sys2Proof/Laws/Keeps/Ops.lean ====
section
/-! SUPPORT. Machine/Ops.lean keeps the queue, the canonical form and one actuation per valve. -/

namespace Sys2Proof.Laws

open Sys2Proof.Machine Sys2Proof.Safety

theorem keeps_putFlag {base : State} {s : State} {f : Field} {b : Bool} (h0 : Keeps base s) :
    Keeps base (State.putFlag s f b) := by
  unfold State.putFlag
  try dsimp only
  repeat' first
    | with_reducible assumption | with_reducible apply keeps_put | with_reducible apply keeps_ite | dsimp only | split

theorem keeps_bump {base : State} {s : State} {f : Field} {n : Nat} (h0 : Keeps base s) :
    Keeps base (State.bump s f n) := by
  unfold State.bump
  try dsimp only
  repeat' first
    | with_reducible assumption | with_reducible apply keeps_put | dsimp only

theorem keeps_wrapAdd {base : State} {s : State} {f : Field} {n : Nat} (h0 : Keeps base s) :
    Keeps base (State.wrapAdd s f n) := by
  unfold State.wrapAdd
  try dsimp only
  repeat' first
    | with_reducible assumption | with_reducible apply keeps_put | dsimp only

theorem keeps_putS {base : State} {s : State} {f : Field} {x : Int} (h0 : Keeps base s) :
    Keeps base (State.putS s f x) := by
  unfold State.putS
  try dsimp only
  repeat' first
    | with_reducible assumption | with_reducible apply keeps_put | with_reducible apply keeps_ite | dsimp only | split

theorem keeps_putSat {base : State} {s : State} {f : Field} {v : Nat} (h0 : Keeps base s) :
    Keeps base (State.putSat s f v) := by
  unfold State.putSat
  try dsimp only
  repeat' first
    | with_reducible assumption | with_reducible apply keeps_put | dsimp only

theorem keeps_setPair {base : State} {s : State} {lo : Nat} {v : Nat} (h0 : Keeps base s) :
    Keeps base (State.setPair s lo v) := by
  unfold State.setPair
  try dsimp only
  repeat' first
    | with_reducible assumption | with_reducible apply keeps_setWord | dsimp only

theorem keeps_transfer {base : State} {s : State} {p : Nat → Bool} (h0 : Keeps base s) :
    Keeps base (State.transfer s p) := by
  unfold State.transfer
  try dsimp only
  repeat' first
    | with_reducible assumption | with_reducible apply keeps_setWord
    | (simp only [keeps_mk]; first | with_reducible apply Keeps.parts | refine Keeps.parts' ?_ rfl) | with_reducible apply keeps_foldl
    | with_reducible apply keeps_foldl_fst | dsimp only | (intro _; intros; try dsimp only)

theorem keeps_pend {base : State} {s : State} {a : Nat} {w : Nat} (h0 : Keeps base s) :
    Keeps base (State.pend s a w) := by
  unfold State.pend
  try dsimp only
  repeat' first
    | with_reducible assumption | with_reducible apply keeps_put | with_reducible apply keepsO_ite | with_reducible apply keepsO_some
    | with_reducible exact keepsO_none | (simp only [keeps_mk]; first | with_reducible apply Keeps.parts | refine Keeps.parts' ?_ rfl)
    | dsimp only | split | (intro _; intros; try dsimp only)

theorem keeps_draw {base : State} {s : State} (h0 : Keeps base s) :
    Keeps base (State.draw s) := by
  unfold State.draw
  try dsimp only
  repeat' first
    | with_reducible assumption | (simp only [keeps_mk]; first | with_reducible apply Keeps.parts | refine Keeps.parts' ?_ rfl) | dsimp only

theorem keeps_elapse {base : State} {s : State} {n : Nat} (h0 : Keeps base s) :
    Keeps base (State.elapse s n) := by
  unfold State.elapse
  try dsimp only
  repeat' first
    | with_reducible assumption | with_reducible apply keeps_ite
    | (simp only [keeps_mk]; first | with_reducible apply Keeps.parts | refine Keeps.parts' ?_ rfl) | dsimp only | split

theorem keeps_elapseTo {base : State} {s : State} {t : Nat} (h0 : Keeps base s) :
    Keeps base (State.elapseTo s t) := by
  unfold State.elapseTo
  try dsimp only
  repeat' first
    | with_reducible assumption | with_reducible apply keeps_elapse | with_reducible apply keeps_ite | dsimp only | split

theorem keeps_elapseDev {base : State} {s : State} {t : Int} (h0 : Keeps base s) :
    Keeps base (State.elapseDev s t) := by
  unfold State.elapseDev
  try dsimp only
  repeat' first
    | with_reducible assumption | with_reducible apply keeps_elapse | with_reducible apply keeps_ite | dsimp only | split

theorem keeps_arm {base : State} {s : State} {k : Nat} {n : Nat} (h0 : Keeps base s) :
    Keeps base (State.arm s k n) := by
  unfold State.arm
  try dsimp only
  repeat' first
    | with_reducible assumption | (simp only [keeps_mk]; first | with_reducible apply Keeps.parts | refine Keeps.parts' ?_ rfl) | dsimp only

theorem keeps_armDev {base : State} {s : State} {k : Nat} {t : Int} (h0 : Keeps base s) :
    Keeps base (State.armDev s k t) := by
  unfold State.armDev
  try dsimp only
  repeat' first
    | with_reducible assumption | with_reducible apply keeps_arm | dsimp only

theorem keeps_disarm {base : State} {s : State} {k : Nat} (h0 : Keeps base s) :
    Keeps base (State.disarm s k) := by
  unfold State.disarm
  try dsimp only
  repeat' first
    | with_reducible assumption | (simp only [keeps_mk]; first | with_reducible apply Keeps.parts | refine Keeps.parts' ?_ rfl) | dsimp only

theorem keeps_fire {base : State} {s : State} {k : Nat} (h0 : Keeps base s) :
    KeepsO base (State.fire s k) := by
  unfold State.fire
  try dsimp only
  repeat' first
    | with_reducible assumption | with_reducible apply keeps_disarm | with_reducible apply keeps_elapseTo | with_reducible apply keepsO_ite
    | with_reducible apply keepsO_some | with_reducible exact keepsO_none
    | (simp only [keeps_mk]; first | with_reducible apply Keeps.parts | refine Keeps.parts' ?_ rfl) | dsimp only | split

theorem keeps_watchPort {base : State} {s : State} {p : Nat} (h0 : Keeps base s) :
    Keeps base (State.watchPort s p) := by
  unfold State.watchPort
  try dsimp only
  repeat' first
    | with_reducible assumption | with_reducible apply keeps_arm | with_reducible apply keeps_failover | with_reducible apply keeps_ite
    | dsimp only | split

theorem keeps_emit {base : State} {s : State} {code : Nat} {index : Nat} {arg : Nat} (h0 : Keeps base s) :
    Keeps base (State.emit s code index arg) := by
  unfold State.emit
  try dsimp only
  repeat' first
    | with_reducible assumption | with_reducible apply keeps_arm | with_reducible apply keeps_bump | with_reducible apply keeps_put
    | with_reducible apply keeps_setPair | with_reducible apply keeps_ite
    | (simp only [keeps_mk]; first | with_reducible apply Keeps.parts | refine Keeps.parts' ?_ rfl) | dsimp only | split

theorem keeps_setDomain {base : State} {s : State} {d : Nat} {v : Nat} (h0 : Keeps base s) :
    Keeps base (State.setDomain s d v) := by
  unfold State.setDomain
  try dsimp only
  repeat' first
    | with_reducible assumption | with_reducible apply keeps_put | dsimp only

theorem keeps_setDomains {base : State} {s : State} {ds : List Nat} {v : Nat} (h0 : Keeps base s) :
    Keeps base (State.setDomains s ds v) := by
  unfold State.setDomains
  try dsimp only
  repeat' first
    | with_reducible assumption | with_reducible apply keeps_setDomain | with_reducible apply keeps_foldl
    | with_reducible apply keeps_foldl_fst | dsimp only | (intro _; intros; try dsimp only)

theorem keeps_degrade {base : State} {s : State} {b : Nat} (h0 : Keeps base s) :
    Keeps base (State.degrade s b) := by
  unfold State.degrade
  try dsimp only
  repeat' first
    | with_reducible assumption | with_reducible apply keeps_emit | with_reducible apply keeps_put | with_reducible apply keeps_ite
    | dsimp only | split

theorem keeps_bumpCounter {base : State} {s : State} {i : Nat} {n : Nat} (h0 : Keeps base s) :
    Keeps base (State.bumpCounter s i n) := by
  unfold State.bumpCounter
  try dsimp only
  repeat' first
    | with_reducible assumption | with_reducible apply keeps_setPair | dsimp only

theorem keeps_refuse {base : State} {s : State} {a : Nat} (h0 : Keeps base s) :
    Keeps base (State.refuse s a) := by
  unfold State.refuse
  try dsimp only
  repeat' first
    | with_reducible assumption | with_reducible apply keeps_bump | with_reducible apply keeps_setWord
    | (simp only [keeps_mk]; first | with_reducible apply Keeps.parts | refine Keeps.parts' ?_ rfl) | dsimp only

theorem keeps_applied {base : State} {s : State} (h0 : Keeps base s) :
    Keeps base (State.applied s) := by
  unfold State.applied
  try dsimp only
  repeat' first
    | with_reducible assumption | (simp only [keeps_mk]; first | with_reducible apply Keeps.parts | refine Keeps.parts' ?_ rfl) | dsimp only

theorem keeps_judged {o : State} {s : State} {r : Option State} (h0 : Keeps o s) (k : KeepsO o r) : Keeps o (State.judged s r).1 := by
  cases r with
  | none => exact h0
  | some t => exact k t rfl

theorem keeps_thenAct {base : State} {r : State × Bool} {c : Bool} {f : State → Option State}  (g0 : Keeps base r.1) (k2 : ∀ t, Keeps base t → KeepsO base (f t)) :
    Keeps base (thenAct r c f).1 := by
  unfold thenAct
  try dsimp only
  repeat' first
    | with_reducible assumption | with_reducible apply k2 | with_reducible apply keeps_ite | with_reducible apply keeps_ite_fst
    | with_reducible apply keepsX_next | with_reducible exact keepsX_fault | with_reducible apply keepsX_ite
    | with_reducible apply keepsO_ite | with_reducible apply keepsO_some | with_reducible exact keepsO_none
    | with_reducible apply keepsP_ite | with_reducible apply keepsP_some | with_reducible exact keepsP_none
    | (simp only [keeps_mk]; first | with_reducible apply Keeps.parts | refine Keeps.parts' ?_ rfl) | (refine KeepsO.use (by assumption) ?_)
    | (refine KeepsP.use (by assumption) ?_) | (refine Keeps.ofPair (by assumption) ?_) | dsimp only | split
    | (intro _; intros; try dsimp only)

theorem keeps_hostDone {base : State} {s : State} {a : Nat} {r : State × Bool} (h0 : Keeps base s) (g0 : Keeps base r.1) :
    Keeps base (State.hostDone s a r) := by
  unfold State.hostDone
  try dsimp only
  repeat' first
    | with_reducible assumption | with_reducible apply keeps_applied | with_reducible apply keeps_refuse | with_reducible apply keeps_ite
    | dsimp only | split

theorem keeps_host {base : State} {s : State} {a : Nat} {r : Option State} (h0 : Keeps base s) (k2 : KeepsO base r) :
    Keeps base (State.host s a r) := by
  unfold State.host
  try dsimp only
  repeat' first
    | with_reducible assumption | with_reducible apply k2 | with_reducible apply keeps_hostDone | with_reducible apply keeps_judged
    | dsimp only

theorem keeps_applyWords {o : State} {f : State → Nat → Word → State × Bool} {s : State} {a : Nat} {ws : List Word}
    (hf : ∀ t b w, Keeps o t → Keeps o (f t b w).1) (h0 : Keeps o s) : Keeps o (applyWords f s a ws).1 := by
  induction ws generalizing s a with
  | nil => exact h0
  | cons w ws ih => exact ih (hf s a w h0)

theorem keeps_wordsDone {base : State} {s : State} {first : Option Nat} (h0 : Keeps base s) :
    Keeps base (State.wordsDone s first) := by
  unfold State.wordsDone
  try dsimp only
  repeat' first
    | with_reducible assumption | with_reducible apply keeps_applied | with_reducible apply keeps_refuse | with_reducible apply keepsO_ite
    | with_reducible apply keepsO_some | with_reducible exact keepsO_none
    | (simp only [keeps_mk]; first | with_reducible apply Keeps.parts | refine Keeps.parts' ?_ rfl) | dsimp only | split

theorem keeps_hostFrame {o : State} {s : State} {a : Nat} {f : State → Nat → Word → Option State} {ws : List Word}
    (hf : ∀ t b w, Keeps o t → KeepsO o (f t b w)) (h0 : Keeps o s) : Keeps o (State.hostFrame s a f ws) := by
  unfold State.hostFrame
  exact keeps_ite (keeps_wordsDone (keeps_applyWords (fun t b w ht => keeps_judged ht (hf t b w ht)) h0)) h0

theorem keeps_allow {base : State} {c : Bool} {s : State} (h0 : Keeps base s) :
    KeepsO base (allow c s) := by
  unfold allow
  try dsimp only
  repeat' first
    | with_reducible assumption | with_reducible apply keeps_ite | with_reducible apply keepsO_ite | with_reducible apply keepsO_some
    | with_reducible exact keepsO_none | dsimp only | split

end Sys2Proof.Laws
end

