-- ==== Sys2Proof/Laws/Keeps/Staging.lean ====
section
/-! SUPPORT. Machine/Staging.lean keeps the queue, the canonical form and one actuation per valve. -/

namespace Sys2Proof.Laws

open Sys2Proof.Machine Sys2Proof.Safety

theorem keeps_outageOver {base : State} {s : State} (h0 : Keeps base s) :
    Keeps base (State.outageOver s) := by
  unfold State.outageOver
  try dsimp only
  repeat' first
    | with_reducible assumption | with_reducible apply keeps_ite
    | (simp only [keeps_mk]; first | with_reducible apply Keeps.parts | refine Keeps.parts' ?_ rfl) | dsimp only | split

theorem keeps_freeSlots {base : State} {s : State} (h0 : Keeps base s) :
    Keeps base (State.freeSlots s) := by
  unfold State.freeSlots
  try dsimp only
  repeat' first
    | with_reducible assumption | with_reducible apply keeps_bump | with_reducible apply keeps_emit | with_reducible apply keeps_ite
    | (simp only [keeps_mk]; first | with_reducible apply Keeps.parts | with_reducible apply Keeps.partsKeep | with_reducible apply Keeps.partsFallow | refine Keeps.parts' ?_ rfl)
    | dsimp only | split | (intro _; intros; try dsimp only)

end Sys2Proof.Laws
end

