-- ==== Sys2Proof/Laws/Keeps/Archive.lean ====
section
/-! SUPPORT. Machine/Archive.lean keeps the queue, the canonical form and one actuation per valve. -/

namespace Sys2Proof.Laws

open Sys2Proof.Machine Sys2Proof.Safety

theorem keeps_layoutUpdate {base : State} {s : State} (h0 : Keeps base s) :
    Keeps base (State.layoutUpdate s) := by
  unfold State.layoutUpdate
  try dsimp only
  repeat' first
    | with_reducible assumption | with_reducible apply keeps_putFlag | dsimp only

theorem keeps_channelDone {base : State} {s : State} {n : Nat} {units : Nat} (h0 : Keeps base s) :
    Keeps base (State.channelDone s n units) := by
  unfold State.channelDone
  try dsimp only
  repeat' first
    | with_reducible assumption | with_reducible apply keeps_emit | with_reducible apply keeps_put | with_reducible apply keeps_ite
    | dsimp only | split

theorem keeps_sendAll {base : State} {s : State} {cmds : List NvmeCmd} (h0 : Keeps base s) :
    Keeps base (State.sendAll s cmds) := by
  unfold State.sendAll
  try dsimp only
  repeat' first
    | with_reducible assumption | (simp only [keeps_mk]; first | with_reducible apply Keeps.parts | refine Keeps.parts' ?_ rfl) | dsimp only

theorem keeps_issue {base : State} {s : State} (h0 : Keeps base s) :
    Keeps base (State.issue s) := by
  unfold State.issue
  try dsimp only
  repeat' first
    | with_reducible assumption | with_reducible apply keeps_arm | with_reducible apply keeps_disarm | with_reducible apply keeps_ite
    | with_reducible apply keepsO_ite | with_reducible apply keepsO_some | with_reducible exact keepsO_none
    | (simp only [keeps_mk]; first | with_reducible apply Keeps.parts | refine Keeps.parts' ?_ rfl) | dsimp only | split
    | (intro _; intros; try dsimp only)

theorem keeps_queueWrite {base : State} {s : State} {w : DriveWrite} (h0 : Keeps base s) :
    Keeps base (State.queueWrite s w) := by
  unfold State.queueWrite
  try dsimp only
  repeat' first
    | with_reducible assumption | with_reducible apply keeps_issue
    | (simp only [keeps_mk]; first | with_reducible apply Keeps.parts | refine Keeps.parts' ?_ rfl) | dsimp only

theorem keeps_writeBlock {base : State} {s : State} (h0 : Keeps base s) :
    Keeps base (State.writeBlock s) := by
  unfold State.writeBlock
  try dsimp only
  repeat' first
    | with_reducible assumption | with_reducible apply keeps_queueWrite | with_reducible apply keeps_ite
    | (simp only [keeps_mk]; first | with_reducible apply Keeps.parts | refine Keeps.parts' ?_ rfl) | with_reducible apply keeps_foldl
    | with_reducible apply keeps_foldl_fst | dsimp only | split | (intro _; intros; try dsimp only)

theorem keeps_execRecFlushTimeout {base : State} {s : State} (h0 : Keeps base s) :
    KeepsX base (execRecFlushTimeout s) := by
  unfold execRecFlushTimeout
  try dsimp only
  repeat' first
    | with_reducible assumption | with_reducible apply keeps_fire | with_reducible apply keeps_writeBlock | with_reducible apply keeps_ite
    | with_reducible apply keepsX_next | with_reducible exact keepsX_fault | with_reducible apply keepsX_ite
    | with_reducible apply keepsO_ite | with_reducible apply keepsO_some | with_reducible exact keepsO_none
    | (simp only [keeps_mk]; first | with_reducible apply Keeps.parts | refine Keeps.parts' ?_ rfl) | (refine KeepsO.use (by assumption) ?_)
    | dsimp only | split | (intro _; intros; try dsimp only)

theorem keeps_dropWrites {base : State} {s : State} (h0 : Keeps base s) :
    Keeps base (State.dropWrites s) := by
  unfold State.dropWrites
  try dsimp only
  repeat' first
    | with_reducible assumption | with_reducible apply keeps_ite
    | (simp only [keeps_mk]; first | with_reducible apply Keeps.parts | refine Keeps.parts' ?_ rfl) | dsimp only | split
    | (intro _; intros; try dsimp only)

theorem keeps_archiving {base : State} {s : State} {b : Bool} (h0 : Keeps base s) :
    Keeps base (State.archiving s b) := by
  unfold State.archiving
  try dsimp only
  repeat' first
    | with_reducible assumption | with_reducible apply keeps_putFlag | dsimp only

theorem keeps_archiveUpdate {base : State} {s : State} (h0 : Keeps base s) :
    Keeps base (State.archiveUpdate s) := by
  unfold State.archiveUpdate
  try dsimp only
  repeat' first
    | with_reducible assumption | with_reducible apply keeps_archiving | with_reducible apply keeps_issue | dsimp only

theorem keeps_dropQueues {base : State} {s : State} (h0 : Keeps base s) :
    Keeps base (State.dropQueues s) := by
  unfold State.dropQueues
  try dsimp only
  repeat' first
    | with_reducible assumption | with_reducible apply keeps_ite
    | (simp only [keeps_mk]; first | with_reducible apply Keeps.parts | refine Keeps.parts' ?_ rfl) | dsimp only | split

theorem keeps_bringUp {base : State} {s : State} (h0 : Keeps base s) :
    Keeps base (State.bringUp s) := by
  unfold State.bringUp
  try dsimp only
  repeat' first
    | with_reducible assumption | with_reducible apply keeps_archiveUpdate | with_reducible apply keeps_disarm
    | with_reducible apply keeps_dropQueues | with_reducible apply keeps_put | with_reducible apply keeps_setDomain
    | (simp only [keeps_mk]; first | with_reducible apply Keeps.parts | refine Keeps.parts' ?_ rfl) | dsimp only

theorem keeps_driveDown {base : State} {s : State} (h0 : Keeps base s) :
    Keeps base (State.driveDown s) := by
  unfold State.driveDown
  try dsimp only
  repeat' first
    | with_reducible assumption | with_reducible apply keeps_archiveUpdate | with_reducible apply keeps_disarm
    | with_reducible apply keeps_dropQueues | with_reducible apply keeps_put
    | (simp only [keeps_mk]; first | with_reducible apply Keeps.parts | refine Keeps.parts' ?_ rfl) | dsimp only

theorem keeps_driveAgain {base : State} {s : State} (h0 : Keeps base s) :
    Keeps base (State.driveAgain s) := by
  unfold State.driveAgain
  try dsimp only
  repeat' first
    | with_reducible assumption | with_reducible apply keeps_arm | with_reducible apply keeps_setDomain | with_reducible apply keeps_ite
    | (simp only [keeps_mk]; first | with_reducible apply Keeps.parts | refine Keeps.parts' ?_ rfl) | dsimp only | split

theorem keeps_driveFail {base : State} {s : State} {cause : Nat} (h0 : Keeps base s) :
    Keeps base (State.driveFail s cause) := by
  unfold State.driveFail
  try dsimp only
  repeat' first
    | with_reducible assumption | with_reducible apply keeps_driveAgain | with_reducible apply keeps_driveDown
    | with_reducible apply keeps_dropWrites | with_reducible apply keeps_emit | with_reducible apply keeps_freeSlots
    | with_reducible apply keeps_ite | dsimp only | split

theorem keeps_execNvmeTimeout {base : State} {s : State} (h0 : Keeps base s) :
    KeepsX base (execNvmeTimeout s) := by
  unfold execNvmeTimeout
  try dsimp only
  repeat' first
    | with_reducible assumption | with_reducible apply keeps_driveFail | with_reducible apply keeps_elapseTo
    | with_reducible apply keepsX_next | with_reducible exact keepsX_fault | with_reducible apply keepsX_ite
    | with_reducible apply keepsO_ite | with_reducible apply keepsO_some | with_reducible exact keepsO_none
    | (simp only [keeps_mk]; first | with_reducible apply Keeps.parts | refine Keeps.parts' ?_ rfl) | dsimp only | split

theorem keeps_execPcieLinkLoss {base : State} {s : State} (h0 : Keeps base s) :
    KeepsX base (execPcieLinkLoss s) := by
  unfold execPcieLinkLoss
  try dsimp only
  repeat' first
    | with_reducible assumption | with_reducible apply keeps_driveFail | with_reducible apply keeps_put | with_reducible apply keepsX_next
    | with_reducible exact keepsX_fault | with_reducible apply keepsX_ite | dsimp only

theorem keeps_execControllerFatal {base : State} {s : State} (h0 : Keeps base s) :
    KeepsX base (execControllerFatal s) := by
  unfold execControllerFatal
  try dsimp only
  repeat' first
    | with_reducible assumption | with_reducible apply keeps_driveFail | with_reducible apply keepsX_next
    | with_reducible exact keepsX_fault | with_reducible apply keepsX_ite | dsimp only

theorem keeps_execCapToExpiry {base : State} {s : State} (h0 : Keeps base s) :
    KeepsX base (execCapToExpiry s) := by
  unfold execCapToExpiry
  try dsimp only
  repeat' first
    | with_reducible assumption | with_reducible apply keeps_driveFail | with_reducible apply keeps_fire | with_reducible apply keepsX_next
    | with_reducible exact keepsX_fault | with_reducible apply keepsX_ite | with_reducible apply keepsO_ite
    | with_reducible apply keepsO_some | with_reducible exact keepsO_none
    | (simp only [keeps_mk]; first | with_reducible apply Keeps.parts | refine Keeps.parts' ?_ rfl) | (refine KeepsO.use (by assumption) ?_)
    | dsimp only | split | (intro _; intros; try dsimp only)

theorem keeps_execDriveRetry {base : State} {s : State} (h0 : Keeps base s) :
    KeepsX base (execDriveRetry s) := by
  unfold execDriveRetry
  try dsimp only
  repeat' first
    | with_reducible assumption | with_reducible apply keeps_bringUp | with_reducible apply keeps_fire | with_reducible apply keepsX_next
    | with_reducible exact keepsX_fault | with_reducible apply keepsX_ite | with_reducible apply keepsO_ite
    | with_reducible apply keepsO_some | with_reducible exact keepsO_none
    | (simp only [keeps_mk]; first | with_reducible apply Keeps.parts | refine Keeps.parts' ?_ rfl) | (refine KeepsO.use (by assumption) ?_)
    | dsimp only | split | (intro _; intros; try dsimp only)

theorem keeps_hostRestart {base : State} {s : State} (h0 : Keeps base s) :
    Keeps base (State.hostRestart s) := by
  unfold State.hostRestart
  try dsimp only
  repeat' first
    | with_reducible assumption | with_reducible apply keeps_bringUp
    | (simp only [keeps_mk]; first | with_reducible apply Keeps.parts | refine Keeps.parts' ?_ rfl) | dsimp only

theorem keeps_execNvhRestart {base : State} {s : State} (h0 : Keeps base s) :
    KeepsX base (execNvhRestart s) := by
  unfold execNvhRestart
  try dsimp only
  repeat' first
    | with_reducible assumption | with_reducible apply keeps_host | with_reducible apply keeps_hostRestart
    | with_reducible apply keepsX_next | with_reducible exact keepsX_fault | with_reducible apply keepsX_ite
    | with_reducible apply keepsO_ite | with_reducible apply keepsO_some | with_reducible exact keepsO_none | dsimp only

theorem keeps_linkUp {base : State} {s : State} {gen : Nat} {width : Nat} {e : Endpoint} (h0 : Keeps base s) :
    Keeps base (State.linkUp s gen width e) := by
  unfold State.linkUp
  try dsimp only
  repeat' first
    | with_reducible assumption | with_reducible apply keeps_arm | with_reducible apply keeps_put
    | (simp only [keeps_mk]; first | with_reducible apply Keeps.parts | refine Keeps.parts' ?_ rfl) | dsimp only

theorem keeps_execPcieLinkUp {base : State} {gen : Nat} {width : Nat} {e : Endpoint} {s : State} (h0 : Keeps base s) :
    KeepsX base (execPcieLinkUp gen width e s) := by
  unfold execPcieLinkUp
  try dsimp only
  repeat' first
    | with_reducible assumption | with_reducible apply keeps_linkUp | with_reducible apply keeps_ite | with_reducible apply keepsX_next
    | with_reducible exact keepsX_fault | with_reducible apply keepsX_ite | dsimp only | split

theorem keeps_execControllerReady {base : State} {s : State} (h0 : Keeps base s) :
    KeepsX base (execControllerReady s) := by
  unfold execControllerReady
  try dsimp only
  repeat' first
    | with_reducible assumption | with_reducible apply keeps_disarm | with_reducible apply keeps_sendAll | with_reducible apply keeps_ite
    | with_reducible apply keepsX_next | with_reducible exact keepsX_fault | with_reducible apply keepsX_ite
    | (simp only [keeps_mk]; first | with_reducible apply Keeps.parts | refine Keeps.parts' ?_ rfl) | dsimp only | split

theorem keeps_driveReady {base : State} {s : State} (h0 : Keeps base s) :
    Keeps base (State.driveReady s) := by
  unfold State.driveReady
  try dsimp only
  repeat' first
    | with_reducible assumption | with_reducible apply keeps_archiveUpdate | with_reducible apply keeps_arm
    | with_reducible apply keeps_outageOver | with_reducible apply keeps_put
    | (simp only [keeps_mk]; first | with_reducible apply Keeps.parts | refine Keeps.parts' ?_ rfl) | dsimp only

theorem keeps_goodLabel {base : State} {s : State} (h0 : Keeps base s) :
    Keeps base (State.goodLabel s) := by
  unfold State.goodLabel
  try dsimp only
  repeat' first
    | with_reducible assumption | with_reducible apply keeps_put
    | (simp only [keeps_mk]; first | with_reducible apply Keeps.parts | refine Keeps.parts' ?_ rfl) | dsimp only

theorem keeps_labelCheck {base : State} {s : State} {b : List Byte} (h0 : Keeps base s) :
    Keeps base (State.labelCheck s b) := by
  unfold State.labelCheck
  try dsimp only
  repeat' first
    | with_reducible assumption | with_reducible apply keeps_driveReady | with_reducible apply keeps_goodLabel
    | with_reducible apply keeps_layoutUpdate | with_reducible apply keeps_put | with_reducible apply keeps_sendAll
    | with_reducible apply keeps_ite | (simp only [keeps_mk]; first | with_reducible apply Keeps.parts | refine Keeps.parts' ?_ rfl)
    | dsimp only | split

theorem keeps_dataMoved {base : State} {s : State} {ch : Nat} {words : Nat} (h0 : Keeps base s) :
    Keeps base (State.dataMoved s ch words) := by
  unfold State.dataMoved
  try dsimp only
  repeat' first
    | with_reducible assumption | with_reducible apply keeps_put | dsimp only

theorem keeps_commitRecords {base : State} {s : State} {w : DriveWrite} (h0 : Keeps base s) :
    Keeps base (State.commitRecords s w) := by
  unfold State.commitRecords
  try dsimp only
  repeat' first
    | with_reducible assumption | with_reducible apply keeps_freeSlots | with_reducible apply keeps_setPair | with_reducible apply keeps_ite
    | (simp only [keeps_mk]; first | with_reducible apply Keeps.parts | refine Keeps.parts' ?_ rfl) | dsimp only | split

theorem keeps_writeDone {base : State} {s : State} {w : DriveWrite} (h0 : Keeps base s) :
    Keeps base (State.writeDone s w) := by
  unfold State.writeDone
  try dsimp only
  repeat' first
    | with_reducible assumption | with_reducible apply keeps_channelDone | with_reducible apply keeps_commitRecords
    | with_reducible apply keeps_dataMoved | with_reducible apply keeps_ite
    | (simp only [keeps_mk]; first | with_reducible apply Keeps.parts | refine Keeps.parts' ?_ rfl) | dsimp only | split

theorem keeps_writeEvents {base : State} {s : State} {bytes : List Byte} (h0 : Keeps base s) :
    Keeps base (State.writeEvents s bytes) := by
  unfold State.writeEvents
  try dsimp only
  repeat' first
    | with_reducible assumption | with_reducible apply keeps_channelDone | with_reducible apply keeps_dataMoved
    | with_reducible apply keeps_ite | (simp only [keeps_mk]; first | with_reducible apply Keeps.parts | refine Keeps.parts' ?_ rfl)
    | dsimp only | split

theorem keeps_clearNvhCounters {base : State} {s : State} (h0 : Keeps base s) :
    Keeps base (State.clearNvhCounters s) := by
  unfold State.clearNvhCounters
  try dsimp only
  repeat' first
    | with_reducible assumption | with_reducible apply keeps_setWord | dsimp only

theorem keeps_execNvhClrCounters {base : State} {s : State} (h0 : Keeps base s) :
    KeepsX base (execNvhClrCounters s) := by
  unfold execNvhClrCounters
  try dsimp only
  repeat' first
    | with_reducible assumption | with_reducible apply keeps_clearNvhCounters | with_reducible apply keeps_host
    | with_reducible apply keepsX_next | with_reducible exact keepsX_fault | with_reducible apply keepsX_ite
    | with_reducible apply keepsO_ite | with_reducible apply keepsO_some | with_reducible exact keepsO_none | dsimp only

theorem keeps_hostFormat {base : State} {s : State} (h0 : Keeps base s) :
    KeepsO base (State.hostFormat s) := by
  unfold State.hostFormat
  try dsimp only
  repeat' first
    | with_reducible assumption | with_reducible apply keeps_archiveUpdate | with_reducible apply keeps_goodLabel
    | with_reducible apply keeps_layoutUpdate | with_reducible apply keeps_ite | with_reducible apply keepsO_ite
    | with_reducible apply keepsO_some | with_reducible exact keepsO_none
    | (simp only [keeps_mk]; first | with_reducible apply Keeps.parts | refine Keeps.parts' ?_ rfl) | dsimp only | split

theorem keeps_execNvhFormat {base : State} {s : State} (h0 : Keeps base s) :
    KeepsX base (execNvhFormat s) := by
  unfold execNvhFormat
  try dsimp only
  repeat' first
    | with_reducible assumption | with_reducible apply keeps_host | with_reducible apply keeps_hostFormat | with_reducible apply keepsX_next
    | with_reducible exact keepsX_fault | with_reducible apply keepsX_ite | dsimp only | (intro _; intros; try dsimp only)

theorem keeps_execSmartPoll {base : State} {warning : Nat} {used : Nat} {kelvin : Nat} {s : State} (h0 : Keeps base s) :
    KeepsX base (execSmartPoll warning used kelvin s) := by
  unfold execSmartPoll
  try dsimp only
  repeat' first
    | with_reducible assumption | with_reducible apply keeps_arm | with_reducible apply keeps_emit | with_reducible apply keeps_fire
    | with_reducible apply keeps_put | with_reducible apply keeps_ite | with_reducible apply keepsX_next | with_reducible exact keepsX_fault
    | with_reducible apply keepsX_ite | with_reducible apply keepsO_ite | with_reducible apply keepsO_some
    | with_reducible exact keepsO_none | (simp only [keeps_mk]; first | with_reducible apply Keeps.parts | refine Keeps.parts' ?_ rfl)
    | (refine KeepsO.use (by assumption) ?_) | dsimp only | split | (intro _; intros; try dsimp only)

end Sys2Proof.Laws
end

