-- ==== Sys2Proof/Laws/Keeps/Keep.lean ====
section
/-! SUPPORT. Machine/Keep.lean keeps the queue, the canonical form and one actuation per valve. -/

namespace Sys2Proof.Laws

open Sys2Proof.Machine Sys2Proof.Safety

theorem keeps_beginStore {base : State} {s : State} {st : Store} (h0 : Keeps base s) :
    Keeps base (State.beginStore s st) := by
  unfold State.beginStore
  try dsimp only
  repeat' first
    | with_reducible assumption | with_reducible apply keeps_put | with_reducible apply keeps_ite | with_reducible apply keepsO_ite
    | with_reducible apply keepsO_some | with_reducible exact keepsO_none
    | (simp only [keeps_mk]; first | with_reducible apply Keeps.parts | refine Keeps.parts' ?_ rfl) | dsimp only | split

theorem keeps_startStore {base : State} {s : State} {st : Store} (h0 : Keeps base s) :
    Keeps base (State.startStore s st) := by
  unfold State.startStore
  try dsimp only
  repeat' first
    | with_reducible assumption | with_reducible apply keeps_beginStore | with_reducible apply keepsO_ite | with_reducible apply keepsO_some
    | with_reducible exact keepsO_none | (simp only [keeps_mk]; first | with_reducible apply Keeps.parts | refine Keeps.parts' ?_ rfl)
    | dsimp only | split

theorem keeps_markCheck {base : State} {s : State} (h0 : Keeps base s) :
    Keeps base (State.markCheck s) := by
  unfold State.markCheck
  try dsimp only
  repeat' first
    | with_reducible assumption | with_reducible apply keeps_startStore | with_reducible apply keeps_ite | dsimp only | split

theorem keeps_markWait {base : State} {s : State} (h0 : Keeps base s) :
    Keeps base (State.markWait s) := by
  unfold State.markWait
  try dsimp only
  repeat' first
    | with_reducible assumption | with_reducible apply keeps_putFlag | dsimp only

theorem keeps_commitStore {base : State} {s : State} (h0 : Keeps base s) :
    Keeps base (State.commitStore s) := by
  unfold State.commitStore
  try dsimp only
  repeat' first
    | with_reducible assumption | with_reducible apply keeps_host | with_reducible apply keeps_markCheck
    | with_reducible apply keeps_markWait | with_reducible apply keeps_put | with_reducible apply keeps_setPair
    | with_reducible apply keeps_ite | with_reducible apply keepsO_ite | with_reducible apply keepsO_some | with_reducible exact keepsO_none
    | (simp only [keeps_mk]; first | with_reducible apply Keeps.parts | with_reducible apply Keeps.partsPages | with_reducible apply Keeps.partsShadow | with_reducible apply Keeps.partsBoth | refine Keeps.parts' ?_ rfl)
    | dsimp only | split

theorem keeps_execStoreCommit {base : State} {s : State} (h0 : Keeps base s) :
    KeepsX base (execStoreCommit s) := by
  unfold execStoreCommit
  try dsimp only
  repeat' first
    | with_reducible assumption | with_reducible apply keeps_commitStore | with_reducible apply keeps_ite | with_reducible apply keepsX_next
    | with_reducible exact keepsX_fault | with_reducible apply keepsX_ite | dsimp only | split

theorem keeps_completeStore {base : State} {s : State} (h0 : Keeps base s) :
    Keeps base (State.completeStore s) := by
  unfold State.completeStore
  try dsimp only
  repeat' first
    | with_reducible assumption | with_reducible apply keeps_beginStore | with_reducible apply keeps_bump | with_reducible apply keeps_put
    | with_reducible apply keeps_ite | with_reducible apply keepsO_ite | with_reducible apply keepsO_some | with_reducible exact keepsO_none
    | (simp only [keeps_mk]; first | with_reducible apply Keeps.parts | with_reducible apply Keeps.partsPages | with_reducible apply Keeps.partsShadow | with_reducible apply Keeps.partsBoth | refine Keeps.parts' ?_ rfl)
    | dsimp only | split

theorem keeps_finishStores {o : State} {s : State} {n : Nat} (h0 : Keeps o s) : Keeps o (State.finishStores s n) := by
  induction n generalizing s with
  | zero => exact h0
  | succ n ih => exact ih (keeps_completeStore (keeps_commitStore h0))

theorem keeps_storesOver {base : State} {s : State} (h0 : Keeps base s) :
    Keeps base (State.storesOver s) := by
  unfold State.storesOver
  try dsimp only
  repeat' first
    | with_reducible assumption | with_reducible apply keeps_finishStores | with_reducible apply keeps_ite | dsimp only | split

theorem keeps_execStoreComplete {base : State} {s : State} (h0 : Keeps base s) :
    KeepsX base (execStoreComplete s) := by
  unfold execStoreComplete
  try dsimp only
  repeat' first
    | with_reducible assumption | with_reducible apply keeps_completeStore | with_reducible apply keeps_ite
    | with_reducible apply keepsX_next | with_reducible exact keepsX_fault | with_reducible apply keepsX_ite | dsimp only | split

theorem keeps_storeCounters {base : State} {s : State} (h0 : Keeps base s) :
    Keeps base (State.storeCounters s) := by
  unfold State.storeCounters
  try dsimp only
  repeat' first
    | with_reducible assumption | with_reducible apply keeps_startStore | dsimp only

theorem keeps_execCountPeriodStore {base : State} {s : State} (h0 : Keeps base s) :
    KeepsX base (execCountPeriodStore s) := by
  unfold execCountPeriodStore
  try dsimp only
  repeat' first
    | with_reducible assumption | with_reducible apply keeps_arm | with_reducible apply keeps_fire
    | with_reducible apply keeps_storeCounters | with_reducible apply keepsX_next | with_reducible exact keepsX_fault
    | with_reducible apply keepsX_ite | with_reducible apply keepsO_ite | with_reducible apply keepsO_some
    | with_reducible exact keepsO_none | (simp only [keeps_mk]; first | with_reducible apply Keeps.parts | refine Keeps.parts' ?_ rfl)
    | (refine KeepsO.use (by assumption) ?_) | dsimp only | split | (intro _; intros; try dsimp only)

theorem keeps_hostStore {base : State} {s : State} (h0 : Keeps base s) :
    KeepsO base (State.hostStore s) := by
  unfold State.hostStore
  try dsimp only
  repeat' first
    | with_reducible assumption | with_reducible apply keeps_allow | with_reducible apply keeps_storeCounters
    | with_reducible apply keepsO_ite | with_reducible apply keepsO_some | with_reducible exact keepsO_none
    | (simp only [keeps_mk]; first | with_reducible apply Keeps.parts | refine Keeps.parts' ?_ rfl) | (refine KeepsO.use (by assumption) ?_)
    | dsimp only | split | (intro _; intros; try dsimp only)

theorem keeps_execKeepStore {base : State} {s : State} (h0 : Keeps base s) :
    KeepsX base (execKeepStore s) := by
  unfold execKeepStore
  try dsimp only
  repeat' first
    | with_reducible assumption | with_reducible apply keeps_host | with_reducible apply keeps_hostStore | with_reducible apply keepsX_next
    | with_reducible exact keepsX_fault | with_reducible apply keepsX_ite | dsimp only | (intro _; intros; try dsimp only)

theorem keeps_hostIncrement {base : State} {s : State} {i : Nat} (h0 : Keeps base s) :
    KeepsO base (State.hostIncrement s i) := by
  unfold State.hostIncrement
  try dsimp only
  repeat' first
    | with_reducible assumption | with_reducible apply keeps_allow | with_reducible apply keeps_bumpCounter
    | with_reducible apply keepsO_ite | with_reducible apply keepsO_some | with_reducible exact keepsO_none | dsimp only
    | (intro _; intros; try dsimp only)

theorem keeps_execCounterIncrement {base : State} {i : Nat} {s : State} (h0 : Keeps base s) :
    KeepsX base (execCounterIncrement i s) := by
  unfold execCounterIncrement
  try dsimp only
  repeat' first
    | with_reducible assumption | with_reducible apply keeps_host | with_reducible apply keeps_hostIncrement
    | with_reducible apply keepsX_next | with_reducible exact keepsX_fault | with_reducible apply keepsX_ite | dsimp only
    | (intro _; intros; try dsimp only)

theorem keeps_hostClear {base : State} {s : State} {i : Nat} (h0 : Keeps base s) :
    KeepsO base (State.hostClear s i) := by
  unfold State.hostClear
  try dsimp only
  repeat' first
    | with_reducible assumption | with_reducible apply keeps_allow | with_reducible apply keeps_setPair | with_reducible apply keepsO_ite
    | with_reducible apply keepsO_some | with_reducible exact keepsO_none | dsimp only | (intro _; intros; try dsimp only)

theorem keeps_execCounterClear {base : State} {i : Nat} {s : State} (h0 : Keeps base s) :
    KeepsX base (execCounterClear i s) := by
  unfold execCounterClear
  try dsimp only
  repeat' first
    | with_reducible assumption | with_reducible apply keeps_host | with_reducible apply keeps_hostClear | with_reducible apply keepsX_next
    | with_reducible exact keepsX_fault | with_reducible apply keepsX_ite | dsimp only | (intro _; intros; try dsimp only)

theorem keeps_clearKeepErrors {base : State} {s : State} (h0 : Keeps base s) :
    Keeps base (State.clearKeepErrors s) := by
  unfold State.clearKeepErrors
  try dsimp only
  repeat' first
    | with_reducible assumption | with_reducible apply keeps_put | with_reducible apply keeps_setWord | dsimp only

theorem keeps_execKepClrErrors {base : State} {s : State} (h0 : Keeps base s) :
    KeepsX base (execKepClrErrors s) := by
  unfold execKepClrErrors
  try dsimp only
  repeat' first
    | with_reducible assumption | with_reducible apply keeps_clearKeepErrors | with_reducible apply keeps_host
    | with_reducible apply keepsX_next | with_reducible exact keepsX_fault | with_reducible apply keepsX_ite
    | with_reducible apply keepsO_ite | with_reducible apply keepsO_some | with_reducible exact keepsO_none | dsimp only

theorem keeps_execOperationMinute {base : State} {s : State} (h0 : Keeps base s) :
    KeepsX base (execOperationMinute s) := by
  unfold execOperationMinute
  try dsimp only
  repeat' first
    | with_reducible assumption | with_reducible apply keeps_arm | with_reducible apply keeps_bumpCounter | with_reducible apply keeps_fire
    | with_reducible apply keepsX_next | with_reducible exact keepsX_fault | with_reducible apply keepsX_ite
    | with_reducible apply keepsO_ite | with_reducible apply keepsO_some | with_reducible exact keepsO_none
    | (simp only [keeps_mk]; first | with_reducible apply Keeps.parts | refine Keeps.parts' ?_ rfl) | (refine KeepsO.use (by assumption) ?_)
    | dsimp only | split | (intro _; intros; try dsimp only)

theorem keeps_storePage {base : State} {s : State} {addr : Nat} {words : List Word} (h0 : Keeps base s) :
    Keeps base (State.storePage s addr words) := by
  unfold State.storePage
  try dsimp only
  repeat' first
    | with_reducible assumption | with_reducible apply keeps_host | with_reducible apply keeps_startStore | dsimp only

theorem keeps_hostPageWrite {base : State} {s : State} {addr : Nat} {words : List Word} (h0 : Keeps base s) :
    KeepsO base (State.hostPageWrite s addr words) := by
  unfold State.hostPageWrite
  try dsimp only
  repeat' first
    | with_reducible assumption | with_reducible apply keeps_allow | with_reducible apply keeps_storePage | with_reducible apply keepsO_ite
    | with_reducible apply keepsO_some | with_reducible exact keepsO_none | dsimp only | (intro _; intros; try dsimp only)

theorem keeps_execKeepPageWrite {base : State} {addr : Nat} {words : List Word} {s : State} (h0 : Keeps base s) :
    KeepsX base (execKeepPageWrite addr words s) := by
  unfold execKeepPageWrite
  try dsimp only
  repeat' first
    | with_reducible assumption | with_reducible apply keeps_host | with_reducible apply keeps_hostPageWrite
    | with_reducible apply keeps_storesOver | with_reducible apply keeps_ite | with_reducible apply keepsX_next
    | with_reducible exact keepsX_fault | with_reducible apply keepsX_ite | dsimp only | split | (intro _; intros; try dsimp only)

theorem keeps_keepUncorr {base : State} {s : State} {w : Nat} (h0 : Keeps base s) :
    Keeps base (State.keepUncorr s w) := by
  unfold State.keepUncorr
  try dsimp only
  repeat' first
    | with_reducible assumption | with_reducible apply keeps_bump | with_reducible apply keeps_put | dsimp only

theorem keeps_recallCounters {base : State} {s : State} {body : List Byte} (h0 : Keeps base s) :
    Keeps base (State.recallCounters s body) := by
  unfold State.recallCounters
  try dsimp only
  repeat' first
    | with_reducible assumption | with_reducible apply keeps_setPair | with_reducible apply keeps_foldl
    | with_reducible apply keeps_foldl_fst | dsimp only | (intro _; intros; try dsimp only)

theorem recallCounters_keep {s : State} {b : List Byte} : (State.recallCounters s b).keep = s.keep := by
  unfold State.recallCounters
  have h : ∀ (l : List Nat) (t : State), (l.foldl (fun t i => t.setPair (Reg.KEP_CNT_LO i) (leNat ((b.drop (6 * i)).take 6))) t).keep = t.keep := by
    intro l
    induction l with
    | nil => intro t; rfl
    | cons i l ih => intro t; exact ih _
  exact h _ _

theorem keeps_recover {o : State} {s : State} {old : KeepState} {k : KeepFacts} (hw : Canonical o → Memory.wf old.shadow = true)
    (h0 : Keeps o s) : Keeps o (State.recover s old k).1 := by
  unfold State.recover
  extract_lets journal shadow work kr s1 s2 s3 sk s4 mark r next sm rm page sk5 s5 s6 s7 s8 s9 s10 sg s11 s12
  have hs : Canonical o → Memory.wf shadow = true := by
    intro c
    simp only [shadow]
    split
    · split
      · exact wf_putPages (hw c)
      · exact hw c
    · exact hw c
  have h1 : Keeps o s1 := by
    simp only [s1, keeps_mk]
    exact ⟨h0.queue, fun c => ⟨wf_dropWords (hs c), hs c, (h0.form c).2.2⟩, h0.acts⟩
  have h2 : Keeps o s2 := keeps_foldl (fun t x ht => keeps_keepUncorr ht) h1
  have h3 : Keeps o s3 := by
    simp only [s3]
    exact keeps_put (keeps_bump h2)
  have h4 : Keeps o s4 := by
    simp only [s4]
    split
    · simp only [keeps_mk]
      refine Keeps.parts' (keeps_put (keeps_recallCounters h3)) ?_
      have e : ∀ (t : State) f v, (t.put f v).keep = t.keep := fun _ _ _ => rfl
      simp only [sk, e, recallCounters_keep]
    · exact keeps_put h3
  have h5 : Keeps o s5 := by
    simp only [s5, keeps_mk]
    exact Keeps.partsBoth h4
  have h6 : Keeps o s6 := by
    simp only [s6]
    exact keeps_bump (keeps_setPair (keeps_setPair (keeps_setPair h5)))
  have h7 : Keeps o s7 := by
    simp only [s7]
    exact keeps_putSat (keeps_put h6)
  have h8 : Keeps o s8 := by
    simp only [s8]
    exact keeps_bumpCounter (keeps_setPair h7)
  have h9 : Keeps o s9 := by
    simp only [s9]
    exact keeps_ite (keeps_bumpCounter h8) h8
  have h10 : Keeps o s10 := by
    simp only [s10]
    exact keeps_ite h9 (keeps_bumpCounter h9)
  have h11 : Keeps o s11 := by
    simp only [s11, keeps_mk]
    exact Keeps.parts h10
  exact keeps_ite (keeps_emit (keeps_put h11)) h11

end Sys2Proof.Laws
end

