-- ==== Sys2Proof/Laws/Keeps/Power.lean ====
section
/-! SUPPORT. Machine/Power.lean keeps the queue, the canonical form and one actuation per valve. -/

namespace Sys2Proof.Laws

open Sys2Proof.Machine Sys2Proof.Safety

theorem keeps_fslowUpdate {base : State} {s : State} (h0 : Keeps base s) :
    Keeps base (State.fslowUpdate s) := by
  unfold State.fslowUpdate
  try dsimp only
  repeat' first
    | with_reducible assumption | with_reducible apply keeps_putFlag | dsimp only

theorem keeps_measureLanes {base : State} {s : State} {rates : List Nat} (h0 : Keeps base s) :
    Keeps base (State.measureLanes s rates) := by
  unfold State.measureLanes
  try dsimp only
  repeat' first
    | with_reducible assumption | with_reducible apply keeps_putS | with_reducible apply keeps_putSat | with_reducible apply keeps_ite
    | with_reducible apply keeps_foldl | with_reducible apply keeps_foldl_fst | dsimp only | split | (intro _; intros; try dsimp only)

theorem keeps_measureEngines {base : State} {s : State} {rates : List Nat} (h0 : Keeps base s) :
    Keeps base (State.measureEngines s rates) := by
  unfold State.measureEngines
  try dsimp only
  repeat' first
    | with_reducible assumption | with_reducible apply keeps_putSat | with_reducible apply keeps_ite | with_reducible apply keeps_foldl
    | with_reducible apply keeps_foldl_fst | dsimp only | split | (intro _; intros; try dsimp only)

theorem keeps_vcoreStep {base : State} {s : State} {lanes : List Nat} {walk : Int} {engines : List Nat} (h0 : Keeps base s) :
    Keeps base (State.vcoreStep s lanes walk engines) := by
  unfold State.vcoreStep
  extract_lets l0 l1 l2 l3 l4 l5 l6 l7 l8 l9 l10 l11 l12 l13 l14 l15 l16
  have q0 : Keeps base l0 := by
    simp only [l0]
    repeat' first
      | with_reducible assumption | with_reducible apply keeps_emit | with_reducible apply keeps_fslowUpdate
      | with_reducible apply keeps_measureEngines | with_reducible apply keeps_measureLanes | with_reducible apply keeps_put
      | with_reducible apply keeps_putS | with_reducible apply keeps_ite
      | (simp only [keeps_mk]; first | with_reducible apply Keeps.parts | refine Keeps.parts' ?_ rfl) | dsimp only | split
      | (intro _; intros; try dsimp only)
  clear_value l0
  have q6 : Keeps base l6 := by
    simp only [l6]
    repeat' first
      | with_reducible assumption | with_reducible apply keeps_emit | with_reducible apply keeps_fslowUpdate
      | with_reducible apply keeps_measureEngines | with_reducible apply keeps_measureLanes | with_reducible apply keeps_put
      | with_reducible apply keeps_putS | with_reducible apply keeps_ite
      | (simp only [keeps_mk]; first | with_reducible apply Keeps.parts | refine Keeps.parts' ?_ rfl) | dsimp only | split
      | (intro _; intros; try dsimp only)
  clear_value l6
  have q11 : Keeps base l11 := by
    simp only [l11]
    repeat' first
      | with_reducible assumption | with_reducible apply keeps_emit | with_reducible apply keeps_fslowUpdate
      | with_reducible apply keeps_measureEngines | with_reducible apply keeps_measureLanes | with_reducible apply keeps_put
      | with_reducible apply keeps_putS | with_reducible apply keeps_ite
      | (simp only [keeps_mk]; first | with_reducible apply Keeps.parts | refine Keeps.parts' ?_ rfl) | dsimp only | split
      | (intro _; intros; try dsimp only)
  clear_value l11
  have q12 : Keeps base l12 := by
    simp only [l12]
    repeat' first
      | with_reducible assumption | with_reducible apply keeps_emit | with_reducible apply keeps_fslowUpdate
      | with_reducible apply keeps_measureEngines | with_reducible apply keeps_measureLanes | with_reducible apply keeps_put
      | with_reducible apply keeps_putS | with_reducible apply keeps_ite
      | (simp only [keeps_mk]; first | with_reducible apply Keeps.parts | refine Keeps.parts' ?_ rfl) | dsimp only | split
      | (intro _; intros; try dsimp only)
  clear_value l12
  have q14 : Keeps base l14 := by
    simp only [l14]
    repeat' first
      | with_reducible assumption | with_reducible apply keeps_emit | with_reducible apply keeps_fslowUpdate
      | with_reducible apply keeps_measureEngines | with_reducible apply keeps_measureLanes | with_reducible apply keeps_put
      | with_reducible apply keeps_putS | with_reducible apply keeps_ite
      | (simp only [keeps_mk]; first | with_reducible apply Keeps.parts | refine Keeps.parts' ?_ rfl) | dsimp only | split
      | (intro _; intros; try dsimp only)
  clear_value l14
  have q15 : Keeps base l15 := by
    simp only [l15]
    repeat' first
      | with_reducible assumption | with_reducible apply keeps_emit | with_reducible apply keeps_fslowUpdate
      | with_reducible apply keeps_measureEngines | with_reducible apply keeps_measureLanes | with_reducible apply keeps_put
      | with_reducible apply keeps_putS | with_reducible apply keeps_ite
      | (simp only [keeps_mk]; first | with_reducible apply Keeps.parts | refine Keeps.parts' ?_ rfl) | dsimp only | split
      | (intro _; intros; try dsimp only)
  clear_value l15
  have q16 : Keeps base l16 := by
    simp only [l16]
    repeat' first
      | with_reducible assumption | with_reducible apply keeps_emit | with_reducible apply keeps_fslowUpdate
      | with_reducible apply keeps_measureEngines | with_reducible apply keeps_measureLanes | with_reducible apply keeps_put
      | with_reducible apply keeps_putS | with_reducible apply keeps_ite
      | (simp only [keeps_mk]; first | with_reducible apply Keeps.parts | refine Keeps.parts' ?_ rfl) | dsimp only | split
      | (intro _; intros; try dsimp only)
  clear_value l16
  repeat' first
    | with_reducible assumption | with_reducible apply keeps_emit | with_reducible apply keeps_fslowUpdate
    | with_reducible apply keeps_measureEngines | with_reducible apply keeps_measureLanes | with_reducible apply keeps_put
    | with_reducible apply keeps_putS | with_reducible apply keeps_ite
    | (simp only [keeps_mk]; first | with_reducible apply Keeps.parts | refine Keeps.parts' ?_ rfl) | dsimp only | split
    | (intro _; intros; try dsimp only)

theorem keeps_execVcoreEvaluation {base : State} {lanes : List Nat} {walk : Int} {engines : List Nat} {s : State} (h0 : Keeps base s) :
    KeepsX base (execVcoreEvaluation lanes walk engines s) := by
  unfold execVcoreEvaluation
  try dsimp only
  repeat' first
    | with_reducible assumption | with_reducible apply keeps_arm | with_reducible apply keeps_fire | with_reducible apply keeps_vcoreStep
    | with_reducible apply keepsX_next | with_reducible exact keepsX_fault | with_reducible apply keepsX_ite
    | with_reducible apply keepsO_ite | with_reducible apply keepsO_some | with_reducible exact keepsO_none
    | (simp only [keeps_mk]; first | with_reducible apply Keeps.parts | refine Keeps.parts' ?_ rfl) | (refine KeepsO.use (by assumption) ?_)
    | dsimp only | split | (intro _; intros; try dsimp only)

theorem keeps_breakSensor {base : State} {s : State} {k : Nat} {why : Nat} (h0 : Keeps base s) :
    Keeps base (State.breakSensor s k why) := by
  unfold State.breakSensor
  try dsimp only
  repeat' first
    | with_reducible assumption | with_reducible apply keeps_emit | with_reducible apply keeps_put | with_reducible apply keeps_ite
    | dsimp only | split

theorem keeps_renewRegion {base : State} {s : State} {reading : Nat → Int} {z : Nat} (h0 : Keeps base s) :
    Keeps base (State.renewRegion s reading z) := by
  unfold State.renewRegion
  try dsimp only
  repeat' first
    | with_reducible assumption | with_reducible apply keeps_breakSensor | with_reducible apply keeps_degrade
    | with_reducible apply keeps_emit | with_reducible apply keeps_put | with_reducible apply keeps_putS | with_reducible apply keeps_ite
    | (simp only [keeps_mk]; first | with_reducible apply Keeps.parts | refine Keeps.parts' ?_ rfl) | dsimp only | split
    | (intro _; intros; try dsimp only)

theorem keeps_coolUpdate {base : State} {s : State} (h0 : Keeps base s) :
    Keeps base (State.coolUpdate s) := by
  unfold State.coolUpdate
  try dsimp only
  repeat' first
    | with_reducible assumption | with_reducible apply keeps_ite | with_reducible apply keepsO_ite | with_reducible apply keepsO_some
    | with_reducible exact keepsO_none | (simp only [keeps_mk]; first | with_reducible apply Keeps.parts | refine Keeps.parts' ?_ rfl)
    | dsimp only | split

theorem keeps_convertSensors {base : State} {s : State} {cs : List (Bool × Int)} (h0 : Keeps base s) :
    Keeps base (State.convertSensors s cs) := by
  unfold State.convertSensors
  try dsimp only
  repeat' first
    | with_reducible assumption | with_reducible apply keeps_breakSensor | with_reducible apply keeps_coolUpdate
    | with_reducible apply keeps_renewRegion | with_reducible apply keeps_ite
    | (simp only [keeps_mk]; first | with_reducible apply Keeps.parts | refine Keeps.parts' ?_ rfl) | with_reducible apply keeps_foldl
    | with_reducible apply keeps_foldl_fst | dsimp only | split | (intro _; intros; try dsimp only)

theorem keeps_execTempSensorConvert {base : State} {cs : List (Bool × Int)} {s : State} (h0 : Keeps base s) :
    KeepsX base (execTempSensorConvert cs s) := by
  unfold execTempSensorConvert
  try dsimp only
  repeat' first
    | with_reducible assumption | with_reducible apply keeps_convertSensors | with_reducible apply keeps_ite
    | with_reducible apply keepsX_next | with_reducible exact keepsX_fault | with_reducible apply keepsX_ite | dsimp only | split

theorem keeps_loadRegion {base : State} {s : State} {works : List Nat} {z : Nat} (h0 : Keeps base s) :
    Keeps base (State.loadRegion s works z) := by
  unfold State.loadRegion
  try dsimp only
  repeat' first
    | with_reducible assumption | with_reducible apply keeps_putFlag | with_reducible apply keeps_putSat | dsimp only

theorem keeps_execBallastUpdate {base : State} {works : List Nat} {s : State} (h0 : Keeps base s) :
    KeepsX base (execBallastUpdate works s) := by
  unfold execBallastUpdate
  try dsimp only
  repeat' first
    | with_reducible assumption | with_reducible apply keeps_arm | with_reducible apply keeps_fire | with_reducible apply keeps_loadRegion
    | with_reducible apply keepsX_next | with_reducible exact keepsX_fault | with_reducible apply keepsX_ite
    | with_reducible apply keepsO_ite | with_reducible apply keepsO_some | with_reducible exact keepsO_none
    | (simp only [keeps_mk]; first | with_reducible apply Keeps.parts | refine Keeps.parts' ?_ rfl) | with_reducible apply keeps_foldl
    | with_reducible apply keeps_foldl_fst | (refine KeepsO.use (by assumption) ?_) | dsimp only | split | (intro _; intros; try dsimp only)

theorem keeps_throttleStep {base : State} {s : State} (h0 : Keeps base s) :
    Keeps base (State.throttleStep s) := by
  unfold State.throttleStep
  try dsimp only
  repeat' first
    | with_reducible assumption | with_reducible apply keeps_fslowUpdate | with_reducible apply keeps_put
    | with_reducible apply keeps_putFlag | with_reducible apply keeps_putSat | with_reducible apply keeps_ite
    | (simp only [keeps_mk]; first | with_reducible apply Keeps.parts | refine Keeps.parts' ?_ rfl) | dsimp only | split

theorem keeps_holdupResult {base : State} {s : State} {h : HoldupFacts} (h0 : Keeps base s) :
    Keeps base (State.holdupResult s h) := by
  unfold State.holdupResult
  try dsimp only
  repeat' first
    | with_reducible assumption | with_reducible apply keeps_emit | with_reducible apply keeps_put | with_reducible apply keeps_putFlag
    | with_reducible apply keeps_putSat | with_reducible apply keeps_ite | dsimp only | split

theorem keeps_hostHoldup {base : State} {s : State} (h0 : Keeps base s) :
    KeepsO base (State.hostHoldup s) := by
  unfold State.hostHoldup
  try dsimp only
  repeat' first
    | with_reducible assumption | with_reducible apply keeps_allow | with_reducible apply keepsO_ite | with_reducible apply keepsO_some
    | with_reducible exact keepsO_none | (simp only [keeps_mk]; first | with_reducible apply Keeps.parts | refine Keeps.parts' ?_ rfl)
    | dsimp only | (intro _; intros; try dsimp only)

theorem keeps_execHoldupCheck {base : State} {s : State} (h0 : Keeps base s) :
    KeepsX base (execHoldupCheck s) := by
  unfold execHoldupCheck
  try dsimp only
  repeat' first
    | with_reducible assumption | with_reducible apply keeps_host | with_reducible apply keeps_hostHoldup | with_reducible apply keepsX_next
    | with_reducible exact keepsX_fault | with_reducible apply keepsX_ite | dsimp only | (intro _; intros; try dsimp only)

theorem keeps_execHoldupCheckDone {base : State} {h : HoldupFacts} {s : State} (h0 : Keeps base s) :
    KeepsX base (execHoldupCheckDone h s) := by
  unfold execHoldupCheckDone
  try dsimp only
  repeat' first
    | with_reducible assumption | with_reducible apply keeps_holdupResult | with_reducible apply keeps_ite
    | with_reducible apply keepsX_next | with_reducible exact keepsX_fault | with_reducible apply keepsX_ite
    | (simp only [keeps_mk]; first | with_reducible apply Keeps.parts | refine Keeps.parts' ?_ rfl) | dsimp only | split

theorem keeps_execVkinChargeThreshold {base : State} {above : Bool} {s : State} (h0 : Keeps base s) :
    KeepsX base (execVkinChargeThreshold above s) := by
  unfold execVkinChargeThreshold
  try dsimp only
  repeat' first
    | with_reducible assumption | with_reducible apply keeps_put | with_reducible apply keeps_ite | with_reducible apply keepsX_next
    | with_reducible exact keepsX_fault | with_reducible apply keepsX_ite
    | (simp only [keeps_mk]; first | with_reducible apply Keeps.parts | refine Keeps.parts' ?_ rfl) | dsimp only | split

end Sys2Proof.Laws
end

