-- ==== Sys2Proof/Laws/Keeps/Lag.lean ====
section
/-! SUPPORT. Machine/Lag.lean keeps the queue, the canonical form and one actuation per valve. -/

namespace Sys2Proof.Laws

open Sys2Proof.Machine Sys2Proof.Safety

theorem keeps_walkPixel {base : State} {s : State} {e : LineEnv} {row : Nat} {c : Nat} {tau : Nat} {t : Int} {flags : Nat} (h0 : Keeps base s) :
    Keeps base (State.walkPixel s e row c tau t flags) := by
  unfold State.walkPixel
  try dsimp only
  repeat' first
    | with_reducible assumption | (simp only [keeps_mk]; first | with_reducible apply Keeps.parts | refine Keeps.parts' ?_ rfl) | dsimp only

theorem keeps_watchRow0 {base : State} {s : State} {line : Nat} (h0 : Keeps base s) :
    Keeps base (State.watchRow0 s line) := by
  unfold State.watchRow0
  try dsimp only
  repeat' first
    | with_reducible assumption | with_reducible apply keeps_ite | with_reducible apply keepsO_ite | with_reducible apply keepsO_some
    | with_reducible exact keepsO_none | (simp only [keeps_mk]; first | with_reducible apply Keeps.parts | refine Keeps.parts' ?_ rfl)
    | dsimp only | split | (intro _; intros; try dsimp only)

theorem keeps_averageRow {base : State} {s : State} {e : LineEnv} {px : List (Nat × Int × Bool)} (h0 : Keeps base s) :
    Keeps base (State.averageRow s e px) := by
  unfold State.averageRow
  try dsimp only
  repeat' first
    | with_reducible assumption | with_reducible apply keeps_ite
    | (simp only [keeps_mk]; first | with_reducible apply Keeps.parts | refine Keeps.parts' ?_ rfl) | dsimp only | split

theorem keeps_viewRow {base : State} {s : State} {row : Nat} {px : List (Int × Nat)} (h0 : Keeps base s) :
    Keeps base (State.viewRow s row px) := by
  unfold State.viewRow
  try dsimp only
  repeat' first
    | with_reducible assumption | with_reducible apply keeps_ite | with_reducible apply keepsO_ite | with_reducible apply keepsO_some
    | with_reducible exact keepsO_none | (simp only [keeps_mk]; first | with_reducible apply Keeps.parts | refine Keeps.parts' ?_ rfl)
    | dsimp only | split | (intro _; intros; try dsimp only)

end Sys2Proof.Laws
end

