-- ==== Sys2Proof/Laws/Keeps/Shutter.lean ====
section
/-! SUPPORT. Machine/Shutter.lean keeps the queue, the canonical form and one actuation per valve. -/

namespace Sys2Proof.Laws

open Sys2Proof.Machine Sys2Proof.Safety

theorem keeps_assertGap {base : State} {s : State} (h0 : Keeps base s) :
    Keeps base (State.assertGap s) := by
  unfold State.assertGap
  try dsimp only
  repeat' first
    | with_reducible assumption | with_reducible apply keeps_arm | with_reducible apply keeps_ite
    | (simp only [keeps_mk]; first | with_reducible apply Keeps.parts | refine Keeps.parts' ?_ rfl) | dsimp only | split

theorem keeps_releaseGap {base : State} {s : State} (h0 : Keeps base s) :
    Keeps base (State.releaseGap s) := by
  unfold State.releaseGap
  try dsimp only
  repeat' first
    | with_reducible assumption | with_reducible apply keeps_disarm
    | (simp only [keeps_mk]; first | with_reducible apply Keeps.parts | refine Keeps.parts' ?_ rfl) | dsimp only

theorem keeps_requestShutter {base : State} {s : State} (h0 : Keeps base s) :
    Keeps base (State.requestShutter s) := by
  unfold State.requestShutter
  try dsimp only
  repeat' first
    | with_reducible assumption | with_reducible apply keeps_assertGap | with_reducible apply keeps_put | with_reducible apply keeps_ite
    | (simp only [keeps_mk]; first | with_reducible apply Keeps.parts | refine Keeps.parts' ?_ rfl) | dsimp only | split

theorem keeps_trimRef {base : State} {s : State} {line : Nat} {key : Nat} {code : Nat} (h0 : Keeps base s) :
    Keeps base (State.trimRef s line key code) := by
  unfold State.trimRef
  try dsimp only
  repeat' first
    | with_reducible assumption | with_reducible apply keeps_ite | with_reducible apply keepsO_ite | with_reducible apply keepsO_some
    | with_reducible exact keepsO_none | (simp only [keeps_mk]; first | with_reducible apply Keeps.parts | refine Keeps.parts' ?_ rfl)
    | dsimp only | split

theorem keeps_trimRow {base : State} {s : State} {line : Nat} {key : Nat} {code : Nat} (h0 : Keeps base s) :
    Keeps base (State.trimRow s line key code) := by
  unfold State.trimRow
  try dsimp only
  repeat' first
    | with_reducible assumption | with_reducible apply keeps_ite | with_reducible apply keepsO_ite | with_reducible apply keepsO_some
    | with_reducible exact keepsO_none | (simp only [keeps_mk]; first | with_reducible apply Keeps.parts | refine Keeps.parts' ?_ rfl)
    | dsimp only | split

end Sys2Proof.Laws
end

