-- ==== Sys2Proof/Laws/Keeps/Readout.lean ====
section
/-! SUPPORT. Machine/Readout.lean keeps the queue, the canonical form and one actuation per valve. -/

namespace Sys2Proof.Laws

open Sys2Proof.Machine Sys2Proof.Safety

theorem keeps_failLane {base : State} {s : State} {n : Nat} (h0 : Keeps base s) :
    Keeps base (State.failLane s n) := by
  unfold State.failLane
  try dsimp only
  repeat' first
    | with_reducible assumption | with_reducible apply keeps_put | with_reducible apply keeps_ite
    | (simp only [keeps_mk]; first | with_reducible apply Keeps.parts | refine Keeps.parts' ?_ rfl) | dsimp only | split

theorem keeps_loseLink {base : State} {s : State} (h0 : Keeps base s) :
    Keeps base (State.loseLink s) := by
  unfold State.loseLink
  try dsimp only
  repeat' first
    | with_reducible assumption | with_reducible apply keeps_emit | with_reducible apply keeps_put | dsimp only

theorem keeps_singleLane {base : State} {s : State} {n : Nat} (h0 : Keeps base s) :
    Keeps base (State.singleLane s n) := by
  unfold State.singleLane
  try dsimp only
  repeat' first
    | with_reducible assumption | with_reducible apply keeps_emit | with_reducible apply keeps_loseLink | with_reducible apply keeps_put
    | with_reducible apply keeps_ite | dsimp only | split

theorem keeps_unprotect {base : State} {s : State} (h0 : Keeps base s) :
    Keeps base (State.unprotect s) := by
  unfold State.unprotect
  try dsimp only
  repeat' first
    | with_reducible assumption | with_reducible apply keeps_emit | with_reducible apply keeps_put | dsimp only

theorem keeps_moveRole {base : State} {s : State} {n : Nat} {role : Nat} (h0 : Keeps base s) :
    Keeps base (State.moveRole s n role) := by
  unfold State.moveRole
  try dsimp only
  repeat' first
    | with_reducible assumption | with_reducible apply keeps_emit | with_reducible apply keeps_loseLink | with_reducible apply keeps_put
    | with_reducible apply keeps_singleLane | with_reducible apply keeps_unprotect | with_reducible apply keeps_ite | dsimp only | split

theorem keeps_moveLanes {base : State} {s : State} (h0 : Keeps base s) :
    Keeps base (State.moveLanes s) := by
  unfold State.moveLanes
  try dsimp only
  repeat' first
    | with_reducible assumption | with_reducible apply keeps_degrade | with_reducible apply keeps_moveRole | with_reducible apply keeps_ite
    | with_reducible apply keepsO_ite | with_reducible apply keepsO_some | with_reducible exact keepsO_none
    | (simp only [keeps_mk]; first | with_reducible apply Keeps.parts | refine Keeps.parts' ?_ rfl) | with_reducible apply keeps_foldl
    | with_reducible apply keeps_foldl_fst | dsimp only | split | (intro _; intros; try dsimp only)

theorem keeps_assignRoles {base : State} {s : State} (h0 : Keeps base s) :
    Keeps base (State.assignRoles s) := by
  unfold State.assignRoles
  try dsimp only
  repeat' first
    | with_reducible assumption | with_reducible apply keeps_put | with_reducible apply keeps_putFlag | with_reducible apply keeps_ite
    | dsimp only | split | (intro _; intros; try dsimp only)

theorem keeps_tellRoles {base : State} {s : State} {before : State} (h0 : Keeps base s) (h1 : Keeps base before) :
    Keeps base (State.tellRoles s before) := by
  unfold State.tellRoles
  try dsimp only
  repeat' first
    | with_reducible assumption | with_reducible apply keeps_emit | with_reducible apply keeps_ite | dsimp only | split
    | (intro _; intros; try dsimp only)

theorem keeps_setLane {base : State} {s : State} {n : Nat} {l : LinkLane} (h0 : Keeps base s) :
    Keeps base (State.setLane s n l) := by
  unfold State.setLane
  try dsimp only
  repeat' first
    | with_reducible assumption | (simp only [keeps_mk]; first | with_reducible apply Keeps.parts | refine Keeps.parts' ?_ rfl) | dsimp only

theorem keeps_linkUpdate {base : State} {s : State} (h0 : Keeps base s) :
    Keeps base (State.linkUpdate s) := by
  unfold State.linkUpdate
  try dsimp only
  repeat' first
    | with_reducible assumption | with_reducible apply keeps_putFlag | dsimp only | (intro _; intros; try dsimp only)

theorem keeps_execBlockLockLost {base : State} {lane : Nat} {s : State} (h0 : Keeps base s) :
    KeepsX base (execBlockLockLost lane s) := by
  unfold execBlockLockLost
  try dsimp only
  repeat' first
    | with_reducible assumption | with_reducible apply keeps_failLane | with_reducible apply keeps_linkUpdate
    | with_reducible apply keeps_setLane | with_reducible apply keeps_ite | with_reducible apply keepsX_next
    | with_reducible exact keepsX_fault | with_reducible apply keepsX_ite
    | (simp only [keeps_mk]; first | with_reducible apply Keeps.parts | refine Keeps.parts' ?_ rfl) | dsimp only | split

theorem keeps_execBlockLockGained {base : State} {lane : Nat} {s : State} (h0 : Keeps base s) :
    KeepsX base (execBlockLockGained lane s) := by
  unfold execBlockLockGained
  try dsimp only
  repeat' first
    | with_reducible assumption | with_reducible apply keeps_linkUpdate | with_reducible apply keeps_setLane
    | with_reducible apply keeps_ite | with_reducible apply keepsX_next | with_reducible exact keepsX_fault
    | with_reducible apply keepsX_ite | (simp only [keeps_mk]; first | with_reducible apply Keeps.parts | refine Keeps.parts' ?_ rfl)
    | dsimp only | split

theorem keeps_setRef {base : State} {s : State} {k : Nat} {r : FurrowRef} (h0 : Keeps base s) :
    Keeps base (State.setRef s k r) := by
  unfold State.setRef
  try dsimp only
  repeat' first
    | with_reducible assumption | (simp only [keeps_mk]; first | with_reducible apply Keeps.parts | refine Keeps.parts' ?_ rfl) | dsimp only

theorem keeps_declareFurrow {base : State} {s : State} {g : Nat} {f : Nat} (h0 : Keeps base s) :
    Keeps base (State.declareFurrow s g f) := by
  unfold State.declareFurrow
  try dsimp only
  repeat' first
    | with_reducible assumption | with_reducible apply keeps_bump | with_reducible apply keeps_emit | with_reducible apply keeps_put
    | with_reducible apply keeps_requestShutter | with_reducible apply keeps_ite
    | (simp only [keeps_mk]; first | with_reducible apply Keeps.parts | refine Keeps.parts' ?_ rfl) | dsimp only | split

theorem keeps_checkRef {base : State} {s : State} {line : Nat} {g : Nat} {f : Nat} {code : Option Nat} (h0 : Keeps base s) :
    Keeps base (State.checkRef s line g f code) := by
  unfold State.checkRef
  try dsimp only
  repeat' first
    | with_reducible assumption | with_reducible apply keeps_declareFurrow | with_reducible apply keeps_setRef
    | with_reducible apply keeps_trimRef | with_reducible apply keeps_ite | with_reducible apply keepsO_ite
    | with_reducible apply keepsO_some | with_reducible exact keepsO_none
    | (simp only [keeps_mk]; first | with_reducible apply Keeps.parts | refine Keeps.parts' ?_ rfl) | dsimp only | split

theorem keeps_unsparedStatus {base : State} {s : State} (h0 : Keeps base s) :
    Keeps base (State.unsparedStatus s) := by
  unfold State.unsparedStatus
  try dsimp only
  repeat' first
    | with_reducible assumption | with_reducible apply keeps_emit | with_reducible apply keeps_put | with_reducible apply keeps_putFlag
    | with_reducible apply keeps_putSat | with_reducible apply keeps_ite | with_reducible apply keepsO_ite
    | with_reducible apply keepsO_some | with_reducible exact keepsO_none
    | (simp only [keeps_mk]; first | with_reducible apply Keeps.parts | refine Keeps.parts' ?_ rfl) | (simp only [id]; assumption)
    | dsimp only | split | (intro _; intros; try dsimp only)

theorem keeps_substitute {base : State} {s : State} {g : Nat} {f : Nat} (h0 : Keeps base s) :
    Keeps base (State.substitute s g f) := by
  unfold State.substitute
  try dsimp only
  repeat' first
    | with_reducible assumption | with_reducible apply keeps_emit | with_reducible apply keeps_put
    | with_reducible apply keeps_requestShutter | dsimp only

theorem keeps_restoreFurrow {base : State} {s : State} {g : Nat} {f : Nat} (h0 : Keeps base s) :
    Keeps base (State.restoreFurrow s g f) := by
  unfold State.restoreFurrow
  try dsimp only
  repeat' first
    | with_reducible assumption | with_reducible apply keeps_put | with_reducible apply keeps_putFlag | with_reducible apply keeps_setRef
    | with_reducible apply keeps_ite | (simp only [keeps_mk]; first | with_reducible apply Keeps.parts | refine Keeps.parts' ?_ rfl)
    | dsimp only | split | (intro _; intros; try dsimp only)

theorem keeps_spareGroup {base : State} {s : State} {g : Nat} (h0 : Keeps base s) :
    Keeps base (State.spareGroup s g) := by
  unfold State.spareGroup
  try dsimp only
  repeat' first
    | with_reducible assumption | with_reducible apply keeps_degrade | with_reducible apply keeps_substitute
    | with_reducible apply keeps_ite | with_reducible apply keepsO_ite | with_reducible apply keepsO_some | with_reducible exact keepsO_none
    | (simp only [keeps_mk]; first | with_reducible apply Keeps.parts | refine Keeps.parts' ?_ rfl) | dsimp only | split
    | (intro _; intros; try dsimp only)

theorem keeps_spareBoundary {base : State} {s : State} (h0 : Keeps base s) :
    Keeps base (State.spareBoundary s) := by
  unfold State.spareBoundary
  try dsimp only
  repeat' first
    | with_reducible assumption | with_reducible apply keeps_put | with_reducible apply keeps_restoreFurrow
    | with_reducible apply keeps_spareGroup | with_reducible apply keeps_ite
    | (simp only [keeps_mk]; first | with_reducible apply Keeps.parts | refine Keeps.parts' ?_ rfl) | with_reducible apply keeps_foldl
    | with_reducible apply keeps_foldl_fst | dsimp only | split | (intro _; intros; try dsimp only)

theorem keeps_keepFrames {base : State} {s : State} (h0 : Keeps base s) :
    Keeps base (State.keepFrames s) := by
  unfold State.keepFrames
  try dsimp only
  repeat' first
    | with_reducible assumption | (simp only [keeps_mk]; first | with_reducible apply Keeps.parts | refine Keeps.parts' ?_ rfl) | dsimp only
    | (intro _; intros; try dsimp only)

theorem keeps_hostSubstitute {base : State} {s : State} {g : Nat} {f : Nat} (h0 : Keeps base s) :
    KeepsO base (State.hostSubstitute s g f) := by
  unfold State.hostSubstitute
  try dsimp only
  repeat' first
    | with_reducible assumption | with_reducible apply keeps_allow | with_reducible apply keepsO_ite | with_reducible apply keepsO_some
    | with_reducible exact keepsO_none | (simp only [keeps_mk]; first | with_reducible apply Keeps.parts | refine Keeps.parts' ?_ rfl)
    | dsimp only | (intro _; intros; try dsimp only)

theorem keeps_execFurrowSubstitute {base : State} {group : Nat} {furrow : Nat} {s : State} (h0 : Keeps base s) :
    KeepsX base (execFurrowSubstitute group furrow s) := by
  unfold execFurrowSubstitute
  try dsimp only
  repeat' first
    | with_reducible assumption | with_reducible apply keeps_host | with_reducible apply keeps_hostSubstitute
    | with_reducible apply keeps_ite | with_reducible apply keeps_ite_fst | with_reducible apply keepsX_next
    | with_reducible exact keepsX_fault | with_reducible apply keepsX_ite | with_reducible apply keepsO_ite
    | with_reducible apply keepsO_some | with_reducible exact keepsO_none | with_reducible apply keepsP_ite
    | with_reducible apply keepsP_some | with_reducible exact keepsP_none
    | (simp only [keeps_mk]; first | with_reducible apply Keeps.parts | refine Keeps.parts' ?_ rfl) | (refine KeepsO.use (by assumption) ?_)
    | (refine KeepsP.use (by assumption) ?_) | (refine Keeps.ofPair (by assumption) ?_) | dsimp only | split
    | (intro _; intros; try dsimp only)

theorem keeps_hostRestore {base : State} {s : State} {g : Nat} {f : Nat} (h0 : Keeps base s) :
    KeepsO base (State.hostRestore s g f) := by
  unfold State.hostRestore
  try dsimp only
  repeat' first
    | with_reducible assumption | with_reducible apply keeps_allow | with_reducible apply keepsO_ite | with_reducible apply keepsO_some
    | with_reducible exact keepsO_none | (simp only [keeps_mk]; first | with_reducible apply Keeps.parts | refine Keeps.parts' ?_ rfl)
    | dsimp only | (intro _; intros; try dsimp only)

theorem keeps_execFurrowRestore {base : State} {group : Nat} {furrow : Nat} {s : State} (h0 : Keeps base s) :
    KeepsX base (execFurrowRestore group furrow s) := by
  unfold execFurrowRestore
  try dsimp only
  repeat' first
    | with_reducible assumption | with_reducible apply keeps_host | with_reducible apply keeps_hostRestore | with_reducible apply keeps_ite
    | with_reducible apply keeps_ite_fst | with_reducible apply keepsX_next | with_reducible exact keepsX_fault
    | with_reducible apply keepsX_ite | with_reducible apply keepsO_ite | with_reducible apply keepsO_some
    | with_reducible exact keepsO_none | with_reducible apply keepsP_ite | with_reducible apply keepsP_some
    | with_reducible exact keepsP_none | (simp only [keeps_mk]; first | with_reducible apply Keeps.parts | refine Keeps.parts' ?_ rfl)
    | (refine KeepsO.use (by assumption) ?_) | (refine KeepsP.use (by assumption) ?_) | (refine Keeps.ofPair (by assumption) ?_)
    | dsimp only | split | (intro _; intros; try dsimp only)

theorem keeps_clearRdo {base : State} {s : State} (h0 : Keeps base s) :
    Keeps base (State.clearRdo s) := by
  unfold State.clearRdo
  try dsimp only
  repeat' first
    | with_reducible assumption | with_reducible apply keeps_setWord | dsimp only

theorem keeps_execRdoClrCounters {base : State} {s : State} (h0 : Keeps base s) :
    KeepsX base (execRdoClrCounters s) := by
  unfold execRdoClrCounters
  try dsimp only
  repeat' first
    | with_reducible assumption | with_reducible apply keeps_allow | with_reducible apply keeps_clearRdo | with_reducible apply keeps_host
    | with_reducible apply keepsX_next | with_reducible exact keepsX_fault | with_reducible apply keepsX_ite | dsimp only
    | (intro _; intros; try dsimp only)

theorem keeps_hostBias {base : State} {s : State} {value : Nat} (h0 : Keeps base s) :
    KeepsO base (State.hostBias s value) := by
  unfold State.hostBias
  try dsimp only
  repeat' first
    | with_reducible assumption | with_reducible apply keeps_allow | with_reducible apply keeps_put | with_reducible apply keepsO_ite
    | with_reducible apply keepsO_some | with_reducible exact keepsO_none
    | (simp only [keeps_mk]; first | with_reducible apply Keeps.parts | refine Keeps.parts' ?_ rfl) | dsimp only
    | (intro _; intros; try dsimp only)

theorem keeps_execBiasWrite {base : State} {value : Nat} {s : State} (h0 : Keeps base s) :
    KeepsX base (execBiasWrite value s) := by
  unfold execBiasWrite
  try dsimp only
  repeat' first
    | with_reducible assumption | with_reducible apply keeps_host | with_reducible apply keeps_hostBias | with_reducible apply keepsX_next
    | with_reducible exact keepsX_fault | with_reducible apply keepsX_ite | dsimp only | (intro _; intros; try dsimp only)

theorem keeps_headThin {base : State} {s : State} {row : Nat} (h0 : Keeps base s) :
    Keeps base (State.headThin s row) := by
  unfold State.headThin
  try dsimp only
  repeat' first
    | with_reducible assumption | with_reducible apply keeps_emit | with_reducible apply keeps_ite
    | (simp only [keeps_mk]; first | with_reducible apply Keeps.parts | refine Keeps.parts' ?_ rfl) | dsimp only | split
    | (intro _; intros; try dsimp only)

theorem keeps_closeRow {base : State} {s : State} {line : Nat} {row : Nat} (h0 : Keeps base s) :
    Keeps base (State.closeRow s line row) := by
  unfold State.closeRow
  try dsimp only
  repeat' first
    | with_reducible assumption | with_reducible apply keeps_headThin | with_reducible apply keeps_ite | with_reducible apply keepsO_ite
    | with_reducible apply keepsO_some | with_reducible exact keepsO_none
    | (simp only [keeps_mk]; first | with_reducible apply Keeps.parts | refine Keeps.parts' ?_ rfl) | dsimp only | split

theorem keeps_rowGroup {base : State} {s : State} {line : Nat} {slot : Nat} {g : Nat} {codes : List (Option Nat)} (h0 : Keeps base s) :
    Keeps base (State.rowGroup s line slot g codes) := by
  unfold State.rowGroup
  try dsimp only
  repeat' first
    | with_reducible assumption | with_reducible apply keeps_bump | with_reducible apply keeps_closeRow | with_reducible apply keeps_draw
    | with_reducible apply keeps_setRef | with_reducible apply keeps_trimRow | with_reducible apply keeps_ite
    | with_reducible apply keepsO_ite | with_reducible apply keepsO_some | with_reducible exact keepsO_none
    | (simp only [keeps_mk]; first | with_reducible apply Keeps.parts | refine Keeps.parts' ?_ rfl) | with_reducible apply keeps_foldl
    | with_reducible apply keeps_foldl_fst | dsimp only | split | (intro _; intros; try dsimp only)

theorem keeps_refGroup {base : State} {s : State} {line : Nat} {g : Nat} {codes : List (Option Nat)} (h0 : Keeps base s) :
    Keeps base (State.refGroup s line g codes) := by
  unfold State.refGroup
  try dsimp only
  repeat' first
    | with_reducible assumption | with_reducible apply keeps_checkRef | with_reducible apply keeps_unsparedStatus
    | with_reducible apply keeps_ite | (simp only [keeps_mk]; first | with_reducible apply Keeps.parts | refine Keeps.parts' ?_ rfl)
    | with_reducible apply keeps_foldl | with_reducible apply keeps_foldl_fst | dsimp only | split | (intro _; intros; try dsimp only)

theorem keeps_rawGroup {base : State} {s : State} {line : Nat} {slot : Nat} {g : Nat} {codes : List (Option Nat)} (h0 : Keeps base s) :
    Keeps base (State.rawGroup s line slot g codes) := by
  unfold State.rawGroup
  try dsimp only
  repeat' first
    | with_reducible assumption | with_reducible apply keeps_ite | with_reducible apply keepsO_ite | with_reducible apply keepsO_some
    | with_reducible exact keepsO_none | (simp only [keeps_mk]; first | with_reducible apply Keeps.parts | refine Keeps.parts' ?_ rfl)
    | dsimp only | split | (intro _; intros; try dsimp only)

theorem keeps_finishGroup {base : State} {s : State} (h0 : Keeps base s) :
    Keeps base (State.finishGroup s) := by
  unfold State.finishGroup
  try dsimp only
  repeat' first
    | with_reducible assumption | with_reducible apply keeps_bump | with_reducible apply keeps_rawGroup
    | with_reducible apply keeps_refGroup | with_reducible apply keeps_rowGroup | with_reducible apply keeps_ite
    | (simp only [keeps_mk]; first | with_reducible apply Keeps.parts | refine Keeps.parts' ?_ rfl) | dsimp only | split

theorem keeps_noteFrame {base : State} {s : State} {n : Nat} {bad : Bool} (h0 : Keeps base s) :
    Keeps base (State.noteFrame s n bad) := by
  unfold State.noteFrame
  try dsimp only
  repeat' first
    | with_reducible assumption | with_reducible apply keeps_failLane | with_reducible apply keeps_setLane | with_reducible apply keeps_ite
    | (simp only [keeps_mk]; first | with_reducible apply Keeps.parts | refine Keeps.parts' ?_ rfl) | (simp only [id]; assumption)
    | dsimp only | split

theorem keeps_takeFrame {base : State} {s : State} {role : Nat} {d : Option (List Nat)} (h0 : Keeps base s) :
    Keeps base (State.takeFrame s role d) := by
  unfold State.takeFrame
  try dsimp only
  repeat' first
    | with_reducible assumption | with_reducible apply keeps_finishGroup | with_reducible apply keeps_ite | with_reducible apply keepsO_ite
    | with_reducible apply keepsO_some | with_reducible exact keepsO_none
    | (simp only [keeps_mk]; first | with_reducible apply Keeps.parts | refine Keeps.parts' ?_ rfl) | dsimp only | split

theorem keeps_retrainFrame {base : State} {s : State} {n : Nat} {f : LinkFrame} (h0 : Keeps base s) :
    Keeps base (State.retrainFrame s n f) := by
  unfold State.retrainFrame
  try dsimp only
  repeat' first
    | with_reducible assumption | with_reducible apply keeps_put | with_reducible apply keeps_setLane | with_reducible apply keeps_ite
    | (simp only [keeps_mk]; first | with_reducible apply Keeps.parts | refine Keeps.parts' ?_ rfl) | dsimp only | split

theorem keeps_groupFrame {base : State} {s : State} {n : Nat} {f : LinkFrame} (h0 : Keeps base s) :
    Keeps base (State.groupFrame s n f) := by
  unfold State.groupFrame
  try dsimp only
  repeat' first
    | with_reducible assumption | with_reducible apply keeps_noteFrame | with_reducible apply keeps_retrainFrame
    | with_reducible apply keeps_takeFrame | with_reducible apply keeps_ite | with_reducible apply keepsO_ite
    | with_reducible apply keepsO_some | with_reducible exact keepsO_none
    | (simp only [keeps_mk]; first | with_reducible apply Keeps.parts | refine Keeps.parts' ?_ rfl) | dsimp only | split

theorem keeps_execGroupFrameReceived {base : State} {lane : Nat} {f : LinkFrame} {s : State} (h0 : Keeps base s) :
    KeepsX base (execGroupFrameReceived lane f s) := by
  unfold execGroupFrameReceived
  try dsimp only
  repeat' first
    | with_reducible assumption | with_reducible apply keeps_groupFrame | with_reducible apply keeps_ite | with_reducible apply keepsX_next
    | with_reducible exact keepsX_fault | with_reducible apply keepsX_ite | dsimp only | split

theorem keeps_setTherm {base : State} {s : State} {k : Nat} {t : Therm} (h0 : Keeps base s) :
    Keeps base (State.setTherm s k t) := by
  unfold State.setTherm
  try dsimp only
  repeat' first
    | with_reducible assumption | (simp only [keeps_mk]; first | with_reducible apply Keeps.parts | refine Keeps.parts' ?_ rfl) | dsimp only

theorem keeps_failTherm {base : State} {s : State} {k : Nat} {why : Nat} (h0 : Keeps base s) :
    Keeps base (State.failTherm s k why) := by
  unfold State.failTherm
  try dsimp only
  repeat' first
    | with_reducible assumption | with_reducible apply keeps_emit | with_reducible apply keeps_put | with_reducible apply keeps_ite
    | dsimp only | split

theorem keeps_thermReading {base : State} {s : State} {k : Nat} {t : Int} (h0 : Keeps base s) :
    Keeps base (State.thermReading s k t) := by
  unfold State.thermReading
  try dsimp only
  repeat' first
    | with_reducible assumption | with_reducible apply keeps_arm | with_reducible apply keeps_failTherm | with_reducible apply keeps_put
    | with_reducible apply keeps_setTherm | with_reducible apply keeps_ite | with_reducible apply keepsO_ite
    | with_reducible apply keepsO_some | with_reducible exact keepsO_none
    | (simp only [keeps_mk]; first | with_reducible apply Keeps.parts | refine Keeps.parts' ?_ rfl) | dsimp only | split
    | (intro _; intros; try dsimp only)

theorem keeps_execThermStale {base : State} {k : Nat} {s : State} (h0 : Keeps base s) :
    KeepsX base (execThermStale k s) := by
  unfold execThermStale
  try dsimp only
  repeat' first
    | with_reducible assumption | with_reducible apply keeps_failTherm | with_reducible apply keeps_fire | with_reducible apply keeps_ite
    | with_reducible apply keepsX_next | with_reducible exact keepsX_fault | with_reducible apply keepsX_ite
    | with_reducible apply keepsO_ite | with_reducible apply keepsO_some | with_reducible exact keepsO_none
    | (simp only [keeps_mk]; first | with_reducible apply Keeps.parts | refine Keeps.parts' ?_ rfl) | (refine KeepsO.use (by assumption) ?_)
    | dsimp only | split | (intro _; intros; try dsimp only)

theorem keeps_thermBoundary {base : State} {s : State} (h0 : Keeps base s) :
    Keeps base (State.thermBoundary s) := by
  unfold State.thermBoundary
  try dsimp only
  repeat' first
    | with_reducible assumption | with_reducible apply keeps_failTherm | with_reducible apply keeps_ite | with_reducible apply keepsO_ite
    | with_reducible apply keepsO_some | with_reducible exact keepsO_none
    | (simp only [keeps_mk]; first | with_reducible apply Keeps.parts | refine Keeps.parts' ?_ rfl) | (simp only [id]; assumption)
    | with_reducible apply keeps_foldl | with_reducible apply keeps_foldl_fst | dsimp only | split | (intro _; intros; try dsimp only)

end Sys2Proof.Laws
end

