-- ==== Sys2Proof/Laws/Keeps/Correct.lean ====
section
/-! SUPPORT. Machine/Correct.lean keeps the queue, the canonical form and one actuation per valve. -/

namespace Sys2Proof.Laws

open Sys2Proof.Machine Sys2Proof.Safety

theorem keeps_releaseRow {base : State} {s : State} {e : LineEnv} {w : RowWork} (h0 : Keeps base s) :
    Keeps base (State.releaseRow s e w) := by
  unfold State.releaseRow
  try dsimp only
  repeat' first
    | with_reducible assumption | with_reducible apply keeps_averageRow | with_reducible apply keeps_bump
    | with_reducible apply keeps_viewRow | with_reducible apply keeps_walkPixel | with_reducible apply keeps_watchRow0
    | with_reducible apply keeps_ite | with_reducible apply keepsO_ite | with_reducible apply keepsO_some | with_reducible exact keepsO_none
    | (simp only [keeps_mk]; first | with_reducible apply Keeps.parts | refine Keeps.parts' ?_ rfl) | with_reducible apply keeps_foldl
    | with_reducible apply keeps_foldl_fst | dsimp only | split | (intro _; intros; try dsimp only)

theorem keeps_enterResult {base : State} {s : State} {p : Pixel} {r : RowPixel} (h0 : Keeps base s) :
    Keeps base (State.enterResult s p r) := by
  unfold State.enterResult
  try dsimp only
  repeat' first
    | with_reducible assumption | with_reducible apply keeps_releaseRow | with_reducible apply keeps_ite | with_reducible apply keepsO_ite
    | with_reducible apply keepsO_some | with_reducible exact keepsO_none
    | (simp only [keeps_mk]; first | with_reducible apply Keeps.parts | refine Keeps.parts' ?_ rfl) | dsimp only | split
    | (intro _; intros; try dsimp only)

theorem keeps_setCorLane {base : State} {s : State} {n : Nat} {p : Option Pixel} (h0 : Keeps base s) :
    Keeps base (State.setCorLane s n p) := by
  unfold State.setCorLane
  try dsimp only
  repeat' first
    | with_reducible assumption | (simp only [keeps_mk]; first | with_reducible apply Keeps.parts | refine Keeps.parts' ?_ rfl) | dsimp only

theorem keeps_keepOlds {base : State} {s : State} {ws : List (Nat × Int × Bool)} (h0 : Keeps base s) :
    Keeps base (State.keepOlds s ws) := by
  unfold State.keepOlds
  try dsimp only
  repeat' first
    | with_reducible assumption | with_reducible apply keeps_ite
    | (simp only [keeps_mk]; first | with_reducible apply Keeps.parts | refine Keeps.parts' ?_ rfl) | dsimp only | split
    | (intro _; intros; try dsimp only)

theorem keeps_writeGleaned {base : State} {s : State} (h0 : Keeps base s) :
    Keeps base (State.writeGleaned s) := by
  unfold State.writeGleaned
  try dsimp only
  repeat' first
    | with_reducible assumption | with_reducible apply keeps_bump | with_reducible apply keeps_keepOlds
    | with_reducible apply keeps_putBytes | with_reducible apply keeps_requestShutter | with_reducible apply keeps_setByte
    | with_reducible apply keeps_ite | (simp only [keeps_mk]; first | with_reducible apply Keeps.parts | refine Keeps.parts' ?_ rfl)
    | with_reducible apply keeps_foldl | with_reducible apply keeps_foldl_fst | dsimp only | split | (intro _; intros; try dsimp only)

theorem keeps_swapProgress {base : State} {s : State} (h0 : Keeps base s) :
    Keeps base (State.swapProgress s) := by
  unfold State.swapProgress
  try dsimp only
  repeat' first
    | with_reducible assumption | with_reducible apply keeps_put | with_reducible apply keeps_writeGleaned | with_reducible apply keeps_ite
    | with_reducible apply keepsO_ite | with_reducible apply keepsO_some | with_reducible exact keepsO_none
    | (simp only [keeps_mk]; first | with_reducible apply Keeps.parts | refine Keeps.parts' ?_ rfl) | dsimp only | split

theorem keeps_refill {base : State} {s : State} {rest : List Pixel} (h0 : Keeps base s) :
    Keeps base (State.refill s rest) := by
  unfold State.refill
  try dsimp only
  repeat' first
    | with_reducible assumption | (simp only [keeps_mk]; first | with_reducible apply Keeps.parts | refine Keeps.parts' ?_ rfl) | dsimp only

theorem keeps_issuePixel {base : State} {s : State} (h0 : Keeps base s) :
    Keeps base (State.issuePixel s) := by
  unfold State.issuePixel
  try dsimp only
  repeat' first
    | with_reducible assumption | with_reducible apply keeps_refill | with_reducible apply keeps_setCorLane
    | with_reducible apply keeps_swapProgress | with_reducible apply keeps_ite | with_reducible apply keepsO_ite
    | with_reducible apply keepsO_some | with_reducible exact keepsO_none
    | (simp only [keeps_mk]; first | with_reducible apply Keeps.parts | refine Keeps.parts' ?_ rfl) | dsimp only | split

theorem keeps_execPixelIssue {base : State} {s : State} (h0 : Keeps base s) :
    KeepsX base (execPixelIssue s) := by
  unfold execPixelIssue
  try dsimp only
  repeat' first
    | with_reducible assumption | with_reducible apply keeps_issuePixel | with_reducible apply keepsX_next
    | with_reducible exact keepsX_fault | with_reducible apply keepsX_ite | dsimp only

theorem keeps_lanesShort {base : State} {s : State} {l : Nat} (h0 : Keeps base s) :
    Keeps base (State.lanesShort s l) := by
  unfold State.lanesShort
  try dsimp only
  repeat' first
    | with_reducible assumption | with_reducible apply keeps_emit | with_reducible apply keeps_put | with_reducible apply keeps_ite
    | dsimp only | split

theorem keeps_failCorLane {base : State} {s : State} {n : Nat} {why : Nat} (h0 : Keeps base s) :
    Keeps base (State.failCorLane s n why) := by
  unfold State.failCorLane
  try dsimp only
  repeat' first
    | with_reducible assumption | with_reducible apply keeps_degrade | with_reducible apply keeps_emit
    | with_reducible apply keeps_lanesShort | with_reducible apply keeps_put | with_reducible apply keeps_setDomain
    | with_reducible apply keeps_ite | dsimp only | split

theorem keeps_countMismatch {base : State} {s : State} {n : Nat} (h0 : Keeps base s) :
    Keeps base (State.countMismatch s n) := by
  unfold State.countMismatch
  try dsimp only
  repeat' first
    | with_reducible assumption | with_reducible apply keeps_bump | with_reducible apply keeps_failCorLane | with_reducible apply keeps_ite
    | (simp only [keeps_mk]; first | with_reducible apply Keeps.parts | refine Keeps.parts' ?_ rfl) | dsimp only | split

theorem keeps_laneResult {base : State} {s : State} {n : Nat} {transit : Nat} {mismatch : Bool} {err : Int} (h0 : Keeps base s) :
    Keeps base (State.laneResult s n transit mismatch err) := by
  unfold State.laneResult
  try dsimp only
  repeat' first
    | with_reducible assumption | with_reducible apply keeps_bump | with_reducible apply keeps_countMismatch
    | with_reducible apply keeps_enterResult | with_reducible apply keeps_putSat | with_reducible apply keeps_setCorLane
    | with_reducible apply keeps_ite | with_reducible apply keepsO_ite | with_reducible apply keepsO_some | with_reducible exact keepsO_none
    | (simp only [keeps_mk]; first | with_reducible apply Keeps.parts | refine Keeps.parts' ?_ rfl) | dsimp only | split

theorem keeps_lineLate {base : State} {s : State} {before : List Nat} (h0 : Keeps base s) :
    Keeps base (State.lineLate s before) := by
  unfold State.lineLate
  try dsimp only
  repeat' first
    | with_reducible assumption | with_reducible apply keeps_putSat | with_reducible apply keeps_ite
    | (simp only [keeps_mk]; first | with_reducible apply Keeps.parts | refine Keeps.parts' ?_ rfl) | dsimp only | split

theorem keeps_execLaneResult {base : State} {lane : Nat} {w : Nat} {transit : Nat} {mismatch : Bool} {err : Int} {s : State} (h0 : Keeps base s) :
    KeepsX base (execLaneResult lane w transit mismatch err s) := by
  unfold execLaneResult
  try dsimp only
  repeat' first
    | with_reducible assumption | with_reducible apply keeps_elapse | with_reducible apply keeps_laneResult
    | with_reducible apply keeps_lineLate | with_reducible apply keeps_ite | with_reducible apply keepsX_next
    | with_reducible exact keepsX_fault | with_reducible apply keepsX_ite | dsimp only | split

theorem keeps_execLaneStall {base : State} {lane : Nat} {s : State} (h0 : Keeps base s) :
    KeepsX base (execLaneStall lane s) := by
  unfold execLaneStall
  try dsimp only
  repeat' first
    | with_reducible assumption | with_reducible apply keeps_failCorLane | with_reducible apply keeps_setCorLane
    | with_reducible apply keeps_ite | with_reducible apply keepsX_next | with_reducible exact keepsX_fault
    | with_reducible apply keepsX_ite | with_reducible apply keepsO_ite | with_reducible apply keepsO_some
    | with_reducible exact keepsO_none | (simp only [keeps_mk]; first | with_reducible apply Keeps.parts | refine Keeps.parts' ?_ rfl)
    | dsimp only | split

theorem keeps_clearCor {base : State} {s : State} (h0 : Keeps base s) :
    Keeps base (State.clearCor s) := by
  unfold State.clearCor
  try dsimp only
  repeat' first
    | with_reducible assumption | with_reducible apply keeps_put | with_reducible apply keeps_setWord | with_reducible apply keeps_foldl
    | with_reducible apply keeps_foldl_fst | dsimp only | (intro _; intros; try dsimp only)

theorem keeps_execCorClrCounters {base : State} {s : State} (h0 : Keeps base s) :
    KeepsX base (execCorClrCounters s) := by
  unfold execCorClrCounters
  try dsimp only
  repeat' first
    | with_reducible assumption | with_reducible apply keeps_clearCor | with_reducible apply keeps_host | with_reducible apply keepsX_next
    | with_reducible exact keepsX_fault | with_reducible apply keepsX_ite | with_reducible apply keepsO_ite
    | with_reducible apply keepsO_some | with_reducible exact keepsO_none | dsimp only

theorem keeps_hostBankSwap {base : State} {s : State} (h0 : Keeps base s) :
    KeepsO base (State.hostBankSwap s) := by
  unfold State.hostBankSwap
  try dsimp only
  repeat' first
    | with_reducible assumption | with_reducible apply keeps_allow | with_reducible apply keeps_put | with_reducible apply keepsO_ite
    | with_reducible apply keepsO_some | with_reducible exact keepsO_none | dsimp only | (intro _; intros; try dsimp only)

theorem keeps_execBankSwap {base : State} {s : State} (h0 : Keeps base s) :
    KeepsX base (execBankSwap s) := by
  unfold execBankSwap
  try dsimp only
  repeat' first
    | with_reducible assumption | with_reducible apply keeps_host | with_reducible apply keeps_hostBankSwap
    | with_reducible apply keepsX_next | with_reducible exact keepsX_fault | with_reducible apply keepsX_ite | dsimp only
    | (intro _; intros; try dsimp only)

theorem keeps_hostTableSwap {base : State} {s : State} (h0 : Keeps base s) :
    KeepsO base (State.hostTableSwap s) := by
  unfold State.hostTableSwap
  try dsimp only
  repeat' first
    | with_reducible assumption | with_reducible apply keeps_allow | with_reducible apply keeps_put | with_reducible apply keepsO_ite
    | with_reducible apply keepsO_some | with_reducible exact keepsO_none | dsimp only | (intro _; intros; try dsimp only)

theorem keeps_execTableSwap {base : State} {s : State} (h0 : Keeps base s) :
    KeepsX base (execTableSwap s) := by
  unfold execTableSwap
  try dsimp only
  repeat' first
    | with_reducible assumption | with_reducible apply keeps_host | with_reducible apply keeps_hostTableSwap
    | with_reducible apply keepsX_next | with_reducible exact keepsX_fault | with_reducible apply keepsX_ite | dsimp only
    | (intro _; intros; try dsimp only)

theorem keeps_noteHeader {base : State} {s : State} {b : Nat} {off : Nat} (h0 : Keeps base s) :
    Keeps base (State.noteHeader s b off) := by
  unfold State.noteHeader
  try dsimp only
  repeat' first
    | with_reducible assumption | with_reducible apply keeps_ite
    | (simp only [keeps_mk]; first | with_reducible apply Keeps.parts | refine Keeps.parts' ?_ rfl) | dsimp only | split

theorem keeps_storeBank {base : State} {s : State} {a : Nat} {b : Nat} {off : Nat} {w : Word} (h0 : Keeps base s) :
    KeepsO base (State.storeBank s a b off w) := by
  unfold State.storeBank
  try dsimp only
  repeat' first
    | with_reducible assumption | with_reducible apply keeps_noteHeader | with_reducible apply keeps_setMemWord
    | with_reducible apply keeps_ite | with_reducible apply keepsO_ite | with_reducible apply keepsO_some | with_reducible exact keepsO_none
    | (simp only [keeps_mk]; first | with_reducible apply Keeps.parts | refine Keeps.parts' ?_ rfl) | dsimp only | split

theorem keeps_storeTable {base : State} {s : State} {a : Nat} {t : Nat} {w : Word} (h0 : Keeps base s) :
    KeepsO base (State.storeTable s a t w) := by
  unfold State.storeTable
  try dsimp only
  repeat' first
    | with_reducible assumption | with_reducible apply keeps_setMemWord | with_reducible apply keeps_ite | with_reducible apply keepsO_ite
    | with_reducible apply keepsO_some | with_reducible exact keepsO_none | dsimp only | split

theorem keeps_storePartWord {o : State} {s : State} {a : Nat} {w : Word} {p : StorePart} (h0 : Keeps o s) :
    KeepsO o (State.storePartWord s a w p) := by
  cases p with
  | reserved => exact keepsO_some h0
  | table t => exact keepsO_ite keepsO_none (keepsO_some (keeps_setMemWord h0))
  | bank b off => exact keeps_storeBank h0

theorem keeps_hostStoreWord {base : State} {s : State} {a : Nat} {w : Word} (h0 : Keeps base s) :
    KeepsO base (State.hostStoreWord s a w) := by
  unfold State.hostStoreWord
  try dsimp only
  repeat' first
    | with_reducible assumption | with_reducible apply keeps_storePartWord | with_reducible apply keepsO_ite
    | with_reducible apply keepsO_some | with_reducible exact keepsO_none | dsimp only

theorem keeps_execCoefficientWindowWrite {base : State} {addr : Nat} {words : List (BitVec 32)} {s : State} (h0 : Keeps base s) :
    KeepsX base (execCoefficientWindowWrite addr words s) := by
  unfold execCoefficientWindowWrite
  try dsimp only
  repeat' first
    | with_reducible assumption | with_reducible apply keeps_hostFrame | with_reducible apply keeps_hostStoreWord
    | with_reducible apply keeps_ite | with_reducible apply keepsX_next | with_reducible exact keepsX_fault
    | with_reducible apply keepsX_ite | dsimp only | split | (intro _; intros; try dsimp only)

theorem keeps_applySwaps {base : State} {s : State} (h0 : Keeps base s) :
    Keeps base (State.applySwaps s).1 := by
  unfold State.applySwaps
  try dsimp only
  repeat' first
    | with_reducible assumption | with_reducible apply keeps_put | with_reducible apply keeps_ite | with_reducible apply keeps_ite_fst
    | with_reducible apply keepsO_ite | with_reducible apply keepsO_some | with_reducible exact keepsO_none
    | (simp only [keeps_mk]; first | with_reducible apply Keeps.parts | refine Keeps.parts' ?_ rfl) | dsimp only | split

theorem keeps_firstHeader {base : State} {s : State} {k : Nat} {v : Int} (h0 : Keeps base s) :
    Keeps base (State.firstHeader s k v) := by
  unfold State.firstHeader
  try dsimp only
  repeat' first
    | with_reducible assumption | with_reducible apply keeps_noteHeader | with_reducible apply keeps_putBytes
    | with_reducible apply keeps_ite | (simp only [keeps_mk]; first | with_reducible apply Keeps.parts | refine Keeps.parts' ?_ rfl)
    | dsimp only | split | (intro _; intros; try dsimp only)

theorem keeps_firstReadings {base : State} {s : State} (h0 : Keeps base s) :
    Keeps base (State.firstReadings s) := by
  unfold State.firstReadings
  try dsimp only
  repeat' first
    | with_reducible assumption | with_reducible apply keeps_firstHeader | with_reducible apply keeps_ite | with_reducible apply keepsO_ite
    | with_reducible apply keepsO_some | with_reducible exact keepsO_none
    | (simp only [keeps_mk]; first | with_reducible apply Keeps.parts | refine Keeps.parts' ?_ rfl) | with_reducible apply keeps_foldl
    | with_reducible apply keeps_foldl_fst | dsimp only | split | (intro _; intros; try dsimp only)

theorem keeps_substrate {base : State} {s : State} (h0 : Keeps base s) :
    Keeps base (State.substrate s) := by
  unfold State.substrate
  try dsimp only
  repeat' first
    | with_reducible assumption | with_reducible apply keeps_emit | with_reducible apply keeps_put | with_reducible apply keeps_putS
    | with_reducible apply keeps_ite | with_reducible apply keepsO_ite | with_reducible apply keepsO_some | with_reducible exact keepsO_none
    | (simp only [keeps_mk]; first | with_reducible apply Keeps.parts | refine Keeps.parts' ?_ rfl) | (simp only [id]; assumption)
    | with_reducible apply keeps_foldl | with_reducible apply keeps_foldl_fst | dsimp only | split | (intro _; intros; try dsimp only)

theorem keeps_applyGleaned {base : State} {s : State} {swapped : Bool} (h0 : Keeps base s) :
    Keeps base (State.applyGleaned s swapped) := by
  unfold State.applyGleaned
  try dsimp only
  repeat' first
    | with_reducible assumption | with_reducible apply keeps_ite
    | (simp only [keeps_mk]; first | with_reducible apply Keeps.parts | refine Keeps.parts' ?_ rfl) | dsimp only | split

end Sys2Proof.Laws
end

