-- ==== Sys2Proof/Laws/Keeps/Walk.lean ====
section
/-! SUPPORT. Machine/Walk.lean keeps the queue, the canonical form and one actuation per valve. -/

namespace Sys2Proof.Laws

open Sys2Proof.Machine Sys2Proof.Safety

theorem keeps_formField {base : State} {s : State} {n : Nat} (h0 : Keeps base s) :
    Keeps base (State.formField s n) := by
  unfold State.formField
  try dsimp only
  repeat' first
    | with_reducible assumption | with_reducible apply keeps_bump | with_reducible apply keeps_ite | with_reducible apply keepsO_ite
    | with_reducible apply keepsO_some | with_reducible exact keepsO_none
    | (simp only [keeps_mk]; first | with_reducible apply Keeps.parts | with_reducible apply Keeps.partsKeep | with_reducible apply Keeps.partsFallow | refine Keeps.parts' ?_ rfl)
    | dsimp only | split | (intro _; intros; try dsimp only)

theorem keeps_useSpeed {base : State} {s : State} (h0 : Keeps base s) :
    Keeps base (State.useSpeed s) := by
  unfold State.useSpeed
  try dsimp only
  repeat' first
    | with_reducible assumption | with_reducible apply keeps_put | with_reducible apply keeps_putFlag | with_reducible apply keeps_putSat
    | dsimp only

theorem keeps_transferCor {base : State} {s : State} (h0 : Keeps base s) :
    Keeps base (State.transferCor s) := by
  unfold State.transferCor
  try dsimp only
  repeat' first
    | with_reducible assumption | with_reducible apply keeps_transfer | with_reducible apply keeps_ite
    | (simp only [keeps_mk]; first | with_reducible apply Keeps.parts | refine Keeps.parts' ?_ rfl) | dsimp only | split
    | (intro _; intros; try dsimp only)

theorem keeps_lagTable {base : State} {s : State} {written : Bool} (h0 : Keeps base s) :
    Keeps base (State.lagTable s written) := by
  unfold State.lagTable
  try dsimp only
  repeat' first
    | with_reducible assumption | with_reducible apply keeps_put | with_reducible apply keeps_putFlag | with_reducible apply keeps_written
    | with_reducible apply keeps_ite | with_reducible apply keepsO_ite | with_reducible apply keepsO_some | with_reducible exact keepsO_none
    | (simp only [keeps_mk]; first | with_reducible apply Keeps.parts | refine Keeps.parts' ?_ rfl) | dsimp only | split

theorem keeps_execLagTableBuilt {base : State} {s : State} (h0 : Keeps base s) :
    KeepsX base (execLagTableBuilt s) := by
  unfold execLagTableBuilt
  try dsimp only
  repeat' first
    | with_reducible assumption | with_reducible apply keepsX_next | with_reducible exact keepsX_fault | with_reducible apply keepsX_ite
    | with_reducible apply keepsO_ite | with_reducible apply keepsO_some | with_reducible exact keepsO_none
    | (simp only [keeps_mk]; first | with_reducible apply Keeps.parts | refine Keeps.parts' ?_ rfl) | dsimp only | split

theorem keeps_lagLine {base : State} {s : State} {newBank : Bool} (h0 : Keeps base s) :
    Keeps base (State.lagLine s newBank).1 := by
  unfold State.lagLine
  try dsimp only
  repeat' first
    | with_reducible assumption | with_reducible apply keeps_bump | with_reducible apply keeps_putFlag | with_reducible apply keeps_ite
    | with_reducible apply keeps_ite_fst | dsimp only | split

theorem keeps_suspendLine {base : State} {s : State} (h0 : Keeps base s) :
    Keeps base (State.suspendLine s) := by
  unfold State.suspendLine
  try dsimp only
  repeat' first
    | with_reducible assumption | with_reducible apply keeps_bump | with_reducible apply keeps_ite
    | (simp only [keeps_mk]; first | with_reducible apply Keeps.parts | refine Keeps.parts' ?_ rfl) | dsimp only | split

theorem keeps_beginEnv {base : State} {s : State} {newBank : Bool} (h0 : Keeps base s) :
    Keeps base (State.beginEnv s newBank) := by
  unfold State.beginEnv
  try dsimp only
  repeat' first
    | with_reducible assumption | with_reducible apply keeps_lagLine | with_reducible apply keeps_lagTable
    | with_reducible apply keeps_transferCor | with_reducible apply keeps_useSpeed | with_reducible apply keeps_written
    | (simp only [keeps_mk]; first | with_reducible apply Keeps.parts | refine Keeps.parts' ?_ rfl) | dsimp only
    | (intro _; intros; try dsimp only)

theorem keeps_discontinuity {base : State} {s : State} (h0 : Keeps base s) :
    Keeps base (State.discontinuity s) := by
  unfold State.discontinuity
  try dsimp only
  repeat' first
    | with_reducible assumption | (simp only [keeps_mk]; first | with_reducible apply Keeps.parts | refine Keeps.parts' ?_ rfl) | dsimp only

theorem keeps_clearWalk {base : State} {s : State} (h0 : Keeps base s) :
    Keeps base (State.clearWalk s) := by
  unfold State.clearWalk
  try dsimp only
  repeat' first
    | with_reducible assumption | with_reducible apply keeps_setWord | dsimp only

theorem keeps_execWalkClrCounters {base : State} {s : State} (h0 : Keeps base s) :
    KeepsX base (execWalkClrCounters s) := by
  unfold execWalkClrCounters
  try dsimp only
  repeat' first
    | with_reducible assumption | with_reducible apply keeps_clearWalk | with_reducible apply keeps_host | with_reducible apply keepsX_next
    | with_reducible exact keepsX_fault | with_reducible apply keepsX_ite | with_reducible apply keepsO_ite
    | with_reducible apply keepsO_some | with_reducible exact keepsO_none | dsimp only

end Sys2Proof.Laws
end

