-- ==== Sys2Proof/Laws/Keeps/Sheaves.lean ====
section
/-! SUPPORT. Machine/Sheaves.lean keeps the queue, the canonical form and one actuation per valve. -/

namespace Sys2Proof.Laws

open Sys2Proof.Machine Sys2Proof.Safety

theorem keeps_putSheaf {base : State} {s : State} {x : Sheaf} (h0 : Keeps base s) :
    Keeps base (State.putSheaf s x) := by
  unfold State.putSheaf
  try dsimp only
  repeat' first
    | with_reducible assumption | (simp only [keeps_mk]; first | with_reducible apply Keeps.parts | refine Keeps.parts' ?_ rfl) | dsimp only

theorem keeps_onSheaf {base : State} {s : State} {slot : Nat} {f : Sheaf → Sheaf} (h0 : Keeps base s) :
    Keeps base (State.onSheaf s slot f) := by
  unfold State.onSheaf
  try dsimp only
  repeat' first
    | with_reducible assumption | with_reducible apply keeps_putSheaf | with_reducible apply keepsO_ite | with_reducible apply keepsO_some
    | with_reducible exact keepsO_none | (simp only [keeps_mk]; first | with_reducible apply Keeps.parts | refine Keeps.parts' ?_ rfl)
    | dsimp only | split

theorem keeps_liveUpdate {base : State} {s : State} (h0 : Keeps base s) :
    Keeps base (State.liveUpdate s) := by
  unfold State.liveUpdate
  try dsimp only
  repeat' first
    | with_reducible assumption | with_reducible apply keeps_put | with_reducible apply keeps_ite | dsimp only | split

theorem keeps_accrue {base : State} {s : State} (h0 : Keeps base s) :
    Keeps base (State.accrue s) := by
  unfold State.accrue
  try dsimp only
  repeat' first
    | with_reducible assumption | (simp only [keeps_mk]; first | with_reducible apply Keeps.parts | refine Keeps.parts' ?_ rfl) | dsimp only

theorem keeps_takeBlock {base : State} {s : State} (h0 : Keeps base s) :
    KeepsP base (State.takeBlock s) := by
  unfold State.takeBlock
  try dsimp only
  repeat' first
    | with_reducible assumption | with_reducible apply keepsO_ite | with_reducible apply keepsO_some | with_reducible exact keepsO_none
    | with_reducible apply keepsP_ite | with_reducible apply keepsP_some | with_reducible exact keepsP_none
    | (simp only [keeps_mk]; first | with_reducible apply Keeps.parts | refine Keeps.parts' ?_ rfl) | dsimp only | split

theorem keeps_takeTile {base : State} {s : State} {x : Sheaf} {t : Nat} (h0 : Keeps base s) :
    KeepsP base (State.takeTile s x t) := by
  unfold State.takeTile
  try dsimp only
  repeat' first
    | with_reducible assumption | with_reducible apply keeps_takeBlock | with_reducible apply keeps_ite | with_reducible apply keepsO_ite
    | with_reducible apply keepsO_some | with_reducible exact keepsO_none | with_reducible apply keepsP_ite
    | with_reducible apply keepsP_some | with_reducible exact keepsP_none
    | (simp only [keeps_mk]; first | with_reducible apply Keeps.parts | refine Keeps.parts' ?_ rfl) | (refine KeepsP.use (by assumption) ?_)
    | dsimp only | split | (intro _; intros; try dsimp only)

theorem keeps_takeTiles {o : State} {s : State} {x : Sheaf} {ts : List Nat} (h0 : Keeps o s) : KeepsP o (State.takeTiles s x ts) := by
  induction ts generalizing s x with
  | nil => exact keepsP_some h0
  | cons t ts ih =>
    unfold State.takeTiles
    split
    · exact keepsP_none
    · exact ih (KeepsP.use (by assumption) (keeps_takeTile h0))

theorem keeps_thumbBuild {base : State} {s : State} {x : Sheaf} (h0 : Keeps base s) :
    Keeps base (State.thumbBuild s x).1 := by
  unfold State.thumbBuild
  try dsimp only
  repeat' first
    | with_reducible assumption | with_reducible apply keeps_bump | with_reducible apply keeps_draw | with_reducible apply keeps_queueWrite
    | with_reducible apply keeps_ite | with_reducible apply keeps_ite_fst
    | (simp only [keeps_mk]; first | with_reducible apply Keeps.parts | refine Keeps.parts' ?_ rfl) | dsimp only | split

theorem keeps_reachDone {base : State} {s : State} {slot : Nat} (h0 : Keeps base s) :
    Keeps base (State.reachDone s slot) := by
  unfold State.reachDone
  try dsimp only
  repeat' first
    | with_reducible assumption | with_reducible apply keeps_putSheaf | with_reducible apply keeps_thumbBuild
    | with_reducible apply keepsO_ite | with_reducible apply keepsO_some | with_reducible exact keepsO_none
    | (simp only [keeps_mk]; first | with_reducible apply Keeps.parts | refine Keeps.parts' ?_ rfl)
    | (refine Keeps.ofPair (by assumption) ?_) | dsimp only | split

theorem keeps_freeSheaf {base : State} {s : State} {slot : Nat} (h0 : Keeps base s) :
    Keeps base (State.freeSheaf s slot) := by
  unfold State.freeSheaf
  try dsimp only
  repeat' first
    | with_reducible assumption | with_reducible apply keeps_liveUpdate | with_reducible apply keeps_putSat
    | with_reducible apply keeps_putSheaf | with_reducible apply keeps_ite | with_reducible apply keepsO_ite
    | with_reducible apply keepsO_some | with_reducible exact keepsO_none
    | (simp only [keeps_mk]; first | with_reducible apply Keeps.parts | refine Keeps.parts' ?_ rfl) | dsimp only | split
    | (intro _; intros; try dsimp only)

theorem keeps_queueUpdate {base : State} {s : State} (h0 : Keeps base s) :
    Keeps base (State.queueUpdate s) := by
  unfold State.queueUpdate
  try dsimp only
  repeat' first
    | with_reducible assumption | with_reducible apply keeps_put | with_reducible apply keeps_ite | dsimp only | split
    | (intro _; intros; try dsimp only)

end Sys2Proof.Laws
end

