-- ==== Sys2Proof/Laws/Keeps/Flight.lean ====
section
/-! SUPPORT. Machine/Flight.lean keeps the queue, the canonical form and one actuation per valve. -/

namespace Sys2Proof.Laws

open Sys2Proof.Machine Sys2Proof.Safety

theorem keeps_leadLimited {base : State} {s : State} {v : Nat} {lead : Nat} {b : Bool} (h0 : Keeps base s) :
    Keeps base (State.leadLimited s v lead b) := by
  unfold State.leadLimited
  try dsimp only
  repeat' first
    | with_reducible assumption | with_reducible apply keeps_emit | with_reducible apply keeps_putFlag | with_reducible apply keeps_ite
    | (simp only [keeps_mk]; first | with_reducible apply Keeps.parts | refine Keeps.parts' ?_ rfl) | dsimp only | split

theorem keeps_useLead {base : State} {s : State} {v : Nat} (h0 : Keeps base s) :
    Keeps base (State.useLead s v).1 := by
  unfold State.useLead
  try dsimp only
  repeat' first
    | with_reducible assumption | with_reducible apply keeps_leadLimited | with_reducible apply keeps_ite_fst | dsimp only

theorem keeps_sealFlight {base : State} {s : State} {c : Ctx} {lines : Nat} (h0 : Keeps base s) :
    Keeps base (State.sealFlight s c lines).1 := by
  unfold State.sealFlight
  try dsimp only
  repeat' first
    | with_reducible assumption | with_reducible apply keeps_draw | with_reducible apply keeps_leave | with_reducible apply keeps_ite
    | with_reducible apply keeps_ite_fst | with_reducible apply keepsO_ite | with_reducible apply keepsO_some
    | with_reducible exact keepsO_none | (simp only [keeps_mk]; first | with_reducible apply Keeps.parts | refine Keeps.parts' ?_ rfl)
    | dsimp only | split

theorem keeps_sealGates {o : State} {s : State} {start : Int} {vs : List Nat} (h0 : Keeps o s) : Keeps o (State.sealGates s start vs).1 := by
  induction vs generalizing s with
  | nil => exact h0
  | cons v vs ih => exact ih (keeps_useLead h0)

theorem keeps_sealPlan {base : State} {s : State} {c : Ctx} {lines : Nat} (h0 : Keeps base s) :
    Keeps base (State.sealPlan s c lines).1 := by
  unfold State.sealPlan
  try dsimp only
  repeat' first
    | with_reducible assumption | with_reducible apply keeps_sealFlight | with_reducible apply keeps_sealGates
    | with_reducible apply keeps_ite | with_reducible apply keeps_ite_fst
    | (simp only [keeps_mk]; first | with_reducible apply Keeps.parts | refine Keeps.parts' ?_ rfl) | dsimp only | split
    | (intro _; intros; try dsimp only)

end Sys2Proof.Laws
end

