-- ==== Sys2Proof/Laws/Keeps/Matrix.lean ====
section
/-! SUPPORT. Machine/Matrix.lean keeps the queue, the canonical form and one actuation per valve. -/

namespace Sys2Proof.Laws

open Sys2Proof.Machine Sys2Proof.Safety

theorem keeps_onPlan {base : State} {s : State} {o : Nat} {f : Plan → Plan} (h0 : Keeps base s) :
    Keeps base (State.onPlan s o f) := by
  unfold State.onPlan
  try dsimp only
  repeat' first
    | with_reducible assumption | with_reducible apply keeps_onSheaf | with_reducible apply keeps_ite | with_reducible apply keepsO_ite
    | with_reducible apply keepsO_some | with_reducible exact keepsO_none
    | (simp only [keeps_mk]; first | with_reducible apply Keeps.parts | refine Keeps.parts' ?_ rfl) | dsimp only | split
    | (intro _; intros; try dsimp only)

theorem keeps_onEntries {base : State} {s : State} {os : List (Nat × Nat)} {f : PlanEntry → PlanEntry} (h0 : Keeps base s) :
    Keeps base (State.onEntries s os f) := by
  unfold State.onEntries
  try dsimp only
  repeat' first
    | with_reducible assumption | with_reducible apply keeps_onPlan | with_reducible apply keeps_foldl
    | with_reducible apply keeps_foldl_fst | dsimp only | (intro _; intros; try dsimp only)

theorem keeps_markEntries {base : State} {s : State} {os : List (Nat × Nat)} {k : Nat} (h0 : Keeps base s) :
    Keeps base (State.markEntries s os k) := by
  unfold State.markEntries
  try dsimp only
  repeat' first
    | with_reducible assumption | with_reducible apply keeps_onEntries | dsimp only | (intro _; intros; try dsimp only)

theorem keeps_closePlan {base : State} {s : State} {o : Nat} (h0 : Keeps base s) :
    Keeps base (State.closePlan s o) := by
  unfold State.closePlan
  try dsimp only
  repeat' first
    | with_reducible assumption | with_reducible apply keeps_onPlan | with_reducible apply keeps_outcome
    | with_reducible apply keeps_reachDone | with_reducible apply keeps_ite | with_reducible apply keepsO_ite
    | with_reducible apply keepsO_some | with_reducible exact keepsO_none
    | (simp only [keeps_mk]; first | with_reducible apply Keeps.parts | refine Keeps.parts' ?_ rfl) | dsimp only | split
    | (intro _; intros; try dsimp only)

theorem keeps_endEntries {base : State} {s : State} {os : List (Nat × Nat)} (h0 : Keeps base s) :
    Keeps base (State.endEntries s os) := by
  unfold State.endEntries
  try dsimp only
  repeat' first
    | with_reducible assumption | with_reducible apply keeps_closePlan | with_reducible apply keeps_onEntries
    | (simp only [keeps_mk]; first | with_reducible apply Keeps.parts | refine Keeps.parts' ?_ rfl) | with_reducible apply keeps_foldl
    | with_reducible apply keeps_foldl_fst | dsimp only | (intro _; intros; try dsimp only)

theorem keeps_setEnabled {base : State} {s : State} {b : Bool} (h0 : Keeps base s) :
    Keeps base (State.setEnabled s b) := by
  unfold State.setEnabled
  try dsimp only
  repeat' first
    | with_reducible assumption | with_reducible apply keeps_putFlag | dsimp only

theorem keeps_showValve {base : State} {s : State} {v : Nat} (h0 : Keeps base s) :
    Keeps base (State.showValve s v) := by
  unfold State.showValve
  try dsimp only
  repeat' first
    | with_reducible assumption | with_reducible apply keeps_put | with_reducible apply keeps_putFlag | with_reducible apply keeps_ite
    | dsimp only | split | (intro _; intros; try dsimp only)

theorem keeps_showMatrix {base : State} {s : State} (h0 : Keeps base s) :
    Keeps base (State.showMatrix s) := by
  unfold State.showMatrix
  try dsimp only
  repeat' first
    | with_reducible assumption | with_reducible apply keeps_put | with_reducible apply keeps_putFlag | with_reducible apply keeps_foldl
    | with_reducible apply keeps_foldl_fst | dsimp only | (intro _; intros; try dsimp only)

theorem keeps_shareMarks {base : State} {s : State} (h0 : Keeps base s) :
    Keeps base (State.shareMarks s) := by
  unfold State.shareMarks
  try dsimp only
  repeat' first
    | with_reducible assumption | with_reducible apply keeps_markEntries
    | (simp only [keeps_mk]; first | with_reducible apply Keeps.parts | refine Keeps.partsActs ?_ (sub_map fun _ => rfl) | refine Keeps.partsActs ?_ sub_filter | refine Keeps.partsActs ?_ (sub_map fun _ => by split <;> first | rfl | (symm; assumption)) | refine Keeps.partsNew ?_ rfl | refine Keeps.parts' ?_ rfl)
    | with_reducible apply keeps_foldl | with_reducible apply keeps_foldl_fst | dsimp only | (intro _; intros; try dsimp only)

theorem keeps_putSwitch {base : State} {s : State} {c : Nat} {b : Bool} (h0 : Keeps base s) :
    Keeps base (State.putSwitch s c b) := by
  unfold State.putSwitch
  try dsimp only
  repeat' first
    | with_reducible assumption | with_reducible apply keeps_ite
    | (simp only [keeps_mk]; first | with_reducible apply Keeps.parts | refine Keeps.parts' ?_ rfl) | dsimp only | split

theorem keeps_putChop {base : State} {s : State} {c : Nat} {t : Option Int} (h0 : Keeps base s) :
    Keeps base (State.putChop s c t) := by
  unfold State.putChop
  try dsimp only
  repeat' first
    | with_reducible assumption | with_reducible apply keepsO_ite | with_reducible apply keepsO_some | with_reducible exact keepsO_none
    | (simp only [keeps_mk]; first | with_reducible apply Keeps.parts | refine Keeps.parts' ?_ rfl) | dsimp only | split

theorem keeps_moveSwitch {base : State} {s : State} {c : Nat} {was : Bool} {boosted : Bool} (h0 : Keeps base s) :
    Keeps base (State.moveSwitch s c was boosted) := by
  unfold State.moveSwitch
  try dsimp only
  repeat' first
    | with_reducible assumption | with_reducible apply keeps_putChop | with_reducible apply keeps_putSwitch | with_reducible apply keeps_ite
    | with_reducible apply keepsO_ite | with_reducible apply keepsO_some | with_reducible exact keepsO_none | dsimp only | split

theorem keeps_moveSwitches {base : State} {s : State} {o : State} (h0 : Keeps base s) (h1 : Keeps base o) :
    Keeps base (State.moveSwitches s o) := by
  unfold State.moveSwitches
  try dsimp only
  repeat' first
    | with_reducible assumption | with_reducible apply keeps_moveSwitch | with_reducible apply keeps_ite
    | (simp only [keeps_mk]; first | with_reducible apply Keeps.parts | refine Keeps.parts' ?_ rfl) | with_reducible apply keeps_foldl
    | with_reducible apply keeps_foldl_fst | dsimp only | split | (intro _; intros; try dsimp only)

theorem keeps_settle {base : State} {s : State} {before : List Nat} {cross : List Nat} (h0 : Keeps base s) :
    Keeps base (State.settle s before cross) := by
  unfold State.settle
  try dsimp only
  repeat' first
    | with_reducible assumption | with_reducible apply keeps_shareMarks | with_reducible apply keeps_showMatrix
    | with_reducible apply keeps_showValve | with_reducible apply keeps_ite
    | (simp only [keeps_mk]; first | with_reducible apply Keeps.parts | refine Keeps.parts' ?_ rfl) | with_reducible apply keeps_foldl
    | with_reducible apply keeps_foldl_fst | dsimp only | split | (intro _; intros; try dsimp only)

theorem keeps_putAct {base : State} {s : State} {a : Act} (h0 : Keeps base s) :
    Keeps base (State.putAct s a) := by
  unfold State.putAct
  try dsimp only
  repeat' first
    | with_reducible assumption | with_reducible apply keeps_ite
    | (simp only [keeps_mk]; first | with_reducible apply Keeps.parts | refine Keeps.partsActs ?_ (sub_map fun _ => rfl) | refine Keeps.partsActs ?_ sub_filter | refine Keeps.partsActs ?_ (sub_map fun _ => by split <;> first | rfl | (symm; assumption)) | refine Keeps.partsNew ?_ rfl | refine Keeps.parts' ?_ rfl)
    | dsimp only | split | (intro _; intros; try dsimp only)

theorem keeps_dropAct {base : State} {s : State} {v : Nat} (h0 : Keeps base s) :
    Keeps base (State.dropAct s v) := by
  unfold State.dropAct
  try dsimp only
  repeat' first
    | with_reducible assumption
    | (simp only [keeps_mk]; first | with_reducible apply Keeps.parts | refine Keeps.partsActs ?_ (sub_map fun _ => rfl) | refine Keeps.partsActs ?_ sub_filter | refine Keeps.partsActs ?_ (sub_map fun _ => by split <;> first | rfl | (symm; assumption)) | refine Keeps.partsNew ?_ rfl | refine Keeps.parts' ?_ rfl)
    | dsimp only | (intro _; intros; try dsimp only)

theorem keeps_change {base : State} {s : State} {f : State → State} (h0 : Keeps base s) (k1 : ∀ t, Keeps base t → Keeps base (f t)) :
    Keeps base (State.change s f) := by
  unfold State.change
  try dsimp only
  repeat' first
    | with_reducible assumption | with_reducible apply k1 | with_reducible apply keeps_moveSwitches | with_reducible apply keeps_settle
    | dsimp only | (intro _; intros; try dsimp only)

theorem keeps_hotUpdate {base : State} {s : State} (h0 : Keeps base s) :
    Keeps base (State.hotUpdate s) := by
  unfold State.hotUpdate
  try dsimp only
  repeat' first
    | with_reducible assumption | with_reducible apply keeps_putFlag | dsimp only | (intro _; intros; try dsimp only)

theorem keeps_thetaEnd {base : State} {s : State} {v : Nat} {i2t : Rat} (h0 : Keeps base s) :
    Keeps base (State.thetaEnd s v i2t) := by
  unfold State.thetaEnd
  try dsimp only
  repeat' first
    | with_reducible assumption | with_reducible apply keeps_hotUpdate | with_reducible apply keeps_putSat
    | (simp only [keeps_mk]; first | with_reducible apply Keeps.parts | refine Keeps.parts' ?_ rfl) | dsimp only

theorem keeps_setEnergy {base : State} {s : State} {e : Rat} (h0 : Keeps base s) :
    Keeps base (State.setEnergy s e) := by
  unfold State.setEnergy
  try dsimp only
  repeat' first
    | with_reducible assumption | with_reducible apply keeps_putFlag | with_reducible apply keeps_putSat
    | (simp only [keeps_mk]; first | with_reducible apply Keeps.parts | refine Keeps.parts' ?_ rfl) | dsimp only

theorem keeps_unseen {o : State} {s : State} {k : Nat} (h0 : Keeps o s) : Keeps o (State.unseen s k).1 := by
  induction k generalizing s with
  | zero => exact h0
  | succ k ih => exact ih (keeps_draw h0)

theorem keeps_columnSpan {base : State} {s : State} {c : Nat} {blank : Nat} {codes : List Nat} (h0 : Keeps base s) :
    Keeps base (State.columnSpan s c blank codes) := by
  unfold State.columnSpan
  try dsimp only
  repeat' first
    | with_reducible assumption | with_reducible apply keeps_ite
    | (simp only [keeps_mk]; first | with_reducible apply Keeps.parts | refine Keeps.partsActs ?_ (sub_map fun _ => rfl) | refine Keeps.partsActs ?_ sub_filter | refine Keeps.partsActs ?_ (sub_map fun _ => by split <;> first | rfl | (symm; assumption)) | refine Keeps.partsNew ?_ rfl | refine Keeps.parts' ?_ rfl)
    | dsimp only | split | (intro _; intros; try dsimp only)

theorem keeps_cutSpan {base : State} {s : State} {c : Nat} (h0 : Keeps base s) :
    Keeps base (State.cutSpan s c) := by
  unfold State.cutSpan
  try dsimp only
  repeat' first
    | with_reducible assumption | with_reducible apply keeps_columnSpan | with_reducible apply keeps_unseen | with_reducible apply keeps_ite
    | with_reducible apply keeps_ite_fst | with_reducible apply keepsX_next | with_reducible exact keepsX_fault
    | with_reducible apply keepsX_ite | with_reducible apply keepsO_ite | with_reducible apply keepsO_some
    | with_reducible exact keepsO_none | with_reducible apply keepsP_ite | with_reducible apply keepsP_some
    | with_reducible exact keepsP_none | (simp only [keeps_mk]; first | with_reducible apply Keeps.parts | refine Keeps.parts' ?_ rfl)
    | (refine KeepsO.use (by assumption) ?_) | (refine KeepsP.use (by assumption) ?_) | (refine Keeps.ofPair (by assumption) ?_)
    | dsimp only | split | (intro _; intros; try dsimp only)

theorem keeps_ePullLearn {base : State} {s : State} {v : Nat} {charge : Rat} (h0 : Keeps base s) :
    Keeps base (State.ePullLearn s v charge) := by
  unfold State.ePullLearn
  try dsimp only
  repeat' first
    | with_reducible assumption | with_reducible apply keeps_putSat | with_reducible apply keeps_ite | with_reducible apply keepsO_ite
    | with_reducible apply keepsO_some | with_reducible exact keepsO_none
    | (simp only [keeps_mk]; first | with_reducible apply Keeps.parts | refine Keeps.parts' ?_ rfl) | dsimp only | split

theorem keeps_boostDone {base : State} {s : State} {a : Act} (h0 : Keeps base s) :
    Keeps base (State.boostDone s a) := by
  unfold State.boostDone
  try dsimp only
  repeat' first
    | with_reducible assumption | with_reducible apply keeps_bump | with_reducible apply keeps_ePullLearn
    | with_reducible apply keeps_putAct | with_reducible apply keeps_putSat | with_reducible apply keeps_ite
    | (simp only [keeps_mk]; first | with_reducible apply Keeps.parts | refine Keeps.parts' ?_ rfl) | dsimp only | split

theorem keeps_endBoost {base : State} {s : State} {v : Nat} {blank : Nat} {codes : List Nat} (h0 : Keeps base s) :
    Keeps base (State.endBoost s v blank codes) := by
  unfold State.endBoost
  try dsimp only
  repeat' first
    | with_reducible assumption | with_reducible apply keeps_boostDone | with_reducible apply keeps_columnSpan
    | with_reducible apply keeps_ite | with_reducible apply keepsO_ite | with_reducible apply keepsO_some | with_reducible exact keepsO_none
    | (simp only [keeps_mk]; first | with_reducible apply Keeps.parts | refine Keeps.parts' ?_ rfl) | dsimp only | split

theorem keeps_stopBoost {base : State} {s : State} {v : Nat} (h0 : Keeps base s) :
    Keeps base (State.stopBoost s v) := by
  unfold State.stopBoost
  try dsimp only
  repeat' first
    | with_reducible assumption | with_reducible apply keeps_cutSpan | with_reducible apply keeps_endBoost | with_reducible apply keeps_ite
    | with_reducible apply keepsO_ite | with_reducible apply keepsO_some | with_reducible exact keepsO_none | dsimp only | split
    | (intro _; intros; try dsimp only)

theorem keeps_shareExtended {base : State} {s : State} {a : Act} (h0 : Keeps base s) :
    Keeps base (State.shareExtended s a) := by
  unfold State.shareExtended
  try dsimp only
  repeat' first
    | with_reducible assumption | with_reducible apply keeps_bump | with_reducible apply keeps_emit | with_reducible apply keeps_putSat
    | with_reducible apply keeps_ite | dsimp only | split

theorem keeps_decay {base : State} {s : State} {a : Act} (h0 : Keeps base s) :
    Keeps base (State.decay s a) := by
  unfold State.decay
  try dsimp only
  repeat' first
    | with_reducible assumption | with_reducible apply keeps_putAct | with_reducible apply keeps_release
    | with_reducible apply keeps_shareExtended | with_reducible apply keeps_thetaEnd | with_reducible apply keeps_ite
    | with_reducible apply keepsO_ite | with_reducible apply keepsO_some | with_reducible exact keepsO_none
    | (simp only [keeps_mk]; first | with_reducible apply Keeps.parts | refine Keeps.parts' ?_ rfl) | dsimp only | split

theorem keeps_endOn {base : State} {s : State} {v : Nat} (h0 : Keeps base s) :
    Keeps base (State.endOn s v) := by
  unfold State.endOn
  try dsimp only
  repeat' first
    | with_reducible assumption | with_reducible apply keeps_decay | with_reducible apply keeps_stopBoost | with_reducible apply keeps_ite
    | with_reducible apply keepsO_ite | with_reducible apply keepsO_some | with_reducible exact keepsO_none
    | (simp only [keeps_mk]; first | with_reducible apply Keeps.parts | refine Keeps.parts' ?_ rfl) | dsimp only | split

theorem keeps_leaveOnce {base : State} {s : State} (h0 : Keeps base s) :
    Keeps base (State.leaveOnce s) := by
  unfold State.leaveOnce
  try dsimp only
  repeat' first
    | with_reducible assumption | with_reducible apply keeps_endOn | with_reducible apply keeps_putAct
    | (simp only [keeps_mk]; first | with_reducible apply Keeps.parts | refine Keeps.parts' ?_ rfl) | with_reducible apply keeps_foldl
    | with_reducible apply keeps_foldl_fst | dsimp only | (intro _; intros; try dsimp only)

theorem keeps_leaveAll {o : State} {s : State} {n : Nat} (h0 : Keeps o s) : Keeps o (State.leaveAll s n) := by
  induction n generalizing s with
  | zero => exact h0
  | succ n ih => exact ih (keeps_leaveOnce h0)

theorem keeps_armCheck {base : State} {s : State} (h0 : Keeps base s) :
    Keeps base (State.armCheck s) := by
  unfold State.armCheck
  try dsimp only
  repeat' first
    | with_reducible assumption | with_reducible apply keeps_arm | with_reducible apply keeps_setEnabled | with_reducible apply keeps_ite
    | dsimp only | split

theorem keeps_leave {base : State} {s : State} (h0 : Keeps base s) :
    Keeps base (State.leave s) := by
  unfold State.leave
  try dsimp only
  repeat' first
    | with_reducible assumption | with_reducible apply keeps_armCheck | with_reducible apply keeps_change
    | with_reducible apply keeps_leaveAll | dsimp only | (intro _; intros; try dsimp only)

theorem keeps_allLow {base : State} {s : State} (h0 : Keeps base s) :
    Keeps base (State.allLow s) := by
  unfold State.allLow
  try dsimp only
  repeat' first
    | with_reducible assumption | with_reducible apply keeps_change | with_reducible apply keeps_endOn | with_reducible apply keeps_foldl
    | with_reducible apply keeps_foldl_fst | dsimp only | (intro _; intros; try dsimp only)

end Sys2Proof.Laws
end

