-- ==== Sys2Proof/Laws/Keeps/Drill.lean ====
section
/-! SUPPORT. Machine/Drill.lean keeps the queue, the canonical form and one actuation per valve. -/

namespace Sys2Proof.Laws

open Sys2Proof.Machine Sys2Proof.Safety

theorem keeps_hotHold {base : State} {s : State} {o : Nat × Nat} {b : Bool} (h0 : Keeps base s) :
    Keeps base (State.hotHold s o b) := by
  unfold State.hotHold
  try dsimp only
  repeat' first
    | with_reducible assumption | with_reducible apply keeps_bump | with_reducible apply keeps_markEntries | with_reducible apply keeps_ite
    | dsimp only | split

theorem keeps_mergeAct {base : State} {s : State} {a : Act} {o : Nat × Nat} {gate : Int} {stop : Int} {minOn : Nat} (h0 : Keeps base s) :
    Keeps base (State.mergeAct s a o gate stop minOn) := by
  unfold State.mergeAct
  try dsimp only
  repeat' first
    | with_reducible assumption | with_reducible apply keeps_hotHold | with_reducible apply keeps_markEntries
    | with_reducible apply keeps_onEntries | with_reducible apply keeps_putAct | with_reducible apply keepsO_ite
    | with_reducible apply keepsO_some | with_reducible exact keepsO_none
    | (simp only [keeps_mk]; first | with_reducible apply Keeps.parts | refine Keeps.parts' ?_ rfl) | with_reducible apply keeps_foldl
    | with_reducible apply keeps_foldl_fst | dsimp only | split | (intro _; intros; try dsimp only)

theorem keeps_putPull {base : State} {s : State} {p : PullIn} (h0 : Keeps base s) :
    Keeps base (State.putPull s p) := by
  unfold State.putPull
  try dsimp only
  repeat' first
    | with_reducible assumption | with_reducible apply keeps_ite
    | (simp only [keeps_mk]; first | with_reducible apply Keeps.parts | refine Keeps.parts' ?_ rfl) | dsimp only | split
    | (intro _; intros; try dsimp only)

theorem keeps_dropPull {base : State} {s : State} {p : PullIn} (h0 : Keeps base s) :
    Keeps base (State.dropPull s p) := by
  unfold State.dropPull
  try dsimp only
  repeat' first
    | with_reducible assumption | (simp only [keeps_mk]; first | with_reducible apply Keeps.parts | refine Keeps.parts' ?_ rfl) | dsimp only
    | (intro _; intros; try dsimp only)

theorem keeps_waitUpdate {base : State} {s : State} (h0 : Keeps base s) :
    Keeps base (State.waitUpdate s) := by
  unfold State.waitUpdate
  try dsimp only
  repeat' first
    | with_reducible assumption | with_reducible apply keeps_putSat | dsimp only | (intro _; intros; try dsimp only)

theorem keeps_mergePull {base : State} {s : State} {p : PullIn} {o : Nat × Nat} {gate : Int} {req : Int} {stop : Int} {minOn : Nat} (h0 : Keeps base s) :
    Keeps base (State.mergePull s p o gate req stop minOn) := by
  unfold State.mergePull
  try dsimp only
  repeat' first
    | with_reducible assumption | with_reducible apply keeps_hotHold | with_reducible apply keeps_markEntries
    | with_reducible apply keeps_onEntries | with_reducible apply keeps_putPull | with_reducible apply keeps_ite
    | (simp only [keeps_mk]; first | with_reducible apply Keeps.parts | refine Keeps.parts' ?_ rfl) | dsimp only | split
    | (intro _; intros; try dsimp only)

theorem keeps_requestGate {base : State} {s : State} {o : Nat × Nat} {v : Nat} {gate : Int} {req : Int} {stop : Int} {minOn : Nat} (h0 : Keeps base s) :
    Keeps base (State.requestGate s o v gate req stop minOn) := by
  unfold State.requestGate
  try dsimp only
  repeat' first
    | with_reducible assumption | with_reducible apply keeps_hotHold | with_reducible apply keeps_mergeAct
    | with_reducible apply keeps_mergePull | with_reducible apply keeps_onEntries | with_reducible apply keepsO_ite
    | with_reducible apply keepsO_some | with_reducible exact keepsO_none
    | (simp only [keeps_mk]; first | with_reducible apply Keeps.parts | refine Keeps.parts' ?_ rfl) | dsimp only | split
    | (intro _; intros; try dsimp only)

theorem keeps_planValve {base : State} {s : State} {o : Nat} {p : Plan} {v : Nat} (h0 : Keeps base s) :
    Keeps base (State.planValve s o p v) := by
  unfold State.planValve
  try dsimp only
  repeat' first
    | with_reducible assumption | with_reducible apply keeps_bump | with_reducible apply keeps_onPlan
    | with_reducible apply keeps_requestGate | with_reducible apply keeps_useLead | with_reducible apply keeps_ite
    | (simp only [keeps_mk]; first | with_reducible apply Keeps.parts | refine Keeps.parts' ?_ rfl) | dsimp only | split
    | (intro _; intros; try dsimp only)

theorem keeps_makePlan {base : State} {s : State} {o : Nat} {wide : Bool} {dflt : Bool} (h0 : Keeps base s) :
    Keeps base (State.makePlan s o wide dflt) := by
  unfold State.makePlan
  try dsimp only
  repeat' first
    | with_reducible assumption | with_reducible apply keeps_closePlan | with_reducible apply keeps_onPlan
    | with_reducible apply keeps_planValve | with_reducible apply keeps_setPair | with_reducible apply keeps_ite
    | with_reducible apply keepsO_ite | with_reducible apply keepsO_some | with_reducible exact keepsO_none
    | (simp only [keeps_mk]; first | with_reducible apply Keeps.parts | refine Keeps.parts' ?_ rfl) | with_reducible apply keeps_foldl
    | with_reducible apply keeps_foldl_fst | dsimp only | split | (intro _; intros; try dsimp only)

theorem keeps_fastPlan {base : State} {s : State} {c : Ctx} (h0 : Keeps base s) :
    Keeps base (State.fastPlan s c) := by
  unfold State.fastPlan
  try dsimp only
  repeat' first
    | with_reducible assumption | with_reducible apply keeps_bump | with_reducible apply keeps_makePlan
    | with_reducible apply keeps_sealPlan | with_reducible apply keeps_ite
    | (simp only [keeps_mk]; first | with_reducible apply Keeps.parts | refine Keeps.parts' ?_ rfl) | dsimp only | split
    | (intro _; intros; try dsimp only)

theorem keeps_endOld {base : State} {s : State} {v : Nat} (h0 : Keeps base s) :
    Keeps base (State.endOld s v) := by
  unfold State.endOld
  try dsimp only
  repeat' first
    | with_reducible assumption | with_reducible apply keeps_dropAct | with_reducible apply keeps_endEntries
    | with_reducible apply keeps_shareExtended | with_reducible apply keeps_stopBoost | with_reducible apply keeps_thetaEnd
    | with_reducible apply keeps_ite | with_reducible apply keepsO_ite | with_reducible apply keepsO_some | with_reducible exact keepsO_none
    | (simp only [keeps_mk]; first | with_reducible apply Keeps.parts | refine Keeps.parts' ?_ rfl) | dsimp only | split

theorem keeps_countGate {base : State} {s : State} {v : Nat} {t : Int} (h0 : Keeps base s) :
    Keeps base (State.countGate s v t) := by
  unfold State.countGate
  try dsimp only
  repeat' first
    | with_reducible assumption | with_reducible apply keeps_bump | with_reducible apply keeps_bumpCounter
    | with_reducible apply keeps_setPair | with_reducible apply keeps_ite | with_reducible apply keepsO_ite
    | with_reducible apply keepsO_some | with_reducible exact keepsO_none
    | (simp only [keeps_mk]; first | with_reducible apply Keeps.parts | refine Keeps.parts' ?_ rfl) | dsimp only | split

theorem keeps_gateEdge {base : State} {s : State} {p : PullIn} {t : Int} {boost : Bool} (h0 : Keeps base s) :
    Keeps base (State.gateEdge s p t boost) := by
  unfold State.gateEdge
  try dsimp only
  repeat' first
    | with_reducible assumption | with_reducible apply keeps_change | with_reducible apply keeps_countGate
    | with_reducible apply keeps_endOld | with_reducible apply keeps_onEntries | with_reducible apply keeps_release
    | with_reducible apply keeps_ite | with_reducible apply keepsO_ite | with_reducible apply keepsO_some | with_reducible exact keepsO_none
    | (simp only [keeps_mk]; first | with_reducible apply Keeps.parts | refine Keeps.partsActs ?_ (sub_map fun _ => rfl) | refine Keeps.partsActs ?_ sub_filter | refine Keeps.partsActs ?_ (sub_map fun _ => by split <;> first | rfl | (symm; assumption)) | refine Keeps.partsNew ?_ rfl | refine Keeps.parts' ?_ rfl)
    | dsimp only | split | (intro _; intros; try dsimp only)

theorem keeps_noGate {base : State} {s : State} {p : PullIn} {k : Nat} (h0 : Keeps base s) :
    Keeps base (State.noGate s p k) := by
  unfold State.noGate
  try dsimp only
  repeat' first
    | with_reducible assumption | with_reducible apply keeps_dropPull | with_reducible apply keeps_endEntries
    | with_reducible apply keeps_markEntries | with_reducible apply keeps_waitUpdate | dsimp only

theorem keeps_startPull {base : State} {s : State} {p : PullIn} {t : Int} {boost : Bool} {shared : Bool} (h0 : Keeps base s) :
    Keeps base (State.startPull s p t boost shared) := by
  unfold State.startPull
  try dsimp only
  repeat' first
    | with_reducible assumption | with_reducible apply keeps_bump | with_reducible apply keeps_dropPull
    | with_reducible apply keeps_gateEdge | with_reducible apply keeps_markEntries | with_reducible apply keeps_noGate
    | with_reducible apply keeps_setEnergy | with_reducible apply keeps_waitUpdate | with_reducible apply keeps_ite | dsimp only | split

theorem keeps_defer {base : State} {s : State} {p : PullIn} {unmet : Bool} {k : Nat} {f : Field} (h0 : Keeps base s) :
    Keeps base (State.defer s p unmet k f) := by
  unfold State.defer
  try dsimp only
  repeat' first
    | with_reducible assumption | with_reducible apply keeps_bump | with_reducible apply keeps_markEntries | with_reducible apply keeps_ite
    | with_reducible apply keepsO_ite | with_reducible apply keepsO_some | with_reducible exact keepsO_none
    | (simp only [keeps_mk]; first | with_reducible apply Keeps.parts | refine Keeps.parts' ?_ rfl) | dsimp only | split
    | (intro _; intros; try dsimp only)

theorem keeps_grantOne {base : State} {s : State} {t : Int} {b : Blocked} {p : PullIn} (h0 : Keeps base s) :
    Keeps base (State.grantOne s t b p).1 := by
  unfold State.grantOne
  try dsimp only
  repeat' first
    | with_reducible assumption | with_reducible apply keeps_defer | with_reducible apply keeps_putPull
    | with_reducible apply keeps_startPull | with_reducible apply keeps_ite | with_reducible apply keeps_ite_fst
    | with_reducible apply keepsO_ite | with_reducible apply keepsO_some | with_reducible exact keepsO_none
    | (simp only [keeps_mk]; first | with_reducible apply Keeps.parts | refine Keeps.parts' ?_ rfl) | dsimp only | split
    | (intro _; intros; try dsimp only)

theorem keeps_grantPass {base : State} {s : State} {t : Int} (h0 : Keeps base s) :
    Keeps base (State.grantPass s t) := by
  unfold State.grantPass
  try dsimp only
  repeat' first
    | with_reducible assumption | with_reducible apply keeps_grantOne | with_reducible apply keeps_ite
    | (simp only [keeps_mk]; first | with_reducible apply Keeps.parts | refine Keeps.parts' ?_ rfl) | with_reducible apply keeps_foldl
    | with_reducible apply keeps_foldl_fst | dsimp only | split | (intro _; intros; try dsimp only)

theorem keeps_endScan {base : State} {s : State} (h0 : Keeps base s) :
    Keeps base (State.endScan s) := by
  unfold State.endScan
  try dsimp only
  repeat' first
    | with_reducible assumption | with_reducible apply keeps_put
    | (simp only [keeps_mk]; first | with_reducible apply Keeps.parts | refine Keeps.parts' ?_ rfl) | dsimp only

theorem keeps_execPullInRequest {base : State} {v : Nat} {s : State} (h0 : Keeps base s) :
    KeepsX base (execPullInRequest v s) := by
  unfold execPullInRequest
  try dsimp only
  repeat' first
    | with_reducible assumption | with_reducible apply keeps_elapseDev | with_reducible apply keeps_endScan
    | with_reducible apply keeps_grantPass | with_reducible apply keeps_noGate | with_reducible apply keeps_putPull
    | with_reducible apply keeps_waitUpdate | with_reducible apply keeps_ite | with_reducible apply keepsX_next
    | with_reducible exact keepsX_fault | with_reducible apply keepsX_ite | with_reducible apply keepsO_ite
    | with_reducible apply keepsO_some | with_reducible exact keepsO_none
    | (simp only [keeps_mk]; first | with_reducible apply Keeps.parts | refine Keeps.parts' ?_ rfl) | dsimp only | split

theorem keeps_execPullInStart {base : State} {v : Nat} {w : Nat} {s : State} (h0 : Keeps base s) :
    KeepsX base (execPullInStart v w s) := by
  unfold execPullInStart
  try dsimp only
  repeat' first
    | with_reducible assumption | with_reducible apply keeps_elapse | with_reducible apply keeps_grantPass
    | with_reducible apply keepsX_next | with_reducible exact keepsX_fault | with_reducible apply keepsX_ite
    | with_reducible apply keepsO_ite | with_reducible apply keepsO_some | with_reducible exact keepsO_none
    | (simp only [keeps_mk]; first | with_reducible apply Keeps.parts | refine Keeps.parts' ?_ rfl) | dsimp only | split

theorem keeps_execDeferralLimit {base : State} {v : Nat} {arrive : Bool} {s : State} (h0 : Keeps base s) :
    KeepsX base (execDeferralLimit v arrive s) := by
  unfold execDeferralLimit
  try dsimp only
  repeat' first
    | with_reducible assumption | with_reducible apply keeps_elapseDev | with_reducible apply keeps_grantPass
    | with_reducible apply keeps_startPull | with_reducible apply keeps_ite | with_reducible apply keepsX_next
    | with_reducible exact keepsX_fault | with_reducible apply keepsX_ite | with_reducible apply keepsO_ite
    | with_reducible apply keepsO_some | with_reducible exact keepsO_none
    | (simp only [keeps_mk]; first | with_reducible apply Keeps.parts | refine Keeps.parts' ?_ rfl) | dsimp only | split

theorem keeps_execVboostStale {base : State} {s : State} (h0 : Keeps base s) :
    KeepsX base (execVboostStale s) := by
  unfold execVboostStale
  try dsimp only
  repeat' first
    | with_reducible assumption | with_reducible apply keeps_fire | with_reducible apply keeps_put | with_reducible apply keeps_setEnergy
    | with_reducible apply keepsX_next | with_reducible exact keepsX_fault | with_reducible apply keepsX_ite
    | with_reducible apply keepsO_ite | with_reducible apply keepsO_some | with_reducible exact keepsO_none
    | (simp only [keeps_mk]; first | with_reducible apply Keeps.parts | refine Keeps.parts' ?_ rfl) | (refine KeepsO.use (by assumption) ?_)
    | dsimp only | split | (intro _; intros; try dsimp only)

theorem keeps_vboostResult {base : State} {s : State} {mv : Nat} (h0 : Keeps base s) :
    Keeps base (State.vboostResult s mv) := by
  unfold State.vboostResult
  try dsimp only
  repeat' first
    | with_reducible assumption | with_reducible apply keeps_arm | with_reducible apply keeps_put | with_reducible apply keeps_setEnergy
    | with_reducible apply keepsO_ite | with_reducible apply keepsO_some | with_reducible exact keepsO_none
    | (simp only [keeps_mk]; first | with_reducible apply Keeps.parts | refine Keeps.parts' ?_ rfl) | dsimp only

theorem keeps_clearDrl {base : State} {s : State} (h0 : Keeps base s) :
    Keeps base (State.clearDrl s) := by
  unfold State.clearDrl
  try dsimp only
  repeat' first
    | with_reducible assumption | with_reducible apply keeps_setWord | with_reducible apply keeps_foldl
    | with_reducible apply keeps_foldl_fst | dsimp only | (intro _; intros; try dsimp only)

theorem keeps_execDrlClrCounters {base : State} {s : State} (h0 : Keeps base s) :
    KeepsX base (execDrlClrCounters s) := by
  unfold execDrlClrCounters
  try dsimp only
  repeat' first
    | with_reducible assumption | with_reducible apply keeps_clearDrl | with_reducible apply keeps_host | with_reducible apply keepsX_next
    | with_reducible exact keepsX_fault | with_reducible apply keepsX_ite | with_reducible apply keepsO_ite
    | with_reducible apply keepsO_some | with_reducible exact keepsO_none | dsimp only

theorem keeps_leadUpdate {base : State} {s : State} {v : Nat} {move : Nat} (h0 : Keeps base s) :
    Keeps base (State.leadUpdate s v move) := by
  unfold State.leadUpdate
  try dsimp only
  repeat' first
    | with_reducible assumption | with_reducible apply keeps_leadLimited | with_reducible apply keeps_put | with_reducible apply keeps_ite
    | dsimp only | split

theorem keeps_closeAll {base : State} {s : State} (h0 : Keeps base s) :
    Keeps base (State.closeAll s) := by
  unfold State.closeAll
  try dsimp only
  repeat' first
    | with_reducible assumption | with_reducible apply keeps_closePlan | with_reducible apply keeps_onPlan
    | with_reducible apply keeps_waitUpdate
    | (simp only [keeps_mk]; first | with_reducible apply Keeps.parts | refine Keeps.partsActs ?_ (sub_map fun _ => rfl) | refine Keeps.partsActs ?_ sub_filter | refine Keeps.partsActs ?_ (sub_map fun _ => by split <;> first | rfl | (symm; assumption)) | refine Keeps.partsNew ?_ rfl | refine Keeps.parts' ?_ rfl)
    | with_reducible apply keeps_foldl | with_reducible apply keeps_foldl_fst | dsimp only | (intro _; intros; try dsimp only)

end Sys2Proof.Laws
end

