-- ==== Sys2Proof/Laws/Keeps/Valve.lean ====
section
/-! SUPPORT. Machine/Valve.lean keeps the queue, the canonical form and one actuation per valve. -/

namespace Sys2Proof.Laws

open Sys2Proof.Machine Sys2Proof.Safety

theorem keeps_showCurrent {base : State} {s : State} {c : Nat} {code : Nat} (h0 : Keeps base s) :
    Keeps base (State.showCurrent s c code) := by
  unfold State.showCurrent
  try dsimp only
  repeat' first
    | with_reducible assumption | with_reducible apply keeps_putSat | dsimp only

theorem keeps_showNode {base : State} {s : State} {g : Nat} {code : Nat} (h0 : Keeps base s) :
    Keeps base (State.showNode s g code) := by
  unfold State.showNode
  try dsimp only
  repeat' first
    | with_reducible assumption | with_reducible apply keeps_putSat | dsimp only

theorem keeps_putAux {base : State} {s : State} {k : Nat} {a : Option Aux} (h0 : Keeps base s) :
    Keeps base (State.putAux s k a) := by
  unfold State.putAux
  try dsimp only
  repeat' first
    | with_reducible assumption | (simp only [keeps_mk]; first | with_reducible apply Keeps.parts | refine Keeps.parts' ?_ rfl) | dsimp only

theorem keeps_setAux {base : State} {s : State} {k : Nat} {a : Option Aux} (h0 : Keeps base s) :
    Keeps base (State.setAux s k a) := by
  unfold State.setAux
  try dsimp only
  repeat' first
    | with_reducible assumption | with_reducible apply keeps_put | with_reducible apply keeps_putAux | with_reducible apply keeps_ite
    | dsimp only | split | (intro _; intros; try dsimp only)

theorem keeps_auxDecay {base : State} {s : State} {k : Nat} {codes : List Nat} (h0 : Keeps base s) :
    Keeps base (State.auxDecay s k codes) := by
  unfold State.auxDecay
  try dsimp only
  repeat' first
    | with_reducible assumption | with_reducible apply keeps_putChop | with_reducible apply keeps_putSwitch
    | with_reducible apply keeps_release | with_reducible apply keeps_setAux | with_reducible apply keeps_ite
    | with_reducible apply keepsO_ite | with_reducible apply keepsO_some | with_reducible exact keepsO_none
    | (simp only [keeps_mk]; first | with_reducible apply Keeps.parts | refine Keeps.parts' ?_ rfl) | dsimp only | split

theorem keeps_auxCut {base : State} {s : State} {k : Nat} (h0 : Keeps base s) :
    Keeps base (State.auxCut s k) := by
  unfold State.auxCut
  try dsimp only
  repeat' first
    | with_reducible assumption | with_reducible apply keeps_auxDecay | with_reducible apply keeps_unseen | with_reducible apply keeps_ite
    | with_reducible apply keepsO_ite | with_reducible apply keepsO_some | with_reducible exact keepsO_none
    | (simp only [keeps_mk]; first | with_reducible apply Keeps.parts | refine Keeps.parts' ?_ rfl) | dsimp only | split

theorem keeps_execPeakReached {base : State} {v : Nat} {w : Nat} {blank : Nat} {codes : List Nat} {s : State} (h0 : Keeps base s) :
    KeepsX base (execPeakReached v w blank codes s) := by
  unfold execPeakReached
  try dsimp only
  repeat' first
    | with_reducible assumption | with_reducible apply keeps_change | with_reducible apply keeps_elapse
    | with_reducible apply keeps_endBoost | with_reducible apply keeps_putChop | with_reducible apply keeps_putSwitch
    | with_reducible apply keeps_setAux | with_reducible apply keeps_showCurrent | with_reducible apply keeps_ite
    | with_reducible apply keepsX_next | with_reducible exact keepsX_fault | with_reducible apply keepsX_ite
    | with_reducible apply keepsO_ite | with_reducible apply keepsO_some | with_reducible exact keepsO_none
    | (simp only [keeps_mk]; first | with_reducible apply Keeps.parts | refine Keeps.parts' ?_ rfl) | with_reducible apply keeps_foldl
    | with_reducible apply keeps_foldl_fst | dsimp only | split | (intro _; intros; try dsimp only)

theorem keeps_faultTold {base : State} {s : State} {code : Nat} {target : Nat} {index : Nat} (h0 : Keeps base s) :
    Keeps base (State.faultTold s code target index) := by
  unfold State.faultTold
  try dsimp only
  repeat' first
    | with_reducible assumption | with_reducible apply keeps_bump | with_reducible apply keeps_emit | with_reducible apply keeps_put
    | with_reducible apply keeps_ite | dsimp only | split

theorem keeps_execPeakTimeout {base : State} {v : Nat} {blank : Nat} {codes : List Nat} {s : State} (h0 : Keeps base s) :
    KeepsX base (execPeakTimeout v blank codes s) := by
  unfold execPeakTimeout
  try dsimp only
  repeat' first
    | with_reducible assumption | with_reducible apply keeps_change | with_reducible apply keeps_elapseDev
    | with_reducible apply keeps_endBoost | with_reducible apply keeps_faultTold | with_reducible apply keeps_putChop
    | with_reducible apply keeps_setAux | with_reducible apply keeps_ite | with_reducible apply keepsX_next
    | with_reducible exact keepsX_fault | with_reducible apply keepsX_ite | with_reducible apply keepsO_ite
    | with_reducible apply keepsO_some | with_reducible exact keepsO_none
    | (simp only [keeps_mk]; first | with_reducible apply Keeps.parts | refine Keeps.parts' ?_ rfl) | dsimp only | split
    | (intro _; intros; try dsimp only)

theorem keeps_chopEnd {base : State} {s : State} {c : Nat} {w : Nat} {period : Rat} (h0 : Keeps base s) :
    Keeps base (State.chopEnd s c w period) := by
  unfold State.chopEnd
  try dsimp only
  repeat' first
    | with_reducible assumption | with_reducible apply keeps_elapseDev
    | (simp only [keeps_mk]; first | with_reducible apply Keeps.parts | refine Keeps.parts' ?_ rfl) | dsimp only

theorem keeps_execChopPeriod {base : State} {c : Nat} {w : Nat} {codes : List Nat} {s : State} (h0 : Keeps base s) :
    KeepsX base (execChopPeriod c w codes s) := by
  unfold execChopPeriod
  try dsimp only
  repeat' first
    | with_reducible assumption | with_reducible apply keeps_chopEnd | with_reducible apply keeps_putAct | with_reducible apply keeps_setAux
    | with_reducible apply keeps_showCurrent | with_reducible apply keeps_ite | with_reducible apply keepsX_next
    | with_reducible exact keepsX_fault | with_reducible apply keepsX_ite | with_reducible apply keepsO_ite
    | with_reducible apply keepsO_some | with_reducible exact keepsO_none
    | (simp only [keeps_mk]; first | with_reducible apply Keeps.parts | refine Keeps.parts' ?_ rfl) | with_reducible apply keeps_foldl
    | with_reducible apply keeps_foldl_fst | dsimp only | split | (intro _; intros; try dsimp only)

theorem keeps_execDipFound {base : State} {v : Nat} {w : Nat} {first : Nat} {codes : List Nat} {s : State} (h0 : Keeps base s) :
    KeepsX base (execDipFound v w first codes s) := by
  unfold execDipFound
  try dsimp only
  repeat' first
    | with_reducible assumption | with_reducible apply keeps_bump | with_reducible apply keeps_elapse
    | with_reducible apply keeps_leadUpdate | with_reducible apply keeps_onEntries | with_reducible apply keeps_put
    | with_reducible apply keeps_putAct | with_reducible apply keeps_ite | with_reducible apply keepsX_next
    | with_reducible exact keepsX_fault | with_reducible apply keepsX_ite | with_reducible apply keepsO_ite
    | with_reducible apply keepsO_some | with_reducible exact keepsO_none
    | (simp only [keeps_mk]; first | with_reducible apply Keeps.parts | refine Keeps.parts' ?_ rfl) | dsimp only | split
    | (intro _; intros; try dsimp only)

theorem keeps_disUpdate {base : State} {s : State} {vs : List Nat} (h0 : Keeps base s) :
    Keeps base (State.disUpdate s vs) := by
  unfold State.disUpdate
  try dsimp only
  repeat' first
    | with_reducible assumption | with_reducible apply keeps_put | with_reducible apply keeps_putFlag | with_reducible apply keeps_showValve
    | with_reducible apply keeps_foldl | with_reducible apply keeps_foldl_fst | dsimp only | (intro _; intros; try dsimp only)

theorem keeps_endByFault {base : State} {s : State} {v : Nat} (h0 : Keeps base s) :
    Keeps base (State.endByFault s v) := by
  unfold State.endByFault
  try dsimp only
  repeat' first
    | with_reducible assumption | with_reducible apply keeps_endOn | with_reducible apply keeps_markEntries | with_reducible apply keeps_ite
    | with_reducible apply keepsO_ite | with_reducible apply keepsO_some | with_reducible exact keepsO_none
    | (simp only [keeps_mk]; first | with_reducible apply Keeps.parts | refine Keeps.parts' ?_ rfl) | dsimp only | split

theorem keeps_disable {base : State} {s : State} {f : State → State} {vs : List Nat} (h0 : Keeps base s) (k1 : ∀ t, Keeps base t → Keeps base (f t)) :
    Keeps base (State.disable s f vs) := by
  unfold State.disable
  try dsimp only
  repeat' first
    | with_reducible assumption | with_reducible apply k1 | with_reducible apply keeps_armCheck | with_reducible apply keeps_change
    | with_reducible apply keeps_disUpdate | with_reducible apply keeps_endByFault | with_reducible apply keeps_leaveAll
    | with_reducible apply keeps_foldl | with_reducible apply keeps_foldl_fst | dsimp only | (intro _; intros; try dsimp only)

theorem keeps_disableValve {base : State} {s : State} {v : Nat} (h0 : Keeps base s) :
    Keeps base (State.disableValve s v) := by
  unfold State.disableValve
  try dsimp only
  repeat' first
    | with_reducible assumption | with_reducible apply keeps_disable
    | (simp only [keeps_mk]; first | with_reducible apply Keeps.parts | refine Keeps.parts' ?_ rfl) | dsimp only
    | (intro _; intros; try dsimp only)

theorem keeps_disableColumn {base : State} {s : State} {c : Nat} (h0 : Keeps base s) :
    Keeps base (State.disableColumn s c) := by
  unfold State.disableColumn
  try dsimp only
  repeat' first
    | with_reducible assumption | with_reducible apply keeps_disable | with_reducible apply keeps_put | dsimp only
    | (intro _; intros; try dsimp only)

theorem keeps_disableGroup {base : State} {s : State} {g : Nat} (h0 : Keeps base s) :
    Keeps base (State.disableGroup s g) := by
  unfold State.disableGroup
  try dsimp only
  repeat' first
    | with_reducible assumption | with_reducible apply keeps_disable | with_reducible apply keeps_put | dsimp only
    | (intro _; intros; try dsimp only)

theorem keeps_dropWaiting {base : State} {s : State} (h0 : Keeps base s) :
    Keeps base (State.dropWaiting s) := by
  unfold State.dropWaiting
  try dsimp only
  repeat' first
    | with_reducible assumption | with_reducible apply keeps_noGate | with_reducible apply keeps_foldl
    | with_reducible apply keeps_foldl_fst | dsimp only | (intro _; intros; try dsimp only)

theorem keeps_matrixStop {base : State} {s : State} (h0 : Keeps base s) :
    Keeps base (State.matrixStop s) := by
  unfold State.matrixStop
  try dsimp only
  repeat' first
    | with_reducible assumption | with_reducible apply keeps_allLow | with_reducible apply keeps_dropWaiting
    | with_reducible apply keeps_put | with_reducible apply keeps_setEnabled | with_reducible apply keeps_ite | dsimp only | split

theorem keeps_execOpenLoadCheck {base : State} {v : Nat} {codes : Nat × Nat} {gsn : Nat} {s : State} (h0 : Keeps base s) :
    KeepsX base (execOpenLoadCheck v codes gsn s) := by
  unfold execOpenLoadCheck
  try dsimp only
  repeat' first
    | with_reducible assumption | with_reducible apply keeps_disableColumn | with_reducible apply keeps_disableValve
    | with_reducible apply keeps_elapseDev | with_reducible apply keeps_faultTold | with_reducible apply keeps_put
    | with_reducible apply keeps_showCurrent | with_reducible apply keeps_showNode | with_reducible apply keeps_ite
    | with_reducible apply keepsX_next | with_reducible exact keepsX_fault | with_reducible apply keepsX_ite
    | with_reducible apply keepsO_ite | with_reducible apply keepsO_some | with_reducible exact keepsO_none
    | (simp only [keeps_mk]; first | with_reducible apply Keeps.parts | refine Keeps.parts' ?_ rfl) | dsimp only | split

theorem keeps_execActuationEnd {base : State} {v : Nat} {blank : Nat} {codes : List Nat} {s : State} (h0 : Keeps base s) :
    KeepsX base (execActuationEnd v blank codes s) := by
  unfold execActuationEnd
  try dsimp only
  repeat' first
    | with_reducible assumption | with_reducible apply keeps_change | with_reducible apply keeps_elapseDev
    | with_reducible apply keeps_endBoost | with_reducible apply keeps_leave | with_reducible apply keeps_ite
    | with_reducible apply keepsX_next | with_reducible exact keepsX_fault | with_reducible apply keepsX_ite
    | with_reducible apply keepsO_ite | with_reducible apply keepsO_some | with_reducible exact keepsO_none
    | (simp only [keeps_mk]; first | with_reducible apply Keeps.parts | refine Keeps.parts' ?_ rfl) | dsimp only | split
    | (intro _; intros; try dsimp only)

theorem keeps_execValveReleased {base : State} {v : Nat} {s : State} (h0 : Keeps base s) :
    KeepsX base (execValveReleased v s) := by
  unfold execValveReleased
  try dsimp only
  repeat' first
    | with_reducible assumption | with_reducible apply keeps_change | with_reducible apply keeps_dropAct
    | with_reducible apply keeps_elapseDev | with_reducible apply keeps_endEntries | with_reducible apply keeps_release
    | with_reducible apply keeps_setAux | with_reducible apply keeps_ite | with_reducible apply keepsX_next
    | with_reducible exact keepsX_fault | with_reducible apply keepsX_ite | with_reducible apply keepsO_ite
    | with_reducible apply keepsO_some | with_reducible exact keepsO_none
    | (simp only [keeps_mk]; first | with_reducible apply Keeps.parts | refine Keeps.parts' ?_ rfl) | dsimp only | split
    | (intro _; intros; try dsimp only)

theorem keeps_groupFault {base : State} {s : State} {code : Nat} {g : Nat} (h0 : Keeps base s) :
    Keeps base (State.groupFault s code g) := by
  unfold State.groupFault
  try dsimp only
  repeat' first
    | with_reducible assumption | with_reducible apply keeps_disableGroup | with_reducible apply keeps_faultTold
    | with_reducible apply keeps_matrixStop | with_reducible apply keeps_put | with_reducible apply keeps_ite | dsimp only | split

theorem keeps_columnFault {base : State} {s : State} {code : Nat} {c : Nat} (h0 : Keeps base s) :
    Keeps base (State.columnFault s code c) := by
  unfold State.columnFault
  try dsimp only
  repeat' first
    | with_reducible assumption | with_reducible apply keeps_disableColumn | with_reducible apply keeps_faultTold
    | with_reducible apply keeps_matrixStop | with_reducible apply keeps_ite | dsimp only | split

theorem keeps_auxFaulted {base : State} {s : State} {code : Nat} {k : Nat} (h0 : Keeps base s) :
    Keeps base (State.auxFaulted s code k) := by
  unfold State.auxFaulted
  try dsimp only
  repeat' first
    | with_reducible assumption | with_reducible apply keeps_disarm | with_reducible apply keeps_faultTold | with_reducible apply keeps_put
    | with_reducible apply keeps_putAux | with_reducible apply keeps_putChop | with_reducible apply keeps_putSwitch
    | with_reducible apply keeps_ite | dsimp only | split

theorem keeps_execValveFault {base : State} {w : Nat} {code : Nat} {index : Nat} {codes : Nat × Nat} {s : State} (h0 : Keeps base s) :
    KeepsX base (execValveFault w code index codes s) := by
  unfold execValveFault
  try dsimp only
  repeat' first
    | with_reducible assumption | with_reducible apply keeps_auxFaulted | with_reducible apply keeps_columnFault
    | with_reducible apply keeps_elapse | with_reducible apply keeps_groupFault | with_reducible apply keeps_showCurrent
    | with_reducible apply keeps_showNode | with_reducible apply keeps_ite | with_reducible apply keepsX_next
    | with_reducible exact keepsX_fault | with_reducible apply keepsX_ite
    | (simp only [keeps_mk]; first | with_reducible apply Keeps.parts | refine Keeps.parts' ?_ rfl) | dsimp only | split

theorem keeps_scanGroup {base : State} {s : State} {g : Nat} {p : Nat × Nat} (h0 : Keeps base s) :
    Keeps base (State.scanGroup s g p) := by
  unfold State.scanGroup
  try dsimp only
  repeat' first
    | with_reducible assumption | with_reducible apply keeps_groupFault | with_reducible apply keeps_showNode
    | with_reducible apply keeps_ite | with_reducible apply keepsO_ite | with_reducible apply keepsO_some | with_reducible exact keepsO_none
    | (simp only [keeps_mk]; first | with_reducible apply Keeps.parts | refine Keeps.parts' ?_ rfl) | dsimp only | split

theorem keeps_scanGroups {base : State} {s : State} {gsn : List (Nat × Nat)} (h0 : Keeps base s) :
    Keeps base (State.scanGroups s gsn) := by
  unfold State.scanGroups
  try dsimp only
  repeat' first
    | with_reducible assumption | with_reducible apply keeps_put | with_reducible apply keeps_scanGroup | with_reducible apply keeps_ite
    | with_reducible apply keepsO_ite | with_reducible apply keepsO_some | with_reducible exact keepsO_none
    | (simp only [keeps_mk]; first | with_reducible apply Keeps.parts | refine Keeps.parts' ?_ rfl) | with_reducible apply keeps_foldl
    | with_reducible apply keeps_foldl_fst | dsimp only | split | (intro _; intros; try dsimp only)

theorem keeps_scanColumn {base : State} {s : State} {code : Nat} (h0 : Keeps base s) :
    Keeps base (State.scanColumn s code) := by
  unfold State.scanColumn
  try dsimp only
  repeat' first
    | with_reducible assumption | with_reducible apply keeps_columnFault | with_reducible apply keeps_elapse
    | with_reducible apply keeps_endScan | with_reducible apply keeps_showCurrent | with_reducible apply keeps_ite
    | with_reducible apply keepsO_ite | with_reducible apply keepsO_some | with_reducible exact keepsO_none
    | (simp only [keeps_mk]; first | with_reducible apply Keeps.parts | refine Keeps.parts' ?_ rfl) | dsimp only | split

theorem keeps_execIdleScan {base : State} {w : Nat} {gsn : List (Nat × Nat)} {cols : List Nat} {s : State} (h0 : Keeps base s) :
    KeepsX base (execIdleScan w gsn cols s) := by
  unfold execIdleScan
  try dsimp only
  repeat' first
    | with_reducible assumption | with_reducible apply keeps_elapse | with_reducible apply keeps_scanColumn
    | with_reducible apply keeps_scanGroups | with_reducible apply keeps_ite | with_reducible apply keepsX_next
    | with_reducible exact keepsX_fault | with_reducible apply keepsX_ite | with_reducible apply keeps_foldl
    | with_reducible apply keeps_foldl_fst | dsimp only | split | (intro _; intros; try dsimp only)

theorem keeps_hostEnable {base : State} {s : State} {target : Nat} {index : Nat} (h0 : Keeps base s) :
    KeepsO base (State.hostEnable s target index) := by
  unfold State.hostEnable
  try dsimp only
  repeat' first
    | with_reducible assumption | with_reducible apply keeps_disUpdate | with_reducible apply keeps_put | with_reducible apply keeps_ite
    | with_reducible apply keepsO_ite | with_reducible apply keepsO_some | with_reducible exact keepsO_none
    | (simp only [keeps_mk]; first | with_reducible apply Keeps.parts | refine Keeps.parts' ?_ rfl) | dsimp only | split
    | (intro _; intros; try dsimp only)

theorem keeps_clearVlv {base : State} {s : State} (h0 : Keeps base s) :
    Keeps base (State.clearVlv s) := by
  unfold State.clearVlv
  try dsimp only
  repeat' first
    | with_reducible assumption | with_reducible apply keeps_setWord | with_reducible apply keeps_foldl
    | with_reducible apply keeps_foldl_fst | dsimp only | (intro _; intros; try dsimp only)

theorem keeps_hostVlvCmd {base : State} {s : State} {w : Nat} (h0 : Keeps base s) :
    KeepsO base (State.hostVlvCmd s w) := by
  unfold State.hostVlvCmd
  try dsimp only
  repeat' first
    | with_reducible assumption | with_reducible apply keeps_clearVlv | with_reducible apply keeps_hostEnable
    | with_reducible apply keeps_put | with_reducible apply keeps_ite | with_reducible apply keepsO_ite | with_reducible apply keepsO_some
    | with_reducible exact keepsO_none | dsimp only | split | (intro _; intros; try dsimp only)

theorem keeps_execValveEnable {base : State} {target : Nat} {index : Nat} {code : Nat} {s : State} (h0 : Keeps base s) :
    KeepsX base (execValveEnable target index code s) := by
  unfold execValveEnable
  try dsimp only
  repeat' first
    | with_reducible assumption | with_reducible apply keeps_host | with_reducible apply keeps_hostEnable
    | with_reducible apply keeps_showCurrent | with_reducible apply keeps_showNode | with_reducible apply keeps_ite
    | with_reducible apply keepsX_next | with_reducible exact keepsX_fault | with_reducible apply keepsX_ite
    | (simp only [keeps_mk]; first | with_reducible apply Keeps.parts | refine Keeps.parts' ?_ rfl) | dsimp only | split
    | (intro _; intros; try dsimp only)

theorem keeps_execMatrixResume {base : State} {s : State} (h0 : Keeps base s) :
    KeepsX base (execMatrixResume s) := by
  unfold execMatrixResume
  try dsimp only
  repeat' first
    | with_reducible assumption | with_reducible apply keeps_host | with_reducible apply keeps_hostVlvCmd | with_reducible apply keepsX_next
    | with_reducible exact keepsX_fault | with_reducible apply keepsX_ite | dsimp only | (intro _; intros; try dsimp only)

theorem keeps_execVlvClrCounters {base : State} {s : State} (h0 : Keeps base s) :
    KeepsX base (execVlvClrCounters s) := by
  unfold execVlvClrCounters
  try dsimp only
  repeat' first
    | with_reducible assumption | with_reducible apply keeps_host | with_reducible apply keeps_hostVlvCmd | with_reducible apply keepsX_next
    | with_reducible exact keepsX_fault | with_reducible apply keepsX_ite | dsimp only | (intro _; intros; try dsimp only)

theorem keeps_execArmAssert {base : State} {s : State} (h0 : Keeps base s) :
    KeepsX base (execArmAssert s) := by
  unfold execArmAssert
  try dsimp only
  repeat' first
    | with_reducible assumption | with_reducible apply keeps_arm | with_reducible apply keepsX_next | with_reducible exact keepsX_fault
    | with_reducible apply keepsX_ite | (simp only [keeps_mk]; first | with_reducible apply Keeps.parts | refine Keeps.parts' ?_ rfl)
    | dsimp only

theorem keeps_execArmDeassert {base : State} {s : State} (h0 : Keeps base s) :
    KeepsX base (execArmDeassert s) := by
  unfold execArmDeassert
  try dsimp only
  repeat' first
    | with_reducible assumption | with_reducible apply keeps_arm | with_reducible apply keeps_armCheck
    | with_reducible apply keeps_dropWaiting | with_reducible apply keepsX_next | with_reducible exact keepsX_fault
    | with_reducible apply keepsX_ite | (simp only [keeps_mk]; first | with_reducible apply Keeps.parts | refine Keeps.parts' ?_ rfl)
    | dsimp only

theorem keeps_auxRun {base : State} {s : State} {k : Nat} {second : Nat} {ms : Nat} (h0 : Keeps base s) :
    Keeps base (State.auxRun s k second ms) := by
  unfold State.auxRun
  try dsimp only
  repeat' first
    | with_reducible assumption | with_reducible apply keeps_arm | with_reducible apply keeps_auxCut
    | with_reducible apply keeps_bumpCounter | with_reducible apply keeps_disarm | with_reducible apply keeps_putChop
    | with_reducible apply keeps_putSwitch | with_reducible apply keeps_release | with_reducible apply keeps_setAux
    | with_reducible apply keeps_ite | with_reducible apply keepsO_ite | with_reducible apply keepsO_some | with_reducible exact keepsO_none
    | (simp only [keeps_mk]; first | with_reducible apply Keeps.parts | refine Keeps.parts' ?_ rfl) | dsimp only | split

theorem keeps_hostAux {base : State} {s : State} {w : Nat} (h0 : Keeps base s) :
    KeepsO base (State.hostAux s w) := by
  unfold State.hostAux
  try dsimp only
  repeat' first
    | with_reducible assumption | with_reducible apply keeps_auxRun | with_reducible apply keeps_ite | with_reducible apply keepsO_ite
    | with_reducible apply keepsO_some | with_reducible exact keepsO_none | dsimp only | split

theorem keeps_execAuxCommand {base : State} {value : Nat} {s : State} (h0 : Keeps base s) :
    KeepsX base (execAuxCommand value s) := by
  unfold execAuxCommand
  try dsimp only
  repeat' first
    | with_reducible assumption | with_reducible apply keeps_host | with_reducible apply keeps_hostAux | with_reducible apply keepsX_next
    | with_reducible exact keepsX_fault | with_reducible apply keepsX_ite | dsimp only | (intro _; intros; try dsimp only)

theorem keeps_execAuxDurationEnd {base : State} {x : ChannelSamples} {s : State} (h0 : Keeps base s) :
    KeepsX base (execAuxDurationEnd x s) := by
  unfold execAuxDurationEnd
  try dsimp only
  repeat' first
    | with_reducible assumption | with_reducible apply keeps_auxDecay | with_reducible apply keeps_fire | with_reducible apply keepsX_next
    | with_reducible exact keepsX_fault | with_reducible apply keepsX_ite | with_reducible apply keepsO_ite
    | with_reducible apply keepsO_some | with_reducible exact keepsO_none
    | (simp only [keeps_mk]; first | with_reducible apply Keeps.parts | refine Keeps.parts' ?_ rfl) | (refine KeepsO.use (by assumption) ?_)
    | dsimp only | split | (intro _; intros; try dsimp only)

end Sys2Proof.Laws
end

