-- ==== Sys2Proof/Laws/Keeps/Judge.lean ====
section
/-! SUPPORT. Machine/Judge.lean keeps the queue, the canonical form and one actuation per valve. -/

namespace Sys2Proof.Laws

open Sys2Proof.Machine Sys2Proof.Safety

theorem keeps_putEngine {base : State} {s : State} {e : Nat} {x : Engine} (h0 : Keeps base s) :
    Keeps base (State.putEngine s e x) := by
  unfold State.putEngine
  try dsimp only
  repeat' first
    | with_reducible assumption | (simp only [keeps_mk]; first | with_reducible apply Keeps.parts | refine Keeps.parts' ?_ rfl) | dsimp only

theorem keeps_freeEngine {base : State} {s : State} {e : Nat} (h0 : Keeps base s) :
    Keeps base (State.freeEngine s e) := by
  unfold State.freeEngine
  try dsimp only
  repeat' first
    | with_reducible assumption | with_reducible apply keeps_put | with_reducible apply keeps_putEngine | with_reducible apply keeps_ite
    | (simp only [keeps_mk]; first | with_reducible apply Keeps.parts | refine Keeps.parts' ?_ rfl) | dsimp only | split

theorem keeps_countOutcome {base : State} {s : State} {x : Sheaf} {r : RunEnd} (h0 : Keeps base s) :
    Keeps base (State.countOutcome s x r) := by
  unfold State.countOutcome
  try dsimp only
  repeat' first
    | with_reducible assumption | with_reducible apply keeps_bump | with_reducible apply keeps_emit | with_reducible apply keeps_put
    | with_reducible apply keeps_putSat | with_reducible apply keeps_ite
    | (simp only [keeps_mk]; first | with_reducible apply Keeps.parts | refine Keeps.parts' ?_ rfl) | dsimp only | split
    | (intro _; intros; try dsimp only)

theorem keeps_outcome {base : State} {s : State} {slot : Nat} {r : RunEnd} (h0 : Keeps base s) :
    Keeps base (State.outcome s slot r) := by
  unfold State.outcome
  try dsimp only
  repeat' first
    | with_reducible assumption | with_reducible apply keeps_countOutcome | with_reducible apply keeps_disarm
    | with_reducible apply keeps_makePlan | with_reducible apply keeps_putSheaf | with_reducible apply keeps_queueUpdate
    | with_reducible apply keeps_reachDone | with_reducible apply keeps_ite | with_reducible apply keepsO_ite
    | with_reducible apply keepsO_some | with_reducible exact keepsO_none
    | (simp only [keeps_mk]; first | with_reducible apply Keeps.parts | refine Keeps.parts' ?_ rfl) | dsimp only | split

theorem keeps_endRun {base : State} {s : State} {e : Nat} {slot : Nat} {r : RunEnd} (h0 : Keeps base s) :
    Keeps base (State.endRun s e slot r) := by
  unfold State.endRun
  try dsimp only
  repeat' first
    | with_reducible assumption | with_reducible apply keeps_freeEngine | with_reducible apply keeps_outcome | dsimp only

theorem keeps_armDeadline {base : State} {s : State} {slot : Nat} {d : Int} (h0 : Keeps base s) :
    Keeps base (State.armDeadline s slot d) := by
  unfold State.armDeadline
  try dsimp only
  repeat' first
    | with_reducible assumption | with_reducible apply keeps_armDev | dsimp only

theorem keeps_queueSheaf {base : State} {s : State} {slot : Nat} (h0 : Keeps base s) :
    Keeps base (State.queueSheaf s slot) := by
  unfold State.queueSheaf
  try dsimp only
  repeat' first
    | with_reducible assumption | with_reducible apply keeps_armDeadline | with_reducible apply keeps_outcome
    | with_reducible apply keeps_putSheaf | with_reducible apply keeps_queueUpdate | with_reducible apply keeps_ite
    | with_reducible apply keepsO_ite | with_reducible apply keepsO_some | with_reducible exact keepsO_none
    | (simp only [keeps_mk]; first | with_reducible apply Keeps.parts | refine Keeps.parts' ?_ rfl) | dsimp only | split

theorem keeps_workingUpdate {base : State} {s : State} (h0 : Keeps base s) :
    Keeps base (State.workingUpdate s) := by
  unfold State.workingUpdate
  try dsimp only
  repeat' first
    | with_reducible assumption | with_reducible apply keeps_accrue | with_reducible apply keeps_degrade | with_reducible apply keeps_put
    | with_reducible apply keeps_ite | dsimp only | split

theorem keeps_failEngine {base : State} {s : State} {e : Nat} {cause : Nat} (h0 : Keeps base s) :
    Keeps base (State.failEngine s e cause) := by
  unfold State.failEngine
  try dsimp only
  repeat' first
    | with_reducible assumption | with_reducible apply keeps_emit | with_reducible apply keeps_put | with_reducible apply keeps_setDomain
    | with_reducible apply keeps_workingUpdate | dsimp only

theorem keeps_countFault {base : State} {s : State} {e : Nat} {cause : Nat} (h0 : Keeps base s) :
    Keeps base (State.countFault s e cause) := by
  unfold State.countFault
  try dsimp only
  repeat' first
    | with_reducible assumption | with_reducible apply keeps_bump | with_reducible apply keeps_failEngine | with_reducible apply keeps_put
    | with_reducible apply keeps_putEngine | with_reducible apply keeps_ite
    | (simp only [keeps_mk]; first | with_reducible apply Keeps.parts | refine Keeps.parts' ?_ rfl) | dsimp only | split
    | (intro _; intros; try dsimp only)

theorem keeps_runFault {base : State} {s : State} {e : Nat} {cause : Nat} (h0 : Keeps base s) :
    Keeps base (State.runFault s e cause) := by
  unfold State.runFault
  try dsimp only
  repeat' first
    | with_reducible assumption | with_reducible apply keeps_bump | with_reducible apply keeps_countFault
    | with_reducible apply keeps_outcome | with_reducible apply keeps_putSheaf | with_reducible apply keeps_queueUpdate
    | with_reducible apply keeps_ite | with_reducible apply keepsO_ite | with_reducible apply keepsO_some | with_reducible exact keepsO_none
    | (simp only [keeps_mk]; first | with_reducible apply Keeps.parts | refine Keeps.parts' ?_ rfl) | dsimp only | split
    | (intro _; intros; try dsimp only)

theorem keeps_keepPlan {base : State} {s : State} {slot : Nat} {p : Plan} (h0 : Keeps base s) :
    Keeps base (State.keepPlan s slot p) := by
  unfold State.keepPlan
  try dsimp only
  repeat' first
    | with_reducible assumption
    | (simp only [keeps_mk]; first | with_reducible apply Keeps.parts | refine Keeps.partsActs ?_ (sub_map fun _ => rfl) | refine Keeps.partsActs ?_ sub_filter | refine Keeps.partsActs ?_ (sub_map fun _ => by split <;> first | rfl | (symm; assumption)) | refine Keeps.partsNew ?_ rfl | refine Keeps.parts' ?_ rfl)
    | dsimp only | (intro _; intros; try dsimp only)

theorem keeps_shadowUpdate {base : State} {s : State} (h0 : Keeps base s) :
    Keeps base (State.shadowUpdate s) := by
  unfold State.shadowUpdate
  try dsimp only
  repeat' first
    | with_reducible assumption | with_reducible apply keeps_putSat | dsimp only | (intro _; intros; try dsimp only)

theorem keeps_loseSheaf {base : State} {s : State} {slot : Nat} {word : Nat} {copies : Nat} (h0 : Keeps base s) :
    Keeps base (State.loseSheaf s slot word copies) := by
  unfold State.loseSheaf
  try dsimp only
  repeat' first
    | with_reducible assumption | with_reducible apply keeps_bump | with_reducible apply keeps_disarm | with_reducible apply keeps_emit
    | with_reducible apply keeps_freeEngine | with_reducible apply keeps_freeSheaf | with_reducible apply keeps_keepPlan
    | with_reducible apply keeps_makePlan | with_reducible apply keeps_queueUpdate | with_reducible apply keeps_shadowUpdate
    | with_reducible apply keeps_ite | with_reducible apply keepsO_ite | with_reducible apply keepsO_some | with_reducible exact keepsO_none
    | (simp only [keeps_mk]; first | with_reducible apply Keeps.parts | refine Keeps.parts' ?_ rfl) | dsimp only | split

theorem keeps_countCopyErr {base : State} {s : State} {k : Nat} (h0 : Keeps base s) :
    Keeps base (State.countCopyErr s k) := by
  unfold State.countCopyErr
  try dsimp only
  repeat' first
    | with_reducible assumption | with_reducible apply keeps_degrade | with_reducible apply keeps_emit | with_reducible apply keeps_put
    | with_reducible apply keeps_ite | with_reducible apply keepsO_ite | with_reducible apply keepsO_some | with_reducible exact keepsO_none
    | (simp only [keeps_mk]; first | with_reducible apply Keeps.parts | refine Keeps.parts' ?_ rfl) | dsimp only | split

theorem keeps_eccFact {base : State} {s : State} {f : EccFact} (h0 : Keeps base s) :
    Keeps base (State.eccFact s f) := by
  unfold State.eccFact
  try dsimp only
  repeat' first
    | with_reducible assumption | with_reducible apply keeps_bump | with_reducible apply keeps_countCopyErr
    | with_reducible apply keeps_loseSheaf | with_reducible apply keeps_ite | dsimp only | split

theorem keeps_eccFacts {base : State} {s : State} {fs : List EccFact} (h0 : Keeps base s) :
    Keeps base (State.eccFacts s fs) := by
  unfold State.eccFacts
  try dsimp only
  repeat' first
    | with_reducible assumption | with_reducible apply keeps_eccFact | with_reducible apply keeps_foldl
    | with_reducible apply keeps_foldl_fst | dsimp only | (intro _; intros; try dsimp only)

end Sys2Proof.Laws
end

