-- ==== Sys2Proof/Laws/Keeps/Aster.lean ====
section
/-! SUPPORT. Machine/Aster.lean keeps the queue, the canonical form and one actuation per valve. -/

namespace Sys2Proof.Laws

open Sys2Proof.Machine Sys2Proof.Safety

/-- An instruction's outcome carries such a state on. -/
def KeepsE (r : State) : EngOut → Prop
  | .go s _ => Keeps r s
  | .stop _ => True
  | .verd _ _ _ => True

theorem keepsE_ite {r : State} {a b : EngOut} {c : Prop} [Decidable c] (ha : KeepsE r a) (hb : KeepsE r b) : KeepsE r (if c then a else b) := by
  split <;> assumption
theorem keepsE_go {r s : State} {e : Engine} (h : Keeps r s) : KeepsE r (.go s e) := h
theorem keepsE_stop {r : State} {n : Nat} : KeepsE r (.stop n) := trivial
theorem keepsE_verd {r : State} {v k : Nat} {e : Engine} : KeepsE r (.verd v k e) := trivial
theorem KeepsE.use {r t : State} {e : Engine} {x : EngOut} (eq : x = .go t e) (h : KeepsE r x) : Keeps r t := by
  subst eq; exact h

theorem keeps_aster {o : State} {s : State} {st : EngStep} {is : Nat → Bool} {cost : RunCtx → Nat} {f : State → RunCtx → EngOut}
    (hf : ∀ t c, Keeps o t → KeepsE o (f t c)) (h0 : Keeps o s) : Keeps o (State.aster s st is cost f) := by
  unfold State.aster
  refine keeps_ite h0 ?_
  split
  · exact h0
  · split
    · exact h0
    · split
      · exact h0
      · refine keeps_ite h0 (keeps_ite (keeps_runFault (keeps_elapse h0)) (keeps_ite (keeps_endRun (keeps_elapse h0)) ?_))
        refine keeps_ite (keeps_endRun (keeps_putSheaf (keeps_elapse h0))) ?_
        split
        · exact keeps_putEngine (KeepsE.use (by assumption) (hf _ _ (keeps_putSheaf (keeps_elapse h0))))
        · exact keeps_endRun (keeps_putSheaf (keeps_elapse h0))
        · exact keeps_endRun (keeps_putSheaf (keeps_elapse h0))

theorem keeps_asterReg {o : State} {s : State} {st : EngStep} {is : Nat → Bool} {cost d : Nat} {f : Engine → Int} (h0 : Keeps o s) :
    Keeps o (State.asterReg s st is cost d f) := keeps_aster (fun _ _ ht => keepsE_go ht) h0

theorem keeps_asterBits {o : State} {s : State} {st : EngStep} {is : Nat → Bool} {d : Nat} {f : Engine → Word} (h0 : Keeps o s) :
    Keeps o (State.asterBits s st is d f) := keeps_aster (fun _ _ ht => keepsE_go ht) h0

theorem keeps_execAsterAdd {base : State} {x : EngStep} {d : Nat} {a : Nat} {b : Nat} {s : State} (h0 : Keeps base s) :
    KeepsX base (execAsterAdd x d a b s) := by
  unfold execAsterAdd
  try dsimp only
  repeat' first
    | with_reducible assumption | with_reducible apply keeps_asterReg | with_reducible apply keepsX_next | with_reducible exact keepsX_fault
    | with_reducible apply keepsX_ite | with_reducible apply keepsE_ite | with_reducible apply keepsE_go | exact keepsE_stop
    | exact keepsE_verd | dsimp only | (intro _; intros; try dsimp only)

theorem keeps_execAsterSub {base : State} {x : EngStep} {d : Nat} {a : Nat} {b : Nat} {s : State} (h0 : Keeps base s) :
    KeepsX base (execAsterSub x d a b s) := by
  unfold execAsterSub
  try dsimp only
  repeat' first
    | with_reducible assumption | with_reducible apply keeps_asterReg | with_reducible apply keepsX_next | with_reducible exact keepsX_fault
    | with_reducible apply keepsX_ite | with_reducible apply keepsE_ite | with_reducible apply keepsE_go | exact keepsE_stop
    | exact keepsE_verd | dsimp only | (intro _; intros; try dsimp only)

theorem keeps_execAsterMul {base : State} {x : EngStep} {d : Nat} {a : Nat} {b : Nat} {s : State} (h0 : Keeps base s) :
    KeepsX base (execAsterMul x d a b s) := by
  unfold execAsterMul
  try dsimp only
  repeat' first
    | with_reducible assumption | with_reducible apply keeps_asterReg | with_reducible apply keepsX_next | with_reducible exact keepsX_fault
    | with_reducible apply keepsX_ite | with_reducible apply keepsE_ite | with_reducible apply keepsE_go | exact keepsE_stop
    | exact keepsE_verd | dsimp only | (intro _; intros; try dsimp only)

theorem keeps_execAsterMuls {base : State} {x : EngStep} {d : Nat} {a : Nat} {b : Nat} {fn : Nat} {s : State} (h0 : Keeps base s) :
    KeepsX base (execAsterMuls x d a b fn s) := by
  unfold execAsterMuls
  try dsimp only
  repeat' first
    | with_reducible assumption | with_reducible apply keeps_asterReg | with_reducible apply keepsX_next | with_reducible exact keepsX_fault
    | with_reducible apply keepsX_ite | with_reducible apply keepsE_ite | with_reducible apply keepsE_go | exact keepsE_stop
    | exact keepsE_verd | dsimp only | (intro _; intros; try dsimp only)

theorem keeps_execAsterDiv {base : State} {x : EngStep} {d : Nat} {a : Nat} {b : Nat} {s : State} (h0 : Keeps base s) :
    KeepsX base (execAsterDiv x d a b s) := by
  unfold execAsterDiv
  try dsimp only
  repeat' first
    | with_reducible assumption | with_reducible apply keeps_asterReg | with_reducible apply keepsX_next | with_reducible exact keepsX_fault
    | with_reducible apply keepsX_ite | with_reducible apply keepsE_ite | with_reducible apply keepsE_go | exact keepsE_stop
    | exact keepsE_verd | dsimp only | (intro _; intros; try dsimp only)

theorem keeps_execAsterAnd {base : State} {x : EngStep} {d : Nat} {a : Nat} {b : Nat} {s : State} (h0 : Keeps base s) :
    KeepsX base (execAsterAnd x d a b s) := by
  unfold execAsterAnd
  try dsimp only
  repeat' first
    | with_reducible assumption | with_reducible apply keeps_asterBits | with_reducible apply keepsX_next
    | with_reducible exact keepsX_fault | with_reducible apply keepsX_ite | with_reducible apply keepsE_ite | with_reducible apply keepsE_go
    | exact keepsE_stop | exact keepsE_verd | dsimp only | (intro _; intros; try dsimp only)

theorem keeps_execAsterOr {base : State} {x : EngStep} {d : Nat} {a : Nat} {b : Nat} {s : State} (h0 : Keeps base s) :
    KeepsX base (execAsterOr x d a b s) := by
  unfold execAsterOr
  try dsimp only
  repeat' first
    | with_reducible assumption | with_reducible apply keeps_asterBits | with_reducible apply keepsX_next
    | with_reducible exact keepsX_fault | with_reducible apply keepsX_ite | with_reducible apply keepsE_ite | with_reducible apply keepsE_go
    | exact keepsE_stop | exact keepsE_verd | dsimp only | (intro _; intros; try dsimp only)

theorem keeps_execAsterXor {base : State} {x : EngStep} {d : Nat} {a : Nat} {b : Nat} {s : State} (h0 : Keeps base s) :
    KeepsX base (execAsterXor x d a b s) := by
  unfold execAsterXor
  try dsimp only
  repeat' first
    | with_reducible assumption | with_reducible apply keeps_asterBits | with_reducible apply keepsX_next
    | with_reducible exact keepsX_fault | with_reducible apply keepsX_ite | with_reducible apply keepsE_ite | with_reducible apply keepsE_go
    | exact keepsE_stop | exact keepsE_verd | dsimp only | (intro _; intros; try dsimp only)

theorem keeps_execAsterMin {base : State} {x : EngStep} {d : Nat} {a : Nat} {b : Nat} {s : State} (h0 : Keeps base s) :
    KeepsX base (execAsterMin x d a b s) := by
  unfold execAsterMin
  try dsimp only
  repeat' first
    | with_reducible assumption | with_reducible apply keeps_asterReg | with_reducible apply keepsX_next | with_reducible exact keepsX_fault
    | with_reducible apply keepsX_ite | with_reducible apply keepsE_ite | with_reducible apply keepsE_go | exact keepsE_stop
    | exact keepsE_verd | dsimp only | (intro _; intros; try dsimp only)

theorem keeps_execAsterMax {base : State} {x : EngStep} {d : Nat} {a : Nat} {b : Nat} {s : State} (h0 : Keeps base s) :
    KeepsX base (execAsterMax x d a b s) := by
  unfold execAsterMax
  try dsimp only
  repeat' first
    | with_reducible assumption | with_reducible apply keeps_asterReg | with_reducible apply keepsX_next | with_reducible exact keepsX_fault
    | with_reducible apply keepsX_ite | with_reducible apply keepsE_ite | with_reducible apply keepsE_go | exact keepsE_stop
    | exact keepsE_verd | dsimp only | (intro _; intros; try dsimp only)

theorem keeps_execAsterAbs {base : State} {x : EngStep} {d : Nat} {a : Nat} {s : State} (h0 : Keeps base s) :
    KeepsX base (execAsterAbs x d a s) := by
  unfold execAsterAbs
  try dsimp only
  repeat' first
    | with_reducible assumption | with_reducible apply keeps_asterReg | with_reducible apply keepsX_next | with_reducible exact keepsX_fault
    | with_reducible apply keepsX_ite | with_reducible apply keepsE_ite | with_reducible apply keepsE_go | exact keepsE_stop
    | exact keepsE_verd | dsimp only | (intro _; intros; try dsimp only)

theorem keeps_execAsterSqrt {base : State} {x : EngStep} {d : Nat} {a : Nat} {s : State} (h0 : Keeps base s) :
    KeepsX base (execAsterSqrt x d a s) := by
  unfold execAsterSqrt
  try dsimp only
  repeat' first
    | with_reducible assumption | with_reducible apply keeps_asterReg | with_reducible apply keeps_ite | with_reducible apply keepsX_next
    | with_reducible exact keepsX_fault | with_reducible apply keepsX_ite | with_reducible apply keepsE_ite | with_reducible apply keepsE_go
    | exact keepsE_stop | exact keepsE_verd | dsimp only | split | (intro _; intros; try dsimp only)

theorem keeps_execAsterSlt {base : State} {x : EngStep} {d : Nat} {a : Nat} {b : Nat} {s : State} (h0 : Keeps base s) :
    KeepsX base (execAsterSlt x d a b s) := by
  unfold execAsterSlt
  try dsimp only
  repeat' first
    | with_reducible assumption | with_reducible apply keeps_asterReg | with_reducible apply keeps_ite | with_reducible apply keepsX_next
    | with_reducible exact keepsX_fault | with_reducible apply keepsX_ite | with_reducible apply keepsE_ite | with_reducible apply keepsE_go
    | exact keepsE_stop | exact keepsE_verd | dsimp only | split | (intro _; intros; try dsimp only)

theorem keeps_execAsterShl {base : State} {x : EngStep} {d : Nat} {a : Nat} {b : Nat} {s : State} (h0 : Keeps base s) :
    KeepsX base (execAsterShl x d a b s) := by
  unfold execAsterShl
  try dsimp only
  repeat' first
    | with_reducible assumption | with_reducible apply keeps_asterReg | with_reducible apply keepsX_next | with_reducible exact keepsX_fault
    | with_reducible apply keepsX_ite | with_reducible apply keepsE_ite | with_reducible apply keepsE_go | exact keepsE_stop
    | exact keepsE_verd | dsimp only | (intro _; intros; try dsimp only)

theorem keeps_execAsterSra {base : State} {x : EngStep} {d : Nat} {a : Nat} {b : Nat} {s : State} (h0 : Keeps base s) :
    KeepsX base (execAsterSra x d a b s) := by
  unfold execAsterSra
  try dsimp only
  repeat' first
    | with_reducible assumption | with_reducible apply keeps_asterReg | with_reducible apply keepsX_next | with_reducible exact keepsX_fault
    | with_reducible apply keepsX_ite | with_reducible apply keepsE_ite | with_reducible apply keepsE_go | exact keepsE_stop
    | exact keepsE_verd | dsimp only | (intro _; intros; try dsimp only)

theorem keeps_execAsterAddi {base : State} {x : EngStep} {d : Nat} {a : Nat} {imm : Nat} {s : State} (h0 : Keeps base s) :
    KeepsX base (execAsterAddi x d a imm s) := by
  unfold execAsterAddi
  try dsimp only
  repeat' first
    | with_reducible assumption | with_reducible apply keeps_asterReg | with_reducible apply keepsX_next | with_reducible exact keepsX_fault
    | with_reducible apply keepsX_ite | with_reducible apply keepsE_ite | with_reducible apply keepsE_go | exact keepsE_stop
    | exact keepsE_verd | dsimp only | (intro _; intros; try dsimp only)

theorem keeps_execAsterLi {base : State} {x : EngStep} {d : Nat} {imm : Nat} {s : State} (h0 : Keeps base s) :
    KeepsX base (execAsterLi x d imm s) := by
  unfold execAsterLi
  try dsimp only
  repeat' first
    | with_reducible assumption | with_reducible apply keeps_asterReg | with_reducible apply keepsX_next | with_reducible exact keepsX_fault
    | with_reducible apply keepsX_ite | with_reducible apply keepsE_ite | with_reducible apply keepsE_go | exact keepsE_stop
    | exact keepsE_verd | dsimp only | (intro _; intros; try dsimp only)

theorem keeps_execAsterLih {base : State} {x : EngStep} {d : Nat} {imm : Nat} {s : State} (h0 : Keeps base s) :
    KeepsX base (execAsterLih x d imm s) := by
  unfold execAsterLih
  try dsimp only
  repeat' first
    | with_reducible assumption | with_reducible apply keeps_asterBits | with_reducible apply keepsX_next
    | with_reducible exact keepsX_fault | with_reducible apply keepsX_ite | with_reducible apply keepsE_ite | with_reducible apply keepsE_go
    | exact keepsE_stop | exact keepsE_verd | dsimp only | (intro _; intros; try dsimp only)

theorem keeps_execAsterAndi {base : State} {x : EngStep} {d : Nat} {a : Nat} {imm : Nat} {s : State} (h0 : Keeps base s) :
    KeepsX base (execAsterAndi x d a imm s) := by
  unfold execAsterAndi
  try dsimp only
  repeat' first
    | with_reducible assumption | with_reducible apply keeps_asterBits | with_reducible apply keepsX_next
    | with_reducible exact keepsX_fault | with_reducible apply keepsX_ite | with_reducible apply keepsE_ite | with_reducible apply keepsE_go
    | exact keepsE_stop | exact keepsE_verd | dsimp only | (intro _; intros; try dsimp only)

theorem keeps_execAsterSlti {base : State} {x : EngStep} {d : Nat} {a : Nat} {imm : Nat} {s : State} (h0 : Keeps base s) :
    KeepsX base (execAsterSlti x d a imm s) := by
  unfold execAsterSlti
  try dsimp only
  repeat' first
    | with_reducible assumption | with_reducible apply keeps_asterReg | with_reducible apply keeps_ite | with_reducible apply keepsX_next
    | with_reducible exact keepsX_fault | with_reducible apply keepsX_ite | with_reducible apply keepsE_ite | with_reducible apply keepsE_go
    | exact keepsE_stop | exact keepsE_verd | dsimp only | split | (intro _; intros; try dsimp only)

theorem keeps_execAsterShli {base : State} {x : EngStep} {d : Nat} {a : Nat} {imm : Nat} {s : State} (h0 : Keeps base s) :
    KeepsX base (execAsterShli x d a imm s) := by
  unfold execAsterShli
  try dsimp only
  repeat' first
    | with_reducible assumption | with_reducible apply keeps_asterReg | with_reducible apply keepsX_next | with_reducible exact keepsX_fault
    | with_reducible apply keepsX_ite | with_reducible apply keepsE_ite | with_reducible apply keepsE_go | exact keepsE_stop
    | exact keepsE_verd | dsimp only | (intro _; intros; try dsimp only)

theorem keeps_execAsterSrai {base : State} {x : EngStep} {d : Nat} {a : Nat} {imm : Nat} {s : State} (h0 : Keeps base s) :
    KeepsX base (execAsterSrai x d a imm s) := by
  unfold execAsterSrai
  try dsimp only
  repeat' first
    | with_reducible assumption | with_reducible apply keeps_asterReg | with_reducible apply keepsX_next | with_reducible exact keepsX_fault
    | with_reducible apply keepsX_ite | with_reducible apply keepsE_ite | with_reducible apply keepsE_go | exact keepsE_stop
    | exact keepsE_verd | dsimp only | (intro _; intros; try dsimp only)

theorem keeps_execAsterLdw {base : State} {x : EngStep} {d : Nat} {a : Nat} {imm : Nat} {s : State} (h0 : Keeps base s) :
    KeepsX base (execAsterLdw x d a imm s) := by
  unfold execAsterLdw
  try dsimp only
  repeat' first
    | with_reducible assumption | with_reducible apply keeps_aster | with_reducible apply keeps_ite | with_reducible apply keepsX_next
    | with_reducible exact keepsX_fault | with_reducible apply keepsX_ite | with_reducible apply keepsO_ite
    | with_reducible apply keepsO_some | with_reducible exact keepsO_none | with_reducible apply keepsE_ite | with_reducible apply keepsE_go
    | exact keepsE_stop | exact keepsE_verd | (simp only [keeps_mk]; first | with_reducible apply Keeps.parts | refine Keeps.parts' ?_ rfl)
    | dsimp only | split | (intro _; intros; try dsimp only)

theorem keeps_execAsterLdh {base : State} {x : EngStep} {d : Nat} {a : Nat} {imm : Nat} {s : State} (h0 : Keeps base s) :
    KeepsX base (execAsterLdh x d a imm s) := by
  unfold execAsterLdh
  try dsimp only
  repeat' first
    | with_reducible assumption | with_reducible apply keeps_aster | with_reducible apply keeps_ite | with_reducible apply keepsX_next
    | with_reducible exact keepsX_fault | with_reducible apply keepsX_ite | with_reducible apply keepsO_ite
    | with_reducible apply keepsO_some | with_reducible exact keepsO_none | with_reducible apply keepsE_ite | with_reducible apply keepsE_go
    | exact keepsE_stop | exact keepsE_verd | (simp only [keeps_mk]; first | with_reducible apply Keeps.parts | refine Keeps.parts' ?_ rfl)
    | dsimp only | split | (intro _; intros; try dsimp only)

theorem keeps_execAsterLds {base : State} {x : EngStep} {d : Nat} {a : Nat} {imm : Nat} {s : State} (h0 : Keeps base s) :
    KeepsX base (execAsterLds x d a imm s) := by
  unfold execAsterLds
  try dsimp only
  repeat' first
    | with_reducible assumption | with_reducible apply keeps_aster | with_reducible apply keepsX_next | with_reducible exact keepsX_fault
    | with_reducible apply keepsX_ite | with_reducible apply keepsO_ite | with_reducible apply keepsO_some
    | with_reducible exact keepsO_none | with_reducible apply keepsE_ite | with_reducible apply keepsE_go | exact keepsE_stop
    | exact keepsE_verd | (simp only [keeps_mk]; first | with_reducible apply Keeps.parts | refine Keeps.parts' ?_ rfl) | dsimp only | split
    | (intro _; intros; try dsimp only)

theorem keeps_execAsterSts {base : State} {x : EngStep} {d : Nat} {a : Nat} {imm : Nat} {s : State} (h0 : Keeps base s) :
    KeepsX base (execAsterSts x d a imm s) := by
  unfold execAsterSts
  try dsimp only
  repeat' first
    | with_reducible assumption | with_reducible apply keeps_aster | with_reducible apply keeps_setMemWord
    | with_reducible apply keepsX_next | with_reducible exact keepsX_fault | with_reducible apply keepsX_ite
    | with_reducible apply keepsO_ite | with_reducible apply keepsO_some | with_reducible exact keepsO_none
    | with_reducible apply keepsE_ite | with_reducible apply keepsE_go | exact keepsE_stop | exact keepsE_verd
    | (simp only [keeps_mk]; first | with_reducible apply Keeps.parts | refine Keeps.parts' ?_ rfl) | dsimp only | split
    | (intro _; intros; try dsimp only)

theorem keeps_execAsterWin {base : State} {x : EngStep} {a : Nat} {b : Nat} {fn : Nat} {s : State} (h0 : Keeps base s) :
    KeepsX base (execAsterWin x a b fn s) := by
  unfold execAsterWin
  try dsimp only
  repeat' first
    | with_reducible assumption | with_reducible apply keeps_aster | with_reducible apply keeps_ite | with_reducible apply keepsX_next
    | with_reducible exact keepsX_fault | with_reducible apply keepsX_ite | with_reducible apply keepsE_ite | with_reducible apply keepsE_go
    | exact keepsE_stop | exact keepsE_verd | (simp only [keeps_mk]; first | with_reducible apply Keeps.parts | refine Keeps.parts' ?_ rfl)
    | dsimp only | split | (intro _; intros; try dsimp only)

theorem keeps_execAsterPix {base : State} {x : EngStep} {d : Nat} {a : Nat} {b : Nat} {s : State} (h0 : Keeps base s) :
    KeepsX base (execAsterPix x d a b s) := by
  unfold execAsterPix
  try dsimp only
  repeat' first
    | with_reducible assumption | with_reducible apply keeps_aster | with_reducible apply keepsX_next | with_reducible exact keepsX_fault
    | with_reducible apply keepsX_ite | with_reducible apply keepsO_ite | with_reducible apply keepsO_some
    | with_reducible exact keepsO_none | with_reducible apply keepsE_ite | with_reducible apply keepsE_go | exact keepsE_stop
    | exact keepsE_verd | (simp only [keeps_mk]; first | with_reducible apply Keeps.parts | refine Keeps.parts' ?_ rfl) | dsimp only | split
    | (intro _; intros; try dsimp only)

theorem keeps_execAsterRed {base : State} {x : EngStep} {d : Nat} {a : Nat} {mode : Nat} {s : State} (h0 : Keeps base s) :
    KeepsX base (execAsterRed x d a mode s) := by
  unfold execAsterRed
  try dsimp only
  repeat' first
    | with_reducible assumption | with_reducible apply keeps_aster | with_reducible apply keepsX_next | with_reducible exact keepsX_fault
    | with_reducible apply keepsX_ite | with_reducible apply keepsE_ite | with_reducible apply keepsE_go | exact keepsE_stop
    | exact keepsE_verd | dsimp only | (intro _; intros; try dsimp only)

theorem keeps_execAsterHist {base : State} {x : EngStep} {a : Nat} {b : Nat} {s : State} (h0 : Keeps base s) :
    KeepsX base (execAsterHist x a b s) := by
  unfold execAsterHist
  try dsimp only
  repeat' first
    | with_reducible assumption | with_reducible apply keeps_aster | with_reducible apply keeps_setMemWord
    | with_reducible apply keepsX_next | with_reducible exact keepsX_fault | with_reducible apply keepsX_ite
    | with_reducible apply keepsE_ite | with_reducible apply keepsE_go | exact keepsE_stop | exact keepsE_verd
    | with_reducible apply keeps_foldl | with_reducible apply keeps_foldl_fst | dsimp only | (intro _; intros; try dsimp only)

theorem keeps_execAsterBr {base : State} {x : EngStep} {cond : Nat} {a : Nat} {b : Nat} {target : Nat} {s : State} (h0 : Keeps base s) :
    KeepsX base (execAsterBr x cond a b target s) := by
  unfold execAsterBr
  try dsimp only
  repeat' first
    | with_reducible assumption | with_reducible apply keeps_aster | with_reducible apply keeps_ite | with_reducible apply keepsX_next
    | with_reducible exact keepsX_fault | with_reducible apply keepsX_ite | with_reducible apply keepsE_ite | with_reducible apply keepsE_go
    | exact keepsE_stop | exact keepsE_verd | (simp only [keeps_mk]; first | with_reducible apply Keeps.parts | refine Keeps.parts' ?_ rfl)
    | dsimp only | split | (intro _; intros; try dsimp only)

theorem keeps_execAsterFeat {base : State} {x : EngStep} {k : Nat} {a : Nat} {s : State} (h0 : Keeps base s) :
    KeepsX base (execAsterFeat x k a s) := by
  unfold execAsterFeat
  try dsimp only
  repeat' first
    | with_reducible assumption | with_reducible apply keeps_aster | with_reducible apply keepsX_next | with_reducible exact keepsX_fault
    | with_reducible apply keepsX_ite | with_reducible apply keepsE_ite | with_reducible apply keepsE_go | exact keepsE_stop
    | exact keepsE_verd | (simp only [keeps_mk]; first | with_reducible apply Keeps.parts | refine Keeps.parts' ?_ rfl) | dsimp only
    | (intro _; intros; try dsimp only)

theorem keeps_execAsterVerd {base : State} {x : EngStep} {verdict : Nat} {a : Nat} {sel : Nat} {cls : Nat} {s : State} (h0 : Keeps base s) :
    KeepsX base (execAsterVerd x verdict a sel cls s) := by
  unfold execAsterVerd
  try dsimp only
  repeat' first
    | with_reducible assumption | with_reducible apply keeps_aster | with_reducible apply keeps_ite | with_reducible apply keepsX_next
    | with_reducible exact keepsX_fault | with_reducible apply keepsX_ite | with_reducible apply keepsE_ite | with_reducible apply keepsE_go
    | exact keepsE_stop | exact keepsE_verd | dsimp only | split | (intro _; intros; try dsimp only)

theorem keeps_startRun {base : State} {s : State} {x : Sheaf} {e : Nat} (h0 : Keeps base s) :
    Keeps base (State.startRun s x e) := by
  unfold State.startRun
  try dsimp only
  repeat' first
    | with_reducible assumption | with_reducible apply keeps_put | with_reducible apply keeps_putEngine
    | with_reducible apply keeps_putSheaf | with_reducible apply keeps_queueUpdate | with_reducible apply keeps_setPair
    | (simp only [keeps_mk]; first | with_reducible apply Keeps.parts | with_reducible apply Keeps.partsKeep | with_reducible apply Keeps.partsFallow | refine Keeps.parts' ?_ rfl)
    | dsimp only | (intro _; intros; try dsimp only)

theorem keeps_execEngineAccept {base : State} {w : Nat} {ecc : List EccFact} {s : State} (h0 : Keeps base s) :
    KeepsX base (execEngineAccept w ecc s) := by
  unfold execEngineAccept
  try dsimp only
  repeat' first
    | with_reducible assumption | with_reducible apply keeps_eccFacts | with_reducible apply keeps_elapse
    | with_reducible apply keeps_startRun | with_reducible apply keeps_ite | with_reducible apply keepsX_next
    | with_reducible exact keepsX_fault | with_reducible apply keepsX_ite | with_reducible apply keepsO_ite
    | with_reducible apply keepsO_some | with_reducible exact keepsO_none
    | (simp only [keeps_mk]; first | with_reducible apply Keeps.parts | refine Keeps.parts' ?_ rfl) | dsimp only | split

theorem keeps_deadlineEnd {base : State} {s : State} {slot : Nat} (h0 : Keeps base s) :
    Keeps base (State.deadlineEnd s slot) := by
  unfold State.deadlineEnd
  try dsimp only
  repeat' first
    | with_reducible assumption | with_reducible apply keeps_endRun | with_reducible apply keeps_outcome | with_reducible apply keeps_ite
    | with_reducible apply keepsO_ite | with_reducible apply keepsO_some | with_reducible exact keepsO_none
    | (simp only [keeps_mk]; first | with_reducible apply Keeps.parts | refine Keeps.parts' ?_ rfl) | dsimp only | split

theorem keeps_execDeadlinePassed {base : State} {slot : Nat} {s : State} (h0 : Keeps base s) :
    KeepsX base (execDeadlinePassed slot s) := by
  unfold execDeadlinePassed
  try dsimp only
  repeat' first
    | with_reducible assumption | with_reducible apply keeps_deadlineEnd | with_reducible apply keeps_fire
    | with_reducible apply keepsX_next | with_reducible exact keepsX_fault | with_reducible apply keepsX_ite
    | with_reducible apply keepsO_ite | with_reducible apply keepsO_some | with_reducible exact keepsO_none
    | (simp only [keeps_mk]; first | with_reducible apply Keeps.parts | refine Keeps.parts' ?_ rfl) | (refine KeepsO.use (by assumption) ?_)
    | dsimp only | split | (intro _; intros; try dsimp only)

theorem keeps_execEngineStall {base : State} {e : Nat} {s : State} (h0 : Keeps base s) :
    KeepsX base (execEngineStall e s) := by
  unfold execEngineStall
  try dsimp only
  repeat' first
    | with_reducible assumption | with_reducible apply keeps_elapseTo | with_reducible apply keeps_runFault | with_reducible apply keeps_ite
    | with_reducible apply keepsX_next | with_reducible exact keepsX_fault | with_reducible apply keepsX_ite | dsimp only | split

theorem keeps_selfTested {base : State} {s : State} {e : Nat} {pass : Bool} (h0 : Keeps base s) :
    Keeps base (State.selfTested s e pass) := by
  unfold State.selfTested
  try dsimp only
  repeat' first
    | with_reducible assumption | with_reducible apply keeps_bump | with_reducible apply keeps_countFault | with_reducible apply keeps_put
    | with_reducible apply keeps_putEngine | with_reducible apply keeps_setDomain | with_reducible apply keeps_workingUpdate
    | with_reducible apply keeps_ite | (simp only [keeps_mk]; first | with_reducible apply Keeps.parts | refine Keeps.parts' ?_ rfl)
    | dsimp only | split

theorem keeps_selftestDue {o : State} {s : State} {e : Nat} (h0 : Keeps o s) : KeepsO o (State.selftestDue s e) := by
  intro t h
  simp only [State.selftestDue, Option.map_eq_some_iff] at h
  obtain ⟨u, hu, rfl⟩ := h
  exact keeps_arm (keeps_fire h0 u hu)

theorem keeps_execEngineSelftest {base : State} {e : Nat} {w : Nat} {pass : Bool} {s : State} (h0 : Keeps base s) :
    KeepsX base (execEngineSelftest e w pass s) := by
  unfold execEngineSelftest
  try dsimp only
  repeat' first
    | with_reducible assumption | with_reducible apply keeps_elapse | with_reducible apply keeps_selfTested
    | with_reducible apply keeps_selftestDue | with_reducible apply keeps_ite | with_reducible apply keepsX_next
    | with_reducible exact keepsX_fault | with_reducible apply keepsX_ite | with_reducible apply keepsO_ite
    | with_reducible apply keepsO_some | with_reducible exact keepsO_none
    | (simp only [keeps_mk]; first | with_reducible apply Keeps.parts | refine Keeps.parts' ?_ rfl) | (refine KeepsO.use (by assumption) ?_)
    | dsimp only | split | (intro _; intros; try dsimp only)

theorem keeps_clearAst {base : State} {s : State} (h0 : Keeps base s) :
    Keeps base (State.clearAst s) := by
  unfold State.clearAst
  try dsimp only
  repeat' first
    | with_reducible assumption | with_reducible apply keeps_put | with_reducible apply keeps_setWord | with_reducible apply keeps_foldl
    | with_reducible apply keeps_foldl_fst | dsimp only | (intro _; intros; try dsimp only)

theorem keeps_restoreEngine {base : State} {s : State} {e : Nat} (h0 : Keeps base s) :
    Keeps base (State.restoreEngine s e) := by
  unfold State.restoreEngine
  try dsimp only
  repeat' first
    | with_reducible assumption | with_reducible apply keeps_put | with_reducible apply keeps_setDomain | with_reducible apply keeps_ite
    | dsimp only | split

theorem keeps_hostAstCmd {base : State} {s : State} {w : Nat} (h0 : Keeps base s) :
    KeepsO base (State.hostAstCmd s w) := by
  unfold State.hostAstCmd
  try dsimp only
  repeat' first
    | with_reducible assumption | with_reducible apply keeps_clearAst | with_reducible apply keeps_restoreEngine
    | with_reducible apply keeps_ite | with_reducible apply keepsO_ite | with_reducible apply keepsO_some | with_reducible exact keepsO_none
    | dsimp only | split

theorem keeps_execEngineRestore {base : State} {e : Nat} {pass : Bool} {s : State} (h0 : Keeps base s) :
    KeepsX base (execEngineRestore e pass s) := by
  unfold execEngineRestore
  try dsimp only
  repeat' first
    | with_reducible assumption | with_reducible apply keeps_elapse | with_reducible apply keeps_host
    | with_reducible apply keeps_hostAstCmd | with_reducible apply keeps_selfTested | with_reducible apply keeps_ite
    | with_reducible apply keepsX_next | with_reducible exact keepsX_fault | with_reducible apply keepsX_ite | dsimp only | split
    | (intro _; intros; try dsimp only)

theorem keeps_execAstClrCounters {base : State} {s : State} (h0 : Keeps base s) :
    KeepsX base (execAstClrCounters s) := by
  unfold execAstClrCounters
  try dsimp only
  repeat' first
    | with_reducible assumption | with_reducible apply keeps_host | with_reducible apply keeps_hostAstCmd | with_reducible apply keepsX_next
    | with_reducible exact keepsX_fault | with_reducible apply keepsX_ite | dsimp only | (intro _; intros; try dsimp only)

theorem keeps_hostAsterWord {base : State} {s : State} {a : Nat} {w : Word} (h0 : Keeps base s) :
    KeepsO base (State.hostAsterWord s a w) := by
  unfold State.hostAsterWord
  try dsimp only
  repeat' first
    | with_reducible assumption | with_reducible apply keeps_setMemWord | with_reducible apply keeps_ite | with_reducible apply keepsO_ite
    | with_reducible apply keepsO_some | with_reducible exact keepsO_none | with_reducible apply keepsE_ite | with_reducible apply keepsE_go
    | exact keepsE_stop | exact keepsE_verd | dsimp only | split

theorem keeps_execAsterMemoryWrite {base : State} {addr : Nat} {words : List (BitVec 32)} {s : State} (h0 : Keeps base s) :
    KeepsX base (execAsterMemoryWrite addr words s) := by
  unfold execAsterMemoryWrite
  try dsimp only
  repeat' first
    | with_reducible assumption | with_reducible apply keeps_hostAsterWord | with_reducible apply keeps_hostFrame
    | with_reducible apply keeps_ite | with_reducible apply keepsX_next | with_reducible exact keepsX_fault
    | with_reducible apply keepsX_ite | with_reducible apply keepsE_ite | with_reducible apply keepsE_go | exact keepsE_stop
    | exact keepsE_verd | dsimp only | split | (intro _; intros; try dsimp only)

theorem keeps_noteCheck {base : State} {s : State} {n : Nat} {value : Nat} (h0 : Keeps base s) :
    Keeps base (State.noteCheck s n value) := by
  unfold State.noteCheck
  try dsimp only
  repeat' first
    | with_reducible assumption | with_reducible apply keeps_put | with_reducible apply keeps_ite | dsimp only | split

theorem keeps_hostSlotProg {base : State} {s : State} {n : Nat} {value : Nat} (h0 : Keeps base s) :
    KeepsO base (State.hostSlotProg s n value) := by
  unfold State.hostSlotProg
  try dsimp only
  repeat' first
    | with_reducible assumption | with_reducible apply keeps_pend | with_reducible apply keeps_ite | with_reducible apply keepsO_ite
    | with_reducible apply keepsO_some | with_reducible exact keepsO_none | dsimp only | split

theorem keeps_execSlotProgWrite {base : State} {n : Nat} {value : Nat} {s : State} (h0 : Keeps base s) :
    KeepsX base (execSlotProgWrite n value s) := by
  unfold execSlotProgWrite
  try dsimp only
  repeat' first
    | with_reducible assumption | with_reducible apply keeps_host | with_reducible apply keeps_hostSlotProg
    | with_reducible apply keeps_noteCheck | with_reducible apply keeps_ite | with_reducible apply keepsX_next
    | with_reducible exact keepsX_fault | with_reducible apply keepsX_ite | dsimp only | split | (intro _; intros; try dsimp only)

end Sys2Proof.Laws
end

