-- ==== Sys2Proof/Laws/Keeps/Ethernet.lean ====
section
/-! SUPPORT. Machine/Ethernet.lean keeps the queue, the canonical form and one actuation per valve. -/

namespace Sys2Proof.Laws

open Sys2Proof.Machine Sys2Proof.Safety

theorem keeps_newPackets {base : State} {s : State} (h0 : Keeps base s) :
    Keeps base (State.newPackets s) := by
  unfold State.newPackets
  try dsimp only
  repeat' first
    | with_reducible assumption | (simp only [keeps_mk]; first | with_reducible apply Keeps.parts | refine Keeps.parts' ?_ rfl) | dsimp only

theorem keeps_transmit {base : State} {s : State} {p : Packet} (h0 : Keeps base s) :
    Keeps base (State.transmit s p) := by
  unfold State.transmit
  try dsimp only
  repeat' first
    | with_reducible assumption | with_reducible apply keeps_ite
    | (simp only [keeps_mk]; first | with_reducible apply Keeps.parts | refine Keeps.parts' ?_ rfl) | dsimp only | split

theorem keeps_sendStream {base : State} {s : State} {st : Nat} {p : Nat} {flags : Nat} {seq : Nat} {info : Nat} {part : Nat} {payload : List Byte} (h0 : Keeps base s) :
    Keeps base (State.sendStream s st p flags seq info part payload) := by
  unfold State.sendStream
  try dsimp only
  repeat' first
    | with_reducible assumption | with_reducible apply keeps_transmit | dsimp only

theorem keeps_received {base : State} {s : State} {p : Nat} {f : RxFrame} {k : State → State} (h0 : Keeps base s) (k3 : ∀ t, Keeps base t → Keeps base (k t)) :
    Keeps base (State.received s p f k) := by
  unfold State.received
  try dsimp only
  repeat' first
    | with_reducible assumption | with_reducible apply k3 | with_reducible apply keeps_bump | with_reducible apply keepsO_ite
    | with_reducible apply keepsO_some | with_reducible exact keepsO_none
    | (simp only [keeps_mk]; first | with_reducible apply Keeps.parts | refine Keeps.parts' ?_ rfl) | dsimp only | split

theorem keeps_ignored {base : State} {s : State} {f : RxFrame} (h0 : Keeps base s) :
    Keeps base (State.ignored s f) := by
  unfold State.ignored
  try dsimp only
  repeat' first
    | with_reducible assumption | with_reducible apply keeps_bump | with_reducible apply keeps_ite | dsimp only | split

theorem keeps_execFrameDropped {base : State} {p : Nat} {f : RxFrame} {s : State} (h0 : Keeps base s) :
    KeepsX base (execFrameDropped p f s) := by
  unfold execFrameDropped
  try dsimp only
  repeat' first
    | with_reducible assumption | with_reducible apply keeps_ignored | with_reducible apply keeps_received | with_reducible apply keeps_ite
    | with_reducible apply keeps_ite_fst | with_reducible apply keepsX_next | with_reducible exact keepsX_fault
    | with_reducible apply keepsX_ite | with_reducible apply keepsO_ite | with_reducible apply keepsO_some
    | with_reducible exact keepsO_none | with_reducible apply keepsP_ite | with_reducible apply keepsP_some
    | with_reducible exact keepsP_none | (simp only [keeps_mk]; first | with_reducible apply Keeps.parts | refine Keeps.parts' ?_ rfl)
    | (refine KeepsO.use (by assumption) ?_) | (refine KeepsP.use (by assumption) ?_) | (refine Keeps.ofPair (by assumption) ?_)
    | dsimp only | split | (intro _; intros; try dsimp only)

theorem keeps_execArpRequest {base : State} {p : Nat} {f : RxFrame} {s : State} (h0 : Keeps base s) :
    KeepsX base (execArpRequest p f s) := by
  unfold execArpRequest
  try dsimp only
  repeat' first
    | with_reducible assumption | with_reducible apply keeps_newPackets | with_reducible apply keeps_received
    | with_reducible apply keeps_transmit | with_reducible apply keeps_ite | with_reducible apply keepsX_next
    | with_reducible exact keepsX_fault | with_reducible apply keepsX_ite | dsimp only | split | (intro _; intros; try dsimp only)

theorem keeps_portBits {base : State} {s : State} (h0 : Keeps base s) :
    Keeps base (State.portBits s) := by
  unfold State.portBits
  try dsimp only
  repeat' first
    | with_reducible assumption | with_reducible apply keeps_put | with_reducible apply keeps_ite | with_reducible apply keeps_foldl
    | with_reducible apply keeps_foldl_fst | dsimp only | split | (intro _; intros; try dsimp only)

theorem keeps_recordPortCheck {base : State} {s : State} (h0 : Keeps base s) :
    Keeps base (State.recordPortCheck s) := by
  unfold State.recordPortCheck
  try dsimp only
  repeat' first
    | with_reducible assumption | with_reducible apply keeps_degrade | with_reducible apply keeps_ite | dsimp only | split

theorem keeps_linkLost {base : State} {s : State} {p : Nat} (h0 : Keeps base s) :
    Keeps base (State.linkLost s p) := by
  unfold State.linkLost
  try dsimp only
  repeat' first
    | with_reducible assumption | with_reducible apply keeps_arm | with_reducible apply keeps_bump | with_reducible apply keeps_disarm
    | with_reducible apply keeps_failover | with_reducible apply keeps_portBits | with_reducible apply keeps_put
    | with_reducible apply keeps_recordPortCheck | with_reducible apply keeps_ite | dsimp only | split

theorem keeps_linkChange {base : State} {s : State} {p : Nat} {link : Bool} {lf : Bool} {rf : Bool} {hiBer : Bool} {corrected : Nat} {uncorrected : Nat} (h0 : Keeps base s) :
    Keeps base (State.linkChange s p link lf rf hiBer corrected uncorrected) := by
  unfold State.linkChange
  try dsimp only
  repeat' first
    | with_reducible assumption | with_reducible apply keeps_arm | with_reducible apply keeps_bump | with_reducible apply keeps_linkLost
    | with_reducible apply keeps_portBits | with_reducible apply keeps_put | with_reducible apply keeps_putFlag
    | with_reducible apply keeps_ite | dsimp only | split

theorem keeps_execPortLinkChange {base : State} {p : Nat} {link : Bool} {localFault : Bool} {remoteFault : Bool} {hiBer : Bool} {corrected : Nat} {uncorrected : Nat} {s : State} (h0 : Keeps base s) :
    KeepsX base (execPortLinkChange p link localFault remoteFault hiBer corrected uncorrected s) := by
  unfold execPortLinkChange
  try dsimp only
  repeat' first
    | with_reducible assumption | with_reducible apply keeps_linkChange | with_reducible apply keeps_ite | with_reducible apply keepsX_next
    | with_reducible exact keepsX_fault | with_reducible apply keepsX_ite | dsimp only | split

theorem keeps_execPortReady {base : State} {p : Nat} {s : State} (h0 : Keeps base s) :
    KeepsX base (execPortReady p s) := by
  unfold execPortReady
  try dsimp only
  repeat' first
    | with_reducible assumption | with_reducible apply keeps_arm | with_reducible apply keeps_disarm | with_reducible apply keeps_failover
    | with_reducible apply keeps_fire | with_reducible apply keeps_portBits | with_reducible apply keeps_put
    | with_reducible apply keeps_ite | with_reducible apply keepsX_next | with_reducible exact keepsX_fault
    | with_reducible apply keepsX_ite | with_reducible apply keepsO_ite | with_reducible apply keepsO_some
    | with_reducible exact keepsO_none | (simp only [keeps_mk]; first | with_reducible apply Keeps.parts | refine Keeps.parts' ?_ rfl)
    | (refine KeepsO.use (by assumption) ?_) | dsimp only | split | (intro _; intros; try dsimp only)

theorem keeps_restartPort {base : State} {s : State} {p : Nat} (h0 : Keeps base s) :
    Keeps base (State.restartPort s p) := by
  unfold State.restartPort
  try dsimp only
  repeat' first
    | with_reducible assumption | with_reducible apply keeps_linkLost | with_reducible apply keeps_setDomain
    | with_reducible apply keeps_ite | dsimp only | split

theorem keeps_execPortRetain {base : State} {p : Nat} {s : State} (h0 : Keeps base s) :
    KeepsX base (execPortRetain p s) := by
  unfold execPortRetain
  try dsimp only
  repeat' first
    | with_reducible assumption | with_reducible apply keeps_setDomain | with_reducible apply keeps_ite | with_reducible apply keepsX_next
    | with_reducible exact keepsX_fault | with_reducible apply keepsX_ite | dsimp only | split

theorem keeps_execPortWake {base : State} {p : Nat} {s : State} (h0 : Keeps base s) :
    KeepsX base (execPortWake p s) := by
  unfold execPortWake
  try dsimp only
  repeat' first
    | with_reducible assumption | with_reducible apply keeps_setDomain | with_reducible apply keeps_ite | with_reducible apply keepsX_next
    | with_reducible exact keepsX_fault | with_reducible apply keepsX_ite | dsimp only | split

theorem keeps_hostPortCtrl {base : State} {s : State} {p : Nat} {value : Nat} (h0 : Keeps base s) :
    KeepsO base (State.hostPortCtrl s p value) := by
  unfold State.hostPortCtrl
  try dsimp only
  repeat' first
    | with_reducible assumption | with_reducible apply keeps_allow | with_reducible apply keeps_restartPort
    | with_reducible apply keeps_setWord | with_reducible apply keeps_ite | with_reducible apply keepsO_ite
    | with_reducible apply keepsO_some | with_reducible exact keepsO_none | dsimp only | split | (intro _; intros; try dsimp only)

theorem keeps_execPortCtrlWrite {base : State} {p : Nat} {value : Nat} {s : State} (h0 : Keeps base s) :
    KeepsX base (execPortCtrlWrite p value s) := by
  unfold execPortCtrlWrite
  try dsimp only
  repeat' first
    | with_reducible assumption | with_reducible apply keeps_host | with_reducible apply keeps_hostPortCtrl | with_reducible apply keeps_ite
    | with_reducible apply keepsX_next | with_reducible exact keepsX_fault | with_reducible apply keepsX_ite | dsimp only | split
    | (intro _; intros; try dsimp only)

theorem keeps_hostStream {base : State} {s : State} {st : Nat} {value : Nat} (h0 : Keeps base s) :
    KeepsO base (State.hostStream s st value) := by
  unfold State.hostStream
  try dsimp only
  repeat' first
    | with_reducible assumption | with_reducible apply keeps_allow | with_reducible apply keeps_arm | with_reducible apply keeps_disarm
    | with_reducible apply keeps_freeSlots | with_reducible apply keeps_put | with_reducible apply keeps_setWord
    | with_reducible apply keeps_watchPort | with_reducible apply keeps_ite | with_reducible apply keepsO_ite
    | with_reducible apply keepsO_some | with_reducible exact keepsO_none
    | (simp only [keeps_mk]; first | with_reducible apply Keeps.parts | refine Keeps.parts' ?_ rfl) | dsimp only | split
    | (intro _; intros; try dsimp only)

theorem keeps_execStreamAssign {base : State} {st : Nat} {value : Nat} {s : State} (h0 : Keeps base s) :
    KeepsX base (execStreamAssign st value s) := by
  unfold execStreamAssign
  try dsimp only
  repeat' first
    | with_reducible assumption | with_reducible apply keeps_host | with_reducible apply keeps_hostStream | with_reducible apply keeps_ite
    | with_reducible apply keepsX_next | with_reducible exact keepsX_fault | with_reducible apply keepsX_ite | dsimp only | split
    | (intro _; intros; try dsimp only)

theorem keeps_resend {base : State} {s : State} (h0 : Keeps base s) :
    Keeps base (State.resend s) := by
  unfold State.resend
  try dsimp only
  repeat' first
    | with_reducible assumption | (simp only [keeps_mk]; first | with_reducible apply Keeps.parts | refine Keeps.parts' ?_ rfl) | dsimp only

theorem keeps_windowFlag {base : State} {s : State} (h0 : Keeps base s) :
    Keeps base (State.windowFlag s) := by
  unfold State.windowFlag
  try dsimp only
  repeat' first
    | with_reducible assumption | with_reducible apply keeps_putFlag | dsimp only

theorem keeps_sendRecords {base : State} {s : State} {n : Nat} (h0 : Keeps base s) :
    Keeps base (State.sendRecords s n) := by
  unfold State.sendRecords
  try dsimp only
  repeat' first
    | with_reducible assumption | with_reducible apply keeps_arm | with_reducible apply keeps_bump | with_reducible apply keeps_newPackets
    | with_reducible apply keeps_sendStream | with_reducible apply keeps_windowFlag | with_reducible apply keeps_ite
    | (simp only [keeps_mk]; first | with_reducible apply Keeps.parts | refine Keeps.parts' ?_ rfl) | dsimp only | split
    | (intro _; intros; try dsimp only)

theorem keeps_recordPacket {base : State} {s : State} (h0 : Keeps base s) :
    Keeps base (State.recordPacket s) := by
  unfold State.recordPacket
  try dsimp only
  repeat' first
    | with_reducible assumption | with_reducible apply keeps_elapseTo | with_reducible apply keeps_sendRecords
    | with_reducible apply keeps_ite | dsimp only | split

theorem keeps_execRecordPacketSend {base : State} {s : State} (h0 : Keeps base s) :
    KeepsX base (execRecordPacketSend s) := by
  unfold execRecordPacketSend
  try dsimp only
  repeat' first
    | with_reducible assumption | with_reducible apply keeps_recordPacket | with_reducible apply keepsX_next
    | with_reducible exact keepsX_fault | with_reducible apply keepsX_ite | dsimp only

theorem keeps_acknowledge {base : State} {s : State} {seq : Nat} {nack : Bool} (h0 : Keeps base s) :
    Keeps base (State.acknowledge s seq nack) := by
  unfold State.acknowledge
  try dsimp only
  repeat' first
    | with_reducible assumption | with_reducible apply keeps_arm | with_reducible apply keeps_bump | with_reducible apply keeps_disarm
    | with_reducible apply keeps_freeSlots | with_reducible apply keeps_resend | with_reducible apply keeps_setPair
    | with_reducible apply keeps_windowFlag | with_reducible apply keeps_ite
    | (simp only [keeps_mk]; first | with_reducible apply Keeps.parts | refine Keeps.parts' ?_ rfl) | dsimp only | split

theorem keeps_execRecordAck {base : State} {p : Nat} {f : RxFrame} {seq : Nat} {nack : Bool} {s : State} (h0 : Keeps base s) :
    KeepsX base (execRecordAck p f seq nack s) := by
  unfold execRecordAck
  try dsimp only
  repeat' first
    | with_reducible assumption | with_reducible apply keeps_acknowledge | with_reducible apply keeps_received
    | with_reducible apply keeps_ite | with_reducible apply keepsX_next | with_reducible exact keepsX_fault
    | with_reducible apply keepsX_ite | dsimp only | split | (intro _; intros; try dsimp only)

theorem keeps_execRetransmitTimeout {base : State} {s : State} (h0 : Keeps base s) :
    KeepsX base (execRetransmitTimeout s) := by
  unfold execRetransmitTimeout
  try dsimp only
  repeat' first
    | with_reducible assumption | with_reducible apply keeps_arm | with_reducible apply keeps_fire | with_reducible apply keeps_resend
    | with_reducible apply keeps_ite | with_reducible apply keepsX_next | with_reducible exact keepsX_fault
    | with_reducible apply keepsX_ite | with_reducible apply keepsO_ite | with_reducible apply keepsO_some
    | with_reducible exact keepsO_none | (simp only [keeps_mk]; first | with_reducible apply Keeps.parts | refine Keeps.parts' ?_ rfl)
    | (refine KeepsO.use (by assumption) ?_) | dsimp only | split | (intro _; intros; try dsimp only)

theorem keeps_execKeepalive {base : State} {s : State} (h0 : Keeps base s) :
    KeepsX base (execKeepalive s) := by
  unfold execKeepalive
  try dsimp only
  repeat' first
    | with_reducible assumption | with_reducible apply keeps_arm | with_reducible apply keeps_fire | with_reducible apply keeps_newPackets
    | with_reducible apply keeps_sendStream | with_reducible apply keeps_ite | with_reducible apply keepsX_next
    | with_reducible exact keepsX_fault | with_reducible apply keepsX_ite | with_reducible apply keepsO_ite
    | with_reducible apply keepsO_some | with_reducible exact keepsO_none
    | (simp only [keeps_mk]; first | with_reducible apply Keeps.parts | refine Keeps.parts' ?_ rfl) | (refine KeepsO.use (by assumption) ?_)
    | dsimp only | split | (intro _; intros; try dsimp only)

theorem keeps_moveRecords {base : State} {s : State} {p : Nat} {failed : Bool} (h0 : Keeps base s) :
    Keeps base (State.moveRecords s p failed) := by
  unfold State.moveRecords
  try dsimp only
  repeat' first
    | with_reducible assumption | with_reducible apply keeps_put | with_reducible apply keeps_putFlag | with_reducible apply keeps_resend
    | with_reducible apply keeps_watchPort | (simp only [keeps_mk]; first | with_reducible apply Keeps.parts | refine Keeps.parts' ?_ rfl)
    | dsimp only

theorem keeps_recordsStuck {o : State} {s : State} (h0 : Keeps o s) : KeepsO o s.recordsStuck := by
  unfold State.recordsStuck
  exact keepsO_map fun t => keeps_disarm (keeps_elapseTo h0)

theorem keeps_failover {o : State} {s : State} (h0 : Keeps o s) : Keeps o s.failover := by
  unfold State.failover
  refine keeps_ite h0 ?_
  split
  · exact h0
  · rename_i t e
    have ht : Keeps o t := keeps_recordsStuck h0 t e
    exact keeps_ite (keeps_ite (keeps_moveRecords ht) h0) (keeps_recordPortCheck (keeps_emit (keeps_moveRecords ht)))

theorem keeps_execRecordFailover {base : State} {s : State} (h0 : Keeps base s) :
    KeepsX base (execRecordFailover s) := by
  unfold execRecordFailover
  try dsimp only
  repeat' first
    | with_reducible assumption | with_reducible apply keeps_failover | with_reducible apply keepsX_next | with_reducible exact keepsX_fault
    | with_reducible apply keepsX_ite | dsimp only

theorem keeps_hostReturn {base : State} {s : State} (h0 : Keeps base s) :
    Keeps base (State.hostReturn s) := by
  unfold State.hostReturn
  try dsimp only
  repeat' first
    | with_reducible assumption | with_reducible apply keeps_moveRecords | with_reducible apply keeps_ite | dsimp only | split

theorem keeps_execEthReturn {base : State} {s : State} (h0 : Keeps base s) :
    KeepsX base (execEthReturn s) := by
  unfold execEthReturn
  try dsimp only
  repeat' first
    | with_reducible assumption | with_reducible apply keeps_host | with_reducible apply keeps_hostReturn | with_reducible apply keepsX_next
    | with_reducible exact keepsX_fault | with_reducible apply keepsX_ite | with_reducible apply keepsO_ite
    | with_reducible apply keepsO_some | with_reducible exact keepsO_none | dsimp only

theorem keeps_clearEthCounters {base : State} {s : State} (h0 : Keeps base s) :
    Keeps base (State.clearEthCounters s) := by
  unfold State.clearEthCounters
  try dsimp only
  repeat' first
    | with_reducible assumption | with_reducible apply keeps_put | with_reducible apply keeps_setWord | with_reducible apply keeps_foldl
    | with_reducible apply keeps_foldl_fst | dsimp only | (intro _; intros; try dsimp only)

theorem keeps_execEthClrCounters {base : State} {s : State} (h0 : Keeps base s) :
    KeepsX base (execEthClrCounters s) := by
  unfold execEthClrCounters
  try dsimp only
  repeat' first
    | with_reducible assumption | with_reducible apply keeps_clearEthCounters | with_reducible apply keeps_host
    | with_reducible apply keepsX_next | with_reducible exact keepsX_fault | with_reducible apply keepsX_ite
    | with_reducible apply keepsO_ite | with_reducible apply keepsO_some | with_reducible exact keepsO_none | dsimp only

theorem keeps_sendEvents {base : State} {s : State} (h0 : Keeps base s) :
    Keeps base (State.sendEvents s) := by
  unfold State.sendEvents
  try dsimp only
  repeat' first
    | with_reducible assumption | with_reducible apply keeps_bump | with_reducible apply keeps_newPackets
    | with_reducible apply keeps_sendStream | with_reducible apply keeps_ite
    | (simp only [keeps_mk]; first | with_reducible apply Keeps.parts | refine Keeps.parts' ?_ rfl) | dsimp only | split

theorem keeps_execEventPacketSend {base : State} {s : State} (h0 : Keeps base s) :
    KeepsX base (execEventPacketSend s) := by
  unfold execEventPacketSend
  try dsimp only
  repeat' first
    | with_reducible assumption | with_reducible apply keeps_elapseTo | with_reducible apply keeps_sendEvents
    | with_reducible apply keeps_ite | with_reducible apply keepsX_next | with_reducible exact keepsX_fault
    | with_reducible apply keepsX_ite | (simp only [keeps_mk]; first | with_reducible apply Keeps.parts | refine Keeps.parts' ?_ rfl)
    | dsimp only | split

end Sys2Proof.Laws
end

