-- ==== Sys2Proof/Laws/Keeps/Hkc.lean ====
section
/-! SUPPORT. Machine/Hkc.lean keeps the queue, the canonical form and one actuation per valve. -/

namespace Sys2Proof.Laws

open Sys2Proof.Machine Sys2Proof.Safety

theorem keeps_hkcBusy {base : State} {s : State} (h0 : Keeps base s) :
    Keeps base (State.hkcBusy s) := by
  unfold State.hkcBusy
  try dsimp only
  repeat' first
    | with_reducible assumption | with_reducible apply keeps_putFlag | with_reducible apply keepsO_ite | with_reducible apply keepsO_some
    | with_reducible exact keepsO_none | (simp only [keeps_mk]; first | with_reducible apply Keeps.parts | refine Keeps.parts' ?_ rfl)
    | dsimp only | split | (intro _; intros; try dsimp only)

theorem keeps_startEntry {base : State} {s : State} {n : Nat} (h0 : Keeps base s) :
    Keeps base (State.startEntry s n) := by
  unfold State.startEntry
  try dsimp only
  repeat' first
    | with_reducible assumption | with_reducible apply keeps_arm | with_reducible apply keeps_put | with_reducible apply keepsO_ite
    | with_reducible apply keepsO_some | with_reducible exact keepsO_none
    | (simp only [keeps_mk]; first | with_reducible apply Keeps.parts | refine Keeps.parts' ?_ rfl) | dsimp only | split

theorem keeps_startPhase {base : State} {s : State} {p : HkcPhase} {rest : List HkcPhase} (h0 : Keeps base s) :
    Keeps base (State.startPhase s p rest) := by
  unfold State.startPhase
  try dsimp only
  repeat' first
    | with_reducible assumption | with_reducible apply keeps_arm | with_reducible apply keeps_hkcBusy | with_reducible apply keepsO_ite
    | with_reducible apply keepsO_some | with_reducible exact keepsO_none
    | (simp only [keeps_mk]; first | with_reducible apply Keeps.parts | refine Keeps.parts' ?_ rfl) | dsimp only

theorem keeps_endPass {base : State} {s : State} (h0 : Keeps base s) :
    Keeps base (State.endPass s) := by
  unfold State.endPass
  try dsimp only
  repeat' first
    | with_reducible assumption | with_reducible apply keeps_arm | with_reducible apply keeps_bump | with_reducible apply keeps_put
    | with_reducible apply keeps_ite | (simp only [keeps_mk]; first | with_reducible apply Keeps.parts | refine Keeps.parts' ?_ rfl)
    | dsimp only | split

theorem keeps_hkcNext {base : State} {s : State} (h0 : Keeps base s) :
    Keeps base (State.hkcNext s) := by
  unfold State.hkcNext
  try dsimp only
  repeat' first
    | with_reducible assumption | with_reducible apply keeps_endPass | with_reducible apply keeps_startEntry
    | with_reducible apply keeps_startPhase | with_reducible apply keeps_ite | with_reducible apply keepsO_ite
    | with_reducible apply keepsO_some | with_reducible exact keepsO_none
    | (simp only [keeps_mk]; first | with_reducible apply Keeps.parts | refine Keeps.parts' ?_ rfl) | dsimp only | split
    | (intro _; intros; try dsimp only)

theorem keeps_startPass {base : State} {s : State} (h0 : Keeps base s) :
    Keeps base (State.startPass s) := by
  unfold State.startPass
  try dsimp only
  repeat' first
    | with_reducible assumption | with_reducible apply keeps_hkcNext | with_reducible apply keeps_put | with_reducible apply keeps_transfer
    | (simp only [keeps_mk]; first | with_reducible apply Keeps.parts | refine Keeps.parts' ?_ rfl) | dsimp only

theorem keeps_execHkcPassStart {base : State} {s : State} (h0 : Keeps base s) :
    KeepsX base (execHkcPassStart s) := by
  unfold execHkcPassStart
  try dsimp only
  repeat' first
    | with_reducible assumption | with_reducible apply keeps_fire | with_reducible apply keeps_startPass | with_reducible apply keeps_ite
    | with_reducible apply keepsX_next | with_reducible exact keepsX_fault | with_reducible apply keepsX_ite
    | with_reducible apply keepsO_ite | with_reducible apply keepsO_some | with_reducible exact keepsO_none
    | (simp only [keeps_mk]; first | with_reducible apply Keeps.parts | refine Keeps.parts' ?_ rfl) | (refine KeepsO.use (by assumption) ?_)
    | dsimp only | split | (intro _; intros; try dsimp only)

theorem keeps_sourceResult {base : State} {s : State} {src : Nat} {v : Int} {ovr : Bool} (h0 : Keeps base s) :
    Keeps base (State.sourceResult s src v ovr) := by
  unfold State.sourceResult
  try dsimp only
  repeat' first
    | with_reducible assumption | with_reducible apply keeps_failTherm | with_reducible apply keeps_thermReading
    | with_reducible apply keeps_vboostResult | with_reducible apply keeps_ite | with_reducible apply keepsO_ite
    | with_reducible apply keepsO_some | with_reducible exact keepsO_none
    | (simp only [keeps_mk]; first | with_reducible apply Keeps.parts | refine Keeps.parts' ?_ rfl) | dsimp only | split

theorem keeps_entryDone {base : State} {s : State} {n : Nat} {word : Nat} {ofs : Nat} {gain : Nat} {cur : Nat} {code : Int} {ovr : Bool} (h0 : Keeps base s) :
    Keeps base (State.entryDone s n word ofs gain cur code ovr) := by
  unfold State.entryDone
  try dsimp only
  repeat' first
    | with_reducible assumption | with_reducible apply keeps_draw | with_reducible apply keeps_put | with_reducible apply keeps_putFlag
    | with_reducible apply keeps_putS | with_reducible apply keeps_sourceResult | with_reducible apply keeps_ite | dsimp only | split

theorem keeps_execHkcEntryDone {base : State} {code : Int} {ovr : Bool} {s : State} (h0 : Keeps base s) :
    KeepsX base (execHkcEntryDone code ovr s) := by
  unfold execHkcEntryDone
  try dsimp only
  repeat' first
    | with_reducible assumption | with_reducible apply keeps_entryDone | with_reducible apply keeps_fire
    | with_reducible apply keeps_hkcNext | with_reducible apply keepsX_next | with_reducible exact keepsX_fault
    | with_reducible apply keepsX_ite | with_reducible apply keepsO_ite | with_reducible apply keepsO_some
    | with_reducible exact keepsO_none | (simp only [keeps_mk]; first | with_reducible apply Keeps.parts | refine Keeps.parts' ?_ rfl)
    | (refine KeepsO.use (by assumption) ?_) | dsimp only | split | (intro _; intros; try dsimp only)

theorem keeps_addPhases {base : State} {s : State} {ps : List HkcPhase} (h0 : Keeps base s) :
    Keeps base (State.addPhases s ps) := by
  unfold State.addPhases
  try dsimp only
  repeat' first
    | with_reducible assumption | with_reducible apply keeps_hkcBusy | with_reducible apply keeps_hkcNext
    | (simp only [keeps_mk]; first | with_reducible apply Keeps.parts | refine Keeps.parts' ?_ rfl) | dsimp only

theorem keeps_hostHkcCmd {base : State} {s : State} {w : Nat} (h0 : Keeps base s) :
    Keeps base (State.hostHkcCmd s w).1 := by
  unfold State.hostHkcCmd
  try dsimp only
  repeat' first
    | with_reducible assumption | with_reducible apply keeps_addPhases | with_reducible apply keeps_thenAct | with_reducible apply keeps_ite
    | with_reducible apply keeps_ite_fst | with_reducible apply keepsO_ite | with_reducible apply keepsO_some
    | with_reducible exact keepsO_none | dsimp only | split | (intro _; intros; try dsimp only)

theorem keeps_execSelfCal {base : State} {gain : Nat} {s : State} (h0 : Keeps base s) :
    KeepsX base (execSelfCal gain s) := by
  unfold execSelfCal
  try dsimp only
  repeat' first
    | with_reducible assumption | with_reducible apply keeps_hostDone | with_reducible apply keeps_hostHkcCmd
    | with_reducible apply keepsX_next | with_reducible exact keepsX_fault | with_reducible apply keepsX_ite | dsimp only

theorem keeps_execExcCal {base : State} {s : State} (h0 : Keeps base s) :
    KeepsX base (execExcCal s) := by
  unfold execExcCal
  try dsimp only
  repeat' first
    | with_reducible assumption | with_reducible apply keeps_hostDone | with_reducible apply keeps_hostHkcCmd
    | with_reducible apply keepsX_next | with_reducible exact keepsX_fault | with_reducible apply keepsX_ite | dsimp only

theorem keeps_phaseDone {base : State} {s : State} {p : HkcPhase} {factor : Nat} (h0 : Keeps base s) :
    Keeps base (State.phaseDone s p factor) := by
  unfold State.phaseDone
  try dsimp only
  repeat' first
    | with_reducible assumption | with_reducible apply keeps_put | with_reducible apply keeps_ite | with_reducible apply keepsO_ite
    | with_reducible apply keepsO_some | with_reducible exact keepsO_none
    | (simp only [keeps_mk]; first | with_reducible apply Keeps.parts | refine Keeps.parts' ?_ rfl) | dsimp only | split

theorem keeps_execCalPhaseDone {base : State} {factor : Nat} {s : State} (h0 : Keeps base s) :
    KeepsX base (execCalPhaseDone factor s) := by
  unfold execCalPhaseDone
  try dsimp only
  repeat' first
    | with_reducible assumption | with_reducible apply keeps_fire | with_reducible apply keeps_hkcBusy | with_reducible apply keeps_hkcNext
    | with_reducible apply keeps_phaseDone | with_reducible apply keepsX_next | with_reducible exact keepsX_fault
    | with_reducible apply keepsX_ite | with_reducible apply keepsO_ite | with_reducible apply keepsO_some
    | with_reducible exact keepsO_none | (simp only [keeps_mk]; first | with_reducible apply Keeps.parts | refine Keeps.parts' ?_ rfl)
    | (refine KeepsO.use (by assumption) ?_) | dsimp only | split | (intro _; intros; try dsimp only)

theorem keeps_hkcStart {base : State} {s : State} (h0 : Keeps base s) :
    Keeps base (State.hkcStart s) := by
  unfold State.hkcStart
  try dsimp only
  repeat' first
    | with_reducible assumption | with_reducible apply keeps_addPhases | with_reducible apply keeps_arm | with_reducible apply keeps_put
    | with_reducible apply keeps_setDomain | (simp only [keeps_mk]; first | with_reducible apply Keeps.parts | refine Keeps.parts' ?_ rfl)
    | dsimp only

theorem keeps_hkcCommit {base : State} {s : State} (h0 : Keeps base s) :
    Keeps base (State.hkcCommit s) := by
  unfold State.hkcCommit
  try dsimp only
  repeat' first
    | with_reducible assumption | with_reducible apply keeps_addPhases | with_reducible apply keeps_disarm | with_reducible apply keeps_put
    | with_reducible apply keepsO_ite | with_reducible apply keepsO_some | with_reducible exact keepsO_none
    | (simp only [keeps_mk]; first | with_reducible apply Keeps.parts | refine Keeps.parts' ?_ rfl) | dsimp only
    | (intro _; intros; try dsimp only)

theorem keeps_hkcCtrlEffect {base : State} {s : State} (h0 : Keeps base s) :
    Keeps base (State.hkcCtrlEffect s) := by
  unfold State.hkcCtrlEffect
  try dsimp only
  repeat' first
    | with_reducible assumption | with_reducible apply keeps_arm | with_reducible apply keeps_disarm | with_reducible apply keeps_ite
    | dsimp only | split

end Sys2Proof.Laws
end

