-- ==== Sys2Proof/Laws/Keeps/Glean.lean ====
section
/-! SUPPORT. Machine/Glean.lean keeps the queue, the canonical form and one actuation per valve. -/

namespace Sys2Proof.Laws

open Sys2Proof.Machine Sys2Proof.Safety

theorem keeps_gleanedD {base : State} {s : State} {a : Nat} {dts : Int} {sum : Int} {n : Nat} (h0 : Keeps base s) :
    Keeps base (State.gleanedD s a dts sum n).1 := by
  unfold State.gleanedD
  try dsimp only
  repeat' first
    | with_reducible assumption | with_reducible apply keeps_draw | with_reducible apply keeps_ite | with_reducible apply keeps_ite_fst
    | dsimp only | split

theorem keeps_gleanSample {base : State} {s : State} {i : Nat} {eps : Int} {dts : Int} (h0 : Keeps base s) :
    Keeps base (State.gleanSample s i eps dts) := by
  unfold State.gleanSample
  try dsimp only
  repeat' first
    | with_reducible assumption | with_reducible apply keeps_glean | with_reducible apply keeps_gleanedD | with_reducible apply keeps_ite
    | (simp only [keeps_mk]; first | with_reducible apply Keeps.parts | refine Keeps.parts' ?_ rfl) | dsimp only | split

theorem keeps_qualSample {base : State} {s : State} {i : Nat} {eps : Int} (h0 : Keeps base s) :
    Keeps base (State.qualSample s i eps) := by
  unfold State.qualSample
  try dsimp only
  repeat' first
    | with_reducible assumption | with_reducible apply keeps_ite
    | (simp only [keeps_mk]; first | with_reducible apply Keeps.parts | refine Keeps.parts' ?_ rfl) | dsimp only | split

theorem keeps_gleanPixel {base : State} {s : State} {on : Bool} {m : Nat} {row : Nat} {c : Nat} {plate : Int} {dts : List (Option Int)} (h0 : Keeps base s) :
    Keeps base (State.gleanPixel s on m row c plate dts) := by
  unfold State.gleanPixel
  try dsimp only
  repeat' first
    | with_reducible assumption | with_reducible apply keeps_gleanSample | with_reducible apply keeps_qualSample
    | with_reducible apply keeps_ite | with_reducible apply keepsO_ite | with_reducible apply keepsO_some | with_reducible exact keepsO_none
    | (simp only [keeps_mk]; first | with_reducible apply Keeps.parts | refine Keeps.parts' ?_ rfl) | dsimp only | split

theorem keeps_qualityDone {base : State} {s : State} {partly : Bool} (h0 : Keeps base s) :
    Keeps base (State.qualityDone s partly) := by
  unfold State.qualityDone
  try dsimp only
  repeat' first
    | with_reducible assumption | with_reducible apply keeps_disarm | with_reducible apply keeps_draw | with_reducible apply keeps_emit
    | with_reducible apply keeps_put | with_reducible apply keeps_putFlag | with_reducible apply keeps_ite
    | (simp only [keeps_mk]; first | with_reducible apply Keeps.parts | refine Keeps.parts' ?_ rfl) | with_reducible apply keeps_foldl
    | with_reducible apply keeps_foldl_fst | dsimp only | split | (intro _; intros; try dsimp only)

theorem keeps_qualityCheck {base : State} {s : State} (h0 : Keeps base s) :
    Keeps base (State.qualityCheck s) := by
  unfold State.qualityCheck
  try dsimp only
  repeat' first
    | with_reducible assumption | with_reducible apply keeps_qualityDone | with_reducible apply keeps_ite | dsimp only | split
    | (intro _; intros; try dsimp only)

theorem keeps_execQualTimeout {base : State} {s : State} (h0 : Keeps base s) :
    KeepsX base (execQualTimeout s) := by
  unfold execQualTimeout
  try dsimp only
  repeat' first
    | with_reducible assumption | with_reducible apply keeps_fire | with_reducible apply keeps_qualityDone | with_reducible apply keeps_ite
    | with_reducible apply keepsX_next | with_reducible exact keepsX_fault | with_reducible apply keepsX_ite
    | with_reducible apply keepsO_ite | with_reducible apply keepsO_some | with_reducible exact keepsO_none
    | (simp only [keeps_mk]; first | with_reducible apply Keeps.parts | refine Keeps.parts' ?_ rfl) | (refine KeepsO.use (by assumption) ?_)
    | dsimp only | split | (intro _; intros; try dsimp only)

theorem keeps_gleanLine {base : State} {s : State} {m : Nat} {n : Nat} {plate : Int} (h0 : Keeps base s) :
    Keeps base (State.gleanLine s m n plate) := by
  unfold State.gleanLine
  try dsimp only
  repeat' first
    | with_reducible assumption | with_reducible apply keeps_gleanPixel | with_reducible apply keeps_qualityCheck
    | (simp only [keeps_mk]; first | with_reducible apply Keeps.parts | refine Keeps.parts' ?_ rfl) | with_reducible apply keeps_foldl
    | with_reducible apply keeps_foldl_fst | dsimp only | split | (intro _; intros; try dsimp only)

theorem keeps_glean {base : State} {s : State} {n : Nat} (h0 : Keeps base s) :
    Keeps base (State.glean s n) := by
  unfold State.glean
  try dsimp only
  repeat' first
    | with_reducible assumption | with_reducible apply keeps_gleanLine | with_reducible apply keeps_putFlag | with_reducible apply keeps_ite
    | with_reducible apply keepsO_ite | with_reducible apply keepsO_some | with_reducible exact keepsO_none
    | (simp only [keeps_mk]; first | with_reducible apply Keeps.parts | refine Keeps.parts' ?_ rfl) | dsimp only | split

end Sys2Proof.Laws
end

