-- ==== Sys2Proof/Laws/Keeps/Track.lean ====
section
/-! SUPPORT. Machine/Track.lean keeps the queue, the canonical form and one actuation per valve. -/

namespace Sys2Proof.Laws

open Sys2Proof.Machine Sys2Proof.Safety

theorem keeps_onCtx {base : State} {s : State} {t : Target} {f : Ctx → Ctx} (h0 : Keeps base s) :
    Keeps base (State.onCtx s t f) := by
  unfold State.onCtx
  try dsimp only
  repeat' first
    | with_reducible assumption | with_reducible apply keeps_onSheaf | with_reducible apply keeps_ite
    | (simp only [keeps_mk]; first | with_reducible apply Keeps.parts | refine Keeps.parts' ?_ rfl) | dsimp only | split
    | (intro _; intros; try dsimp only)

theorem keeps_sealSheaf {base : State} {s : State} {slot : Nat} {flag : Nat} (h0 : Keeps base s) :
    Keeps base (State.sealSheaf s slot flag) := by
  unfold State.sealSheaf
  try dsimp only
  repeat' first
    | with_reducible assumption | with_reducible apply keeps_putSheaf | with_reducible apply keeps_sealPlan
    | with_reducible apply keepsO_ite | with_reducible apply keepsO_some | with_reducible exact keepsO_none
    | (simp only [keeps_mk]; first | with_reducible apply Keeps.parts | refine Keeps.parts' ?_ rfl)
    | (refine Keeps.ofPair (by assumption) ?_) | dsimp only | split

theorem keeps_sealShadow {base : State} {s : State} {age : Nat} (h0 : Keeps base s) :
    Keeps base (State.sealShadow s age) := by
  unfold State.sealShadow
  try dsimp only
  repeat' first
    | with_reducible assumption | with_reducible apply keeps_fastPlan | with_reducible apply keeps_shadowUpdate
    | with_reducible apply keeps_ite | with_reducible apply keepsO_ite | with_reducible apply keepsO_some | with_reducible exact keepsO_none
    | (simp only [keeps_mk]; first | with_reducible apply Keeps.parts | refine Keeps.parts' ?_ rfl) | dsimp only | split
    | (intro _; intros; try dsimp only)

theorem keeps_sealTarget {base : State} {s : State} {t : Target} {flag : Nat} (h0 : Keeps base s) :
    Keeps base (State.sealTarget s t flag) := by
  unfold State.sealTarget
  try dsimp only
  repeat' first
    | with_reducible assumption | with_reducible apply keeps_sealShadow | with_reducible apply keeps_sealSheaf
    | (simp only [keeps_mk]; first | with_reducible apply Keeps.parts | refine Keeps.parts' ?_ rfl) | dsimp only | split

theorem keeps_sealOpen {base : State} {s : State} {flag : Nat} (h0 : Keeps base s) :
    Keeps base (State.sealOpen s flag) := by
  unfold State.sealOpen
  try dsimp only
  repeat' first
    | with_reducible assumption | with_reducible apply keeps_sealSheaf | with_reducible apply keeps_foldl
    | with_reducible apply keeps_foldl_fst | dsimp only | (intro _; intros; try dsimp only)

theorem keeps_sealShadows {base : State} {s : State} (h0 : Keeps base s) :
    Keeps base (State.sealShadows s) := by
  unfold State.sealShadows
  try dsimp only
  repeat' first
    | with_reducible assumption | with_reducible apply keeps_sealShadow | with_reducible apply keeps_foldl
    | with_reducible apply keeps_foldl_fst | dsimp only | (intro _; intros; try dsimp only)

theorem keeps_sealLongs {o : State} {s : State} {n : Nat} {rs : List Run} {k : Nat} {ls : List Long} (h0 : Keeps o s) :
    Keeps o (State.sealLongs s n rs k ls).1 := by
  induction k generalizing s ls with
  | zero => exact h0
  | succ k ih =>
    unfold State.sealLongs
    split
    · exact h0
    · exact ih (keeps_bump (keeps_sealTarget h0))

theorem keeps_extendSheaf {base : State} {s : State} {n : Nat} {slot : Nat} {rs : List Run} (h0 : Keeps base s) :
    Keeps base (State.extendSheaf s n slot rs) := by
  unfold State.extendSheaf
  try dsimp only
  repeat' first
    | with_reducible assumption | with_reducible apply keeps_onSheaf | with_reducible apply keeps_ite | with_reducible apply keeps_ite_fst
    | with_reducible apply keepsX_next | with_reducible exact keepsX_fault | with_reducible apply keepsX_ite
    | with_reducible apply keepsO_ite | with_reducible apply keepsO_some | with_reducible exact keepsO_none
    | with_reducible apply keepsP_ite | with_reducible apply keepsP_some | with_reducible exact keepsP_none
    | (simp only [keeps_mk]; first | with_reducible apply Keeps.parts | refine Keeps.parts' ?_ rfl) | (refine KeepsO.use (by assumption) ?_)
    | (refine KeepsP.use (by assumption) ?_) | (refine Keeps.ofPair (by assumption) ?_) | dsimp only | split
    | (intro _; intros; try dsimp only)

theorem keeps_memSeals {o : State} {s : State} {n : Nat} {l : List (Target × List Run)} (h0 : Keeps o s) :
    Keeps o (State.memSeals s n l).1 := by
  induction l generalizing s with
  | nil => exact keeps_liveUpdate h0
  | cons p rest ih =>
    obtain ⟨t, rs⟩ := p
    cases t with
    | shadow age => exact ih h0
    | sheaf slot =>
      simp only [State.memSeals]
      split
      · exact ih h0
      · split
        · exact ih (keeps_bump (keeps_sealSheaf h0))
        · rename_i e
          exact ih (keeps_putSheaf (keeps_takeTiles h0 _ e))

theorem keeps_touching {base : State} {s : State} {n : Nat} {r : Run} (h0 : Keeps base s) :
    Keeps base (State.touching s n r) := by
  unfold State.touching
  try dsimp only
  repeat' first
    | with_reducible assumption | with_reducible apply keeps_onCtx | with_reducible apply keeps_ite
    | (simp only [keeps_mk]; first | with_reducible apply Keeps.parts | refine Keeps.parts' ?_ rfl) | with_reducible apply keeps_foldl
    | with_reducible apply keeps_foldl_fst | dsimp only | split | (intro _; intros; try dsimp only)

theorem keeps_extend {base : State} {s : State} {n : Nat} {gs : List (Target × List Run)} (h0 : Keeps base s) :
    Keeps base (State.extend s n gs) := by
  unfold State.extend
  try dsimp only
  repeat' first
    | with_reducible assumption | with_reducible apply keeps_extendSheaf | with_reducible apply keeps_onCtx
    | (simp only [keeps_mk]; first | with_reducible apply Keeps.parts | refine Keeps.parts' ?_ rfl) | with_reducible apply keeps_foldl
    | with_reducible apply keeps_foldl_fst | dsimp only | split | (intro _; intros; try dsimp only)

theorem keeps_velocity {base : State} {s : State} {e : LineEnv} {run : Run} {c : Ctx} (h0 : Keeps base s) :
    Keeps base (State.velocity s e run c).1 := by
  unfold State.velocity
  try dsimp only
  repeat' first
    | with_reducible assumption | with_reducible apply keeps_draw | with_reducible apply keeps_ite | with_reducible apply keeps_ite_fst
    | with_reducible apply keepsO_ite | with_reducible apply keepsO_some | with_reducible exact keepsO_none
    | (simp only [keeps_mk]; first | with_reducible apply Keeps.parts | refine Keeps.parts' ?_ rfl) | dsimp only | split
    | (intro _; intros; try dsimp only)

theorem keeps_takeIn {base : State} {s : State} {c : Ctx} {prev : Option Nat} (h0 : Keeps base s) :
    Keeps base (State.takeIn s c prev) := by
  unfold State.takeIn
  try dsimp only
  repeat' first
    | with_reducible assumption | with_reducible apply keeps_liveUpdate | with_reducible apply keeps_markCheck
    | with_reducible apply keeps_markWait | with_reducible apply keeps_putSheaf | with_reducible apply keeps_setPair
    | with_reducible apply keeps_takeTiles | with_reducible apply keeps_ite | with_reducible apply keeps_ite_fst
    | with_reducible apply keepsX_next | with_reducible exact keepsX_fault | with_reducible apply keepsX_ite
    | with_reducible apply keepsO_ite | with_reducible apply keepsO_some | with_reducible exact keepsO_none
    | with_reducible apply keepsP_ite | with_reducible apply keepsP_some | with_reducible exact keepsP_none
    | (simp only [keeps_mk]; first | with_reducible apply Keeps.parts | refine Keeps.parts' ?_ rfl) | (refine KeepsO.use (by assumption) ?_)
    | (refine KeepsP.use (by assumption) ?_) | (refine Keeps.ofPair (by assumption) ?_) | dsimp only | split
    | (intro _; intros; try dsimp only)

theorem keeps_issueAggregate {base : State} {s : State} (h0 : Keeps base s) :
    Keeps base (State.issueAggregate s) := by
  unfold State.issueAggregate
  try dsimp only
  repeat' first
    | with_reducible assumption | with_reducible apply keeps_disarm | with_reducible apply keepsO_ite | with_reducible apply keepsO_some
    | with_reducible exact keepsO_none | (simp only [keeps_mk]; first | with_reducible apply Keeps.parts | refine Keeps.parts' ?_ rfl)
    | dsimp only | split

theorem keeps_refusalsNow {base : State} {s : State} (h0 : Keeps base s) :
    Keeps base (State.refusalsNow s).1 := by
  unfold State.refusalsNow
  try dsimp only
  repeat' first
    | with_reducible assumption | with_reducible apply keeps_armDev | with_reducible apply keeps_issueAggregate
    | with_reducible apply keeps_ite | with_reducible apply keeps_ite_fst | with_reducible apply keepsO_ite
    | with_reducible apply keepsO_some | with_reducible exact keepsO_none
    | (simp only [keeps_mk]; first | with_reducible apply Keeps.parts | refine Keeps.parts' ?_ rfl) | dsimp only | split

theorem keeps_refuseCandidate {base : State} {s : State} {c : Ctx} {cause : Nat} (h0 : Keeps base s) :
    Keeps base (State.refuseCandidate s c cause) := by
  unfold State.refuseCandidate
  try dsimp only
  repeat' first
    | with_reducible assumption | with_reducible apply keeps_bump | with_reducible apply keeps_refusalsNow
    | with_reducible apply keeps_shadowUpdate | with_reducible apply keeps_ite | with_reducible apply keepsO_ite
    | with_reducible apply keepsO_some | with_reducible exact keepsO_none
    | (simp only [keeps_mk]; first | with_reducible apply Keeps.parts | refine Keeps.parts' ?_ rfl) | dsimp only | split
    | (intro _; intros; try dsimp only)

theorem keeps_openSilent {base : State} {s : State} {c : Ctx} {again : Bool} (h0 : Keeps base s) :
    Keeps base (State.openSilent s c again) := by
  unfold State.openSilent
  try dsimp only
  repeat' first
    | with_reducible assumption | with_reducible apply keeps_bump | with_reducible apply keeps_ite
    | (simp only [keeps_mk]; first | with_reducible apply Keeps.parts | refine Keeps.parts' ?_ rfl) | dsimp only | split

theorem keeps_openRun {base : State} {s : State} {e : LineEnv} {ls : List Long} {r : Run} (h0 : Keeps base s) :
    Keeps base (State.openRun s e ls r) := by
  unfold State.openRun
  try dsimp only
  repeat' first
    | with_reducible assumption | with_reducible apply keeps_accrue | with_reducible apply keeps_openSilent
    | with_reducible apply keeps_refuseCandidate | with_reducible apply keeps_takeIn | with_reducible apply keeps_velocity
    | with_reducible apply keeps_ite | with_reducible apply keepsO_ite | with_reducible apply keepsO_some | with_reducible exact keepsO_none
    | (simp only [keeps_mk]; first | with_reducible apply Keeps.parts | refine Keeps.parts' ?_ rfl)
    | (refine Keeps.ofPair (by assumption) ?_) | dsimp only | split | (intro _; intros; try dsimp only)

theorem keeps_bgStep {base : State} {s : State} {cols : Nat} (h0 : Keeps base s) :
    Keeps base (State.bgStep s cols) := by
  unfold State.bgStep
  try dsimp only
  repeat' first
    | with_reducible assumption | with_reducible apply keeps_emit | with_reducible apply keeps_put | with_reducible apply keeps_ite
    | (simp only [keeps_mk]; first | with_reducible apply Keeps.parts | refine Keeps.parts' ?_ rfl) | dsimp only | split

theorem keeps_longSeals {base : State} {s : State} {n : Nat} {rs : List Run} (h0 : Keeps base s) :
    Keeps base (State.longSeals s n rs).1 := by
  unfold State.longSeals
  try dsimp only
  repeat' first
    | with_reducible assumption | with_reducible apply keeps_sealLongs | with_reducible apply keeps_ite_fst | dsimp only

theorem keeps_applyRuns {base : State} {s : State} {e : LineEnv} {ls : List Long} {rs : List Run} (h0 : Keeps base s) :
    Keeps base (State.applyRuns s e ls rs) := by
  unfold State.applyRuns
  try dsimp only
  repeat' first
    | with_reducible assumption | with_reducible apply keeps_extend | with_reducible apply keeps_memSeals
    | with_reducible apply keeps_openRun | with_reducible apply keeps_touching | with_reducible apply keeps_foldl
    | with_reducible apply keeps_foldl_fst | dsimp only | (intro _; intros; try dsimp only)

theorem keeps_naturalSeals {base : State} {s : State} {n : Nat} (h0 : Keeps base s) :
    Keeps base (State.naturalSeals s n) := by
  unfold State.naturalSeals
  try dsimp only
  repeat' first
    | with_reducible assumption | with_reducible apply keeps_sealShadow | with_reducible apply keeps_sealSheaf
    | with_reducible apply keeps_foldl | with_reducible apply keeps_foldl_fst | dsimp only | (intro _; intros; try dsimp only)

theorem keeps_updateBackground {base : State} {s : State} {e : LineEnv} {px : List (Nat × FieldPixel)} {cls : List (Nat × Int)} {gone : List Run} (h0 : Keeps base s) :
    Keeps base (State.updateBackground s e px cls gone) := by
  unfold State.updateBackground
  try dsimp only
  repeat' first
    | with_reducible assumption | with_reducible apply keeps_ite
    | (simp only [keeps_mk]; first | with_reducible apply Keeps.parts | refine Keeps.parts' ?_ rfl) | dsimp only | split
    | (intro _; intros; try dsimp only)

theorem keeps_clearTrk {base : State} {s : State} (h0 : Keeps base s) :
    Keeps base (State.clearTrk s) := by
  unfold State.clearTrk
  try dsimp only
  repeat' first
    | with_reducible assumption | with_reducible apply keeps_put | with_reducible apply keeps_foldl | with_reducible apply keeps_foldl_fst
    | dsimp only | (intro _; intros; try dsimp only)

theorem keeps_execTrkClrCounters {base : State} {s : State} (h0 : Keeps base s) :
    KeepsX base (execTrkClrCounters s) := by
  unfold execTrkClrCounters
  try dsimp only
  repeat' first
    | with_reducible assumption | with_reducible apply keeps_clearTrk | with_reducible apply keeps_host | with_reducible apply keepsX_next
    | with_reducible exact keepsX_fault | with_reducible apply keepsX_ite | with_reducible apply keepsO_ite
    | with_reducible apply keepsO_some | with_reducible exact keepsO_none | dsimp only

end Sys2Proof.Laws
end

