-- ==== Sys2Proof/Laws/Keeps/Records.lean ====
section
/-! SUPPORT. Machine/Records.lean keeps the queue, the canonical form and one actuation per valve. -/

namespace Sys2Proof.Laws

open Sys2Proof.Machine Sys2Proof.Safety

theorem keeps_archiveRecord {base : State} {s : State} {rpos : Nat} (h0 : Keeps base s) :
    Keeps base (State.archiveRecord s rpos) := by
  unfold State.archiveRecord
  try dsimp only
  repeat' first
    | with_reducible assumption | with_reducible apply keeps_arm | with_reducible apply keeps_disarm | with_reducible apply keeps_writeBlock
    | with_reducible apply keeps_ite | with_reducible apply keepsO_ite | with_reducible apply keepsO_some | with_reducible exact keepsO_none
    | (simp only [keeps_mk]; first | with_reducible apply Keeps.parts | refine Keeps.parts' ?_ rfl) | dsimp only | split

theorem keeps_stageRecord {base : State} {s : State} {kind : Nat} {rflags : Nat} {seq : Nat} {body : List Byte} (h0 : Keeps base s) :
    Keeps base (State.stageRecord s kind rflags seq body) := by
  unfold State.stageRecord
  try dsimp only
  repeat' first
    | with_reducible assumption | with_reducible apply keeps_archiveRecord | with_reducible apply keeps_freeSlots
    | with_reducible apply keeps_markCheck | with_reducible apply keeps_markWait | with_reducible apply keeps_windowFlag
    | (simp only [keeps_mk]; first | with_reducible apply Keeps.parts | refine Keeps.parts' ?_ rfl) | dsimp only

theorem keeps_stagingFull {base : State} {s : State} (h0 : Keeps base s) :
    Keeps base (State.stagingFull s) := by
  unfold State.stagingFull
  try dsimp only
  repeat' first
    | with_reducible assumption | with_reducible apply keeps_putFlag | dsimp only

theorem keeps_release {o : State} {s : State} {r : NextRecord} (h0 : Keeps o s) : Keeps o (State.release s r) := by
  cases r with
  | gap b => exact keeps_stageRecord (keeps_mk.2 (Keeps.parts h0))
  | aggregate a => exact keeps_stageRecord (keeps_mk.2 (Keeps.parts h0))
  | lost e => exact keeps_stageRecord (keeps_mk.2 (Keeps.parts h0))
  | object x => exact keeps_freeSheaf (keeps_stageRecord (keeps_mk.2 (Keeps.parts h0)))

theorem keeps_execRecordRelease {base : State} {w : Nat} {ecc : List EccFact} {s : State} (h0 : Keeps base s) :
    KeepsX base (execRecordRelease w ecc s) := by
  unfold execRecordRelease
  try dsimp only
  repeat' first
    | with_reducible assumption | with_reducible apply keeps_eccFacts | with_reducible apply keeps_elapse
    | with_reducible apply keeps_release | with_reducible apply keeps_stagingFull | with_reducible apply keeps_ite
    | with_reducible apply keepsX_next | with_reducible exact keepsX_fault | with_reducible apply keepsX_ite
    | with_reducible apply keepsO_ite | with_reducible apply keepsO_some | with_reducible exact keepsO_none
    | (simp only [keeps_mk]; first | with_reducible apply Keeps.parts | refine Keeps.parts' ?_ rfl) | dsimp only | split

theorem keeps_execAggregateRecord {base : State} {s : State} (h0 : Keeps base s) :
    KeepsX base (execAggregateRecord s) := by
  unfold execAggregateRecord
  try dsimp only
  repeat' first
    | with_reducible assumption | with_reducible apply keeps_fire | with_reducible apply keeps_issueAggregate
    | with_reducible apply keeps_stagingFull | with_reducible apply keepsX_next | with_reducible exact keepsX_fault
    | with_reducible apply keepsX_ite | with_reducible apply keepsO_ite | with_reducible apply keepsO_some
    | with_reducible exact keepsO_none | (simp only [keeps_mk]; first | with_reducible apply Keeps.parts | refine Keeps.parts' ?_ rfl)
    | (refine KeepsO.use (by assumption) ?_) | dsimp only | split | (intro _; intros; try dsimp only)

end Sys2Proof.Laws
end

