-- ==== Sys2Proof/Laws/Keeps/Save.lean ====
section
/-! SUPPORT. Machine/Save.lean keeps the queue, the canonical form and one actuation per valve. -/

namespace Sys2Proof.Laws

open Sys2Proof.Machine Sys2Proof.Safety

theorem keeps_restarted {o : State} {s : State} (h0 : Keeps o s) : Keeps o (State.restarted s) :=
  keeps_setWord (keeps_mk.2 ⟨h0.queue, fun c => ⟨rfl, (h0.form c).2.1, wf_filter (h0.form c).2.2⟩, fun _ => List.nodup_nil⟩)

theorem keeps_collapsed {o : State} {s : State} (h0 : Keeps o s) : Keeps o (State.collapsed s) :=
  keeps_mk.2 ⟨h0.queue, fun c => ⟨rfl, (h0.form c).2.1, rfl⟩, fun _ => List.nodup_nil⟩

theorem keeps_fallow {base : State} {s : State} (h0 : Keeps base s) :
    Keeps base (State.fallow s) := by
  unfold State.fallow
  try dsimp only
  repeat' first
    | with_reducible assumption | with_reducible apply keeps_put | with_reducible apply keeps_setDomains | with_reducible apply keeps_ite
    | with_reducible apply keeps_ite_fst | with_reducible apply keepsX_next | with_reducible exact keepsX_fault
    | with_reducible apply keepsX_ite | with_reducible apply keepsO_ite | with_reducible apply keepsO_some
    | with_reducible exact keepsO_none | with_reducible apply keepsP_ite | with_reducible apply keepsP_some
    | with_reducible exact keepsP_none
    | (simp only [keeps_mk]; first | with_reducible apply Keeps.parts | with_reducible apply Keeps.partsKeep | with_reducible apply Keeps.partsFallow | refine Keeps.parts' ?_ rfl)
    | (refine KeepsO.use (by assumption) ?_) | (refine KeepsP.use (by assumption) ?_) | (refine Keeps.ofPair (by assumption) ?_)
    | dsimp only | split | (intro _; intros; try dsimp only)

theorem keeps_dropFlash {base : State} {s : State} (h0 : Keeps base s) :
    Keeps base (State.dropFlash s) := by
  unfold State.dropFlash
  try dsimp only
  repeat' first
    | with_reducible assumption | with_reducible apply keeps_put
    | (simp only [keeps_mk]; first | with_reducible apply Keeps.parts | refine Keeps.parts' ?_ rfl) | dsimp only

theorem keeps_startBulk {base : State} {s : State} {st : Store} (h0 : Keeps base s) :
    Keeps base (State.startBulk s st) := by
  unfold State.startBulk
  try dsimp only
  repeat' first
    | with_reducible assumption | with_reducible apply keeps_startStore | with_reducible apply keeps_ite | with_reducible apply keepsO_ite
    | with_reducible apply keepsO_some | with_reducible exact keepsO_none
    | (simp only [keeps_mk]; first | with_reducible apply Keeps.parts | refine Keeps.parts' ?_ rfl) | dsimp only | split

theorem keeps_saveSequence {base : State} {s : State} {cause : Nat} {mv : Nat} (h0 : Keeps base s) :
    Keeps base (State.saveSequence s cause mv) := by
  unfold State.saveSequence
  try dsimp only
  repeat' first
    | with_reducible assumption | with_reducible apply keeps_allLow | with_reducible apply keeps_auxCut
    | with_reducible apply keeps_bumpCounter | with_reducible apply keeps_closeAll | with_reducible apply keeps_dropFlash
    | with_reducible apply keeps_fallow | with_reducible apply keeps_put | with_reducible apply keeps_setEnabled
    | with_reducible apply keeps_startBulk | with_reducible apply keepsO_ite | with_reducible apply keepsO_some
    | with_reducible exact keepsO_none | (simp only [keeps_mk]; first | with_reducible apply Keeps.parts | refine Keeps.parts' ?_ rfl)
    | dsimp only

theorem keeps_execPfiNRecognised {base : State} {mv : Nat} {s : State} (h0 : Keeps base s) :
    KeepsX base (execPfiNRecognised mv s) := by
  unfold execPfiNRecognised
  try dsimp only
  repeat' first
    | with_reducible assumption | with_reducible apply keeps_put | with_reducible apply keeps_saveSequence | with_reducible apply keeps_ite
    | with_reducible apply keepsX_next | with_reducible exact keepsX_fault | with_reducible apply keepsX_ite
    | (simp only [keeps_mk]; first | with_reducible apply Keeps.parts | refine Keeps.parts' ?_ rfl) | dsimp only | split

theorem keeps_execVkeepLowRecognised {base : State} {mv : Nat} {s : State} (h0 : Keeps base s) :
    KeepsX base (execVkeepLowRecognised mv s) := by
  unfold execVkeepLowRecognised
  try dsimp only
  repeat' first
    | with_reducible assumption | with_reducible apply keeps_put | with_reducible apply keeps_saveSequence | with_reducible apply keeps_ite
    | with_reducible apply keepsX_next | with_reducible exact keepsX_fault | with_reducible apply keepsX_ite | dsimp only | split

theorem keeps_bulkCommitted {base : State} {s : State} {v : SaveState} {st : Store} {mv : Nat} (h0 : Keeps base s) :
    Keeps base (State.bulkCommitted s v st mv) := by
  unfold State.bulkCommitted
  try dsimp only
  repeat' first
    | with_reducible assumption | with_reducible apply keeps_bump | with_reducible apply keeps_commitStore | with_reducible apply keeps_put
    | with_reducible apply keeps_putSat
    | (simp only [keeps_mk]; first | with_reducible apply Keeps.parts | with_reducible apply Keeps.partsPages | with_reducible apply Keeps.partsShadow | with_reducible apply Keeps.partsBoth | refine Keeps.parts' ?_ rfl)
    | dsimp only

theorem keeps_execSaveBulkStoreCommit {base : State} {w : Nat} {mv : Nat} {s : State} (h0 : Keeps base s) :
    KeepsX base (execSaveBulkStoreCommit w mv s) := by
  unfold execSaveBulkStoreCommit
  try dsimp only
  repeat' first
    | with_reducible assumption | with_reducible apply keeps_bulkCommitted | with_reducible apply keeps_elapse
    | with_reducible apply keeps_ite | with_reducible apply keepsX_next | with_reducible exact keepsX_fault
    | with_reducible apply keepsX_ite | with_reducible apply keepsO_ite | with_reducible apply keepsO_some
    | with_reducible exact keepsO_none | (simp only [keeps_mk]; first | with_reducible apply Keeps.parts | refine Keeps.parts' ?_ rfl)
    | dsimp only | split

theorem keeps_execHeldExit {base : State} {s : State} (h0 : Keeps base s) :
    KeepsX base (execHeldExit s) := by
  unfold execHeldExit
  try dsimp only
  repeat' first
    | with_reducible assumption | with_reducible apply keeps_put | with_reducible apply keeps_restarted | with_reducible apply keeps_ite
    | with_reducible apply keepsX_next | with_reducible exact keepsX_fault | with_reducible apply keepsX_ite
    | (simp only [keeps_mk]; first | with_reducible apply Keeps.parts | refine Keeps.parts' ?_ rfl) | dsimp only | split
    | (intro _; intros; try dsimp only)

theorem keeps_execVkeepCollapse {base : State} {s : State} (h0 : Keeps base s) :
    KeepsX base (execVkeepCollapse s) := by
  unfold execVkeepCollapse
  try dsimp only
  repeat' first
    | with_reducible assumption | with_reducible apply keeps_collapsed | with_reducible apply keepsX_next
    | with_reducible exact keepsX_fault | with_reducible apply keepsX_ite | dsimp only

theorem keeps_tripCheck {base : State} {s : State} {mv : Nat} (h0 : Keeps base s) :
    Keeps base (State.tripCheck s mv) := by
  unfold State.tripCheck
  try dsimp only
  repeat' first
    | with_reducible assumption | with_reducible apply keeps_emit | with_reducible apply keeps_saveSequence | with_reducible apply keeps_ite
    | (simp only [keeps_mk]; first | with_reducible apply Keeps.parts | refine Keeps.parts' ?_ rfl) | dsimp only | split

theorem keeps_execThrottleEvaluation {base : State} {mv : Nat} {s : State} (h0 : Keeps base s) :
    KeepsX base (execThrottleEvaluation mv s) := by
  unfold execThrottleEvaluation
  try dsimp only
  repeat' first
    | with_reducible assumption | with_reducible apply keeps_arm | with_reducible apply keeps_fire | with_reducible apply keeps_throttleStep
    | with_reducible apply keeps_tripCheck | with_reducible apply keepsX_next | with_reducible exact keepsX_fault
    | with_reducible apply keepsX_ite | with_reducible apply keepsO_ite | with_reducible apply keepsO_some
    | with_reducible exact keepsO_none | (simp only [keeps_mk]; first | with_reducible apply Keeps.parts | refine Keeps.parts' ?_ rfl)
    | (refine KeepsO.use (by assumption) ?_) | dsimp only | split | (intro _; intros; try dsimp only)

theorem keeps_execThermalTripRestart {base : State} {s : State} (h0 : Keeps base s) :
    KeepsX base (execThermalTripRestart s) := by
  unfold execThermalTripRestart
  try dsimp only
  repeat' first
    | with_reducible assumption | with_reducible apply keeps_elapseTo | with_reducible apply keeps_restarted
    | with_reducible apply keeps_ite | with_reducible apply keepsX_next | with_reducible exact keepsX_fault
    | with_reducible apply keepsX_ite | with_reducible apply keepsO_ite | with_reducible apply keepsO_some
    | with_reducible exact keepsO_none | (simp only [keeps_mk]; first | with_reducible apply Keeps.parts | refine Keeps.parts' ?_ rfl)
    | dsimp only | split | (intro _; intros; try dsimp only)

end Sys2Proof.Laws
end

