-- ==== Sys2Proof/Laws/Keeps/StartUp.lean ====
section
/-! SUPPORT. Machine/StartUp.lean keeps the queue, the canonical form and one actuation per valve. -/

namespace Sys2Proof.Laws

open Sys2Proof.Machine Sys2Proof.Safety

theorem keeps_noteSlot {base : State} {s : State} {slot : Nat} {h : Except Nat Header} (h0 : Keeps base s) :
    Keeps base (State.noteSlot s slot h) := by
  unfold State.noteSlot
  try dsimp only
  repeat' first
    | with_reducible assumption | with_reducible apply keeps_setWord
    | (simp only [keeps_mk]; first | with_reducible apply Keeps.parts | refine Keeps.parts' ?_ rfl) | dsimp only | split

theorem keeps_unconfigured {base : State} {s : State} (h0 : Keeps base s) :
    Keeps base (State.unconfigured s) := by
  unfold State.unconfigured
  try dsimp only
  repeat' first
    | with_reducible assumption | with_reducible apply keeps_fallow | with_reducible apply keeps_put
    | (simp only [keeps_mk]; first | with_reducible apply Keeps.parts | refine Keeps.parts' ?_ rfl) | dsimp only

theorem keeps_nextSlot {base : State} {s : State} (h0 : Keeps base s) :
    Keeps base (State.nextSlot s) := by
  unfold State.nextSlot
  try dsimp only
  repeat' first
    | with_reducible assumption | with_reducible apply keeps_unconfigured
    | (simp only [keeps_mk]; first | with_reducible apply Keeps.parts | refine Keeps.parts' ?_ rfl) | dsimp only | split

theorem keeps_readFlash {base : State} {s : State} {f : FlashFacts} (h0 : Keeps base s) :
    Keeps base (State.readFlash s f) := by
  unfold State.readFlash
  try dsimp only
  repeat' first
    | with_reducible assumption | with_reducible apply keeps_nextSlot | with_reducible apply keeps_noteSlot | with_reducible apply keeps_put
    | with_reducible apply keeps_putFlag | (simp only [keeps_mk]; first | with_reducible apply Keeps.parts | refine Keeps.parts' ?_ rfl)
    | dsimp only

theorem keeps_gapRecord {base : State} {s : State} {r : Nat × Nat × Nat × Nat × Nat × Nat × Nat} (h0 : Keeps base s) :
    Keeps base (State.gapRecord s r) := by
  unfold State.gapRecord
  try dsimp only
  repeat' first
    | with_reducible assumption | with_reducible apply keeps_ite | with_reducible apply keepsO_ite | with_reducible apply keepsO_some
    | with_reducible exact keepsO_none | (simp only [keeps_mk]; first | with_reducible apply Keeps.parts | refine Keeps.parts' ?_ rfl)
    | dsimp only | split

theorem keeps_identify {base : State} {s : State} (h0 : Keeps base s) :
    Keeps base (State.identify s) := by
  unfold State.identify
  try dsimp only
  repeat' first
    | with_reducible assumption | with_reducible apply keeps_put | with_reducible apply keeps_setPair | with_reducible apply keeps_ite
    | dsimp only | split

theorem keeps_recoverAll {o : State} {s : State} {old : KeepState} {k : KeepFacts} {h : HoldupFacts}
    (hw : Canonical o → Memory.wf old.shadow = true) (h0 : Keeps o s) : Keeps o (State.recoverAll s old k h) := by
  unfold State.recoverAll
  extract_lets r s1 n sg se s2
  have h1 : Keeps o s1 := keeps_identify (keeps_gapRecord (keeps_recover hw h0))
  clear_value s1
  have h2 : Keeps o s2 := by
    simp only [s2, keeps_mk]
    exact Keeps.parts h1
  exact keeps_hkcStart (keeps_holdupResult h2)

theorem keeps_startUp {o : State} {s : State} {f : FlashFacts} {k : KeepFacts} {h : HoldupFacts} (h0 : Keeps o s) :
    Keeps o (State.startUp s f k h) := by
  unfold State.startUp
  extract_lets t tc t1 tp tr t2
  have ht : Keeps o t := keeps_restarted h0
  clear_value t
  have h1 : Keeps o t1 := keeps_recoverAll (fun c => (h0.form c).2.1) (keeps_mk.2 (Keeps.parts ht))
  clear_value t1
  have h2 : Keeps o t2 := by
    simp only [t2, keeps_mk]
    exact Keeps.parts (keeps_put (keeps_setDomain h1))
  clear_value t2
  exact keeps_readFlash (keeps_put (keeps_setDomain h2))

theorem keeps_execStartUp {base : State} {f : FlashFacts} {k : KeepFacts} {h : HoldupFacts} {s : State} (h0 : Keeps base s) :
    KeepsX base (execStartUp f k h s) := by
  unfold execStartUp
  try dsimp only
  repeat' first
    | with_reducible assumption | with_reducible apply keeps_startUp | with_reducible apply keeps_ite | with_reducible apply keepsX_next
    | with_reducible exact keepsX_fault | with_reducible apply keepsX_ite | dsimp only | split

theorem keeps_execRstNPulse {base : State} {ns : Nat} {s : State} (h0 : Keeps base s) :
    KeepsX base (execRstNPulse ns s) := by
  unfold execRstNPulse
  try dsimp only
  repeat' first
    | with_reducible assumption | with_reducible apply keeps_restarted | with_reducible apply keeps_ite | with_reducible apply keepsX_next
    | with_reducible exact keepsX_fault | with_reducible apply keepsX_ite | dsimp only | split

theorem keeps_execPllLock {base : State} {s : State} (h0 : Keeps base s) :
    KeepsX base (execPllLock s) := by
  unfold execPllLock
  try dsimp only
  repeat' first
    | with_reducible assumption | with_reducible apply keeps_put | with_reducible apply keeps_ite | with_reducible apply keepsX_next
    | with_reducible exact keepsX_fault | with_reducible apply keepsX_ite
    | (simp only [keeps_mk]; first | with_reducible apply Keeps.parts | refine Keeps.parts' ?_ rfl) | dsimp only | split

end Sys2Proof.Laws
end

