-- ==== Sys2Proof/Laws/Keeps/Image.lean ====
section
/-! SUPPORT. Machine/Image.lean keeps the queue, the canonical form and one actuation per valve. -/

namespace Sys2Proof.Laws

open Sys2Proof.Machine Sys2Proof.Safety

theorem keeps_refuseImage {base : State} {s : State} {code : Nat} {record : Nat} (h0 : Keeps base s) :
    Keeps base (State.refuseImage s code record) := by
  unfold State.refuseImage
  try dsimp only
  repeat' first
    | with_reducible assumption | with_reducible apply keeps_nextSlot | with_reducible apply keeps_setWord | dsimp only

theorem keeps_acceptImage {base : State} {s : State} (h0 : Keeps base s) :
    Keeps base (State.acceptImage s) := by
  unfold State.acceptImage
  try dsimp only
  repeat' first
    | with_reducible assumption | (simp only [keeps_mk]; first | with_reducible apply Keeps.parts | refine Keeps.parts' ?_ rfl) | dsimp only

theorem keeps_finishImage {base : State} {s : State} {h : Header} {last : ImageRecord} (h0 : Keeps base s) :
    Keeps base (State.finishImage s h last) := by
  unfold State.finishImage
  try dsimp only
  repeat' first
    | with_reducible assumption | with_reducible apply keeps_acceptImage | with_reducible apply keeps_refuseImage
    | with_reducible apply keeps_ite | dsimp only | split

theorem keeps_checkRecord {base : State} {s : State} {r : ImageRecord} (h0 : Keeps base s) :
    Keeps base (State.checkRecord s r) := by
  unfold State.checkRecord
  try dsimp only
  repeat' first
    | with_reducible assumption | with_reducible apply keeps_finishImage | with_reducible apply keeps_refuseImage
    | with_reducible apply keeps_ite | (simp only [keeps_mk]; first | with_reducible apply Keeps.parts | refine Keeps.parts' ?_ rfl)
    | dsimp only | split

theorem keeps_execImageRecordCheck {base : State} {r : ImageRecord} {s : State} (h0 : Keeps base s) :
    KeepsX base (execImageRecordCheck r s) := by
  unfold execImageRecordCheck
  try dsimp only
  repeat' first
    | with_reducible assumption | with_reducible apply keeps_checkRecord | with_reducible apply keeps_ite | with_reducible apply keepsX_next
    | with_reducible exact keepsX_fault | with_reducible apply keepsX_ite | dsimp only | split

end Sys2Proof.Laws
end

