-- ==== Sys2Proof/Laws/Keeps/Ptp.lean ====
section
/-! SUPPORT. Machine/Ptp.lean keeps the queue, the canonical form and one actuation per valve. -/

namespace Sys2Proof.Laws

open Sys2Proof.Machine Sys2Proof.Safety

theorem keeps_ptpMessage {base : State} {s : State} {p : Nat} {f : RxFrame} {domain : Nat} {k : State → State} (h0 : Keeps base s) (k4 : ∀ t, Keeps base t → Keeps base (k t)) :
    Keeps base (State.ptpMessage s p f domain k) := by
  unfold State.ptpMessage
  try dsimp only
  repeat' first
    | with_reducible assumption | with_reducible apply k4 | with_reducible apply keeps_bump | with_reducible apply keeps_received
    | with_reducible apply keeps_ite | dsimp only | split | (intro _; intros; try dsimp only)

theorem keeps_selectMaster {base : State} {s : State} {m : Master} (h0 : Keeps base s) :
    Keeps base (State.selectMaster s m) := by
  unfold State.selectMaster
  try dsimp only
  repeat' first
    | with_reducible assumption | with_reducible apply keeps_disarm | with_reducible apply keeps_put | with_reducible apply keeps_setPair
    | with_reducible apply keeps_ite | with_reducible apply keepsO_ite | with_reducible apply keepsO_some | with_reducible exact keepsO_none
    | (simp only [keeps_mk]; first | with_reducible apply Keeps.parts | refine Keeps.parts' ?_ rfl) | dsimp only | split

theorem keeps_announce {base : State} {s : State} {p : Nat} {m : Announce} (h0 : Keeps base s) :
    Keeps base (State.announce s p m) := by
  unfold State.announce
  try dsimp only
  repeat' first
    | with_reducible assumption | with_reducible apply keeps_selectMaster | with_reducible apply keepsO_ite
    | with_reducible apply keepsO_some | with_reducible exact keepsO_none | with_reducible apply keepsE_ite | with_reducible apply keepsE_go
    | exact keepsE_stop | exact keepsE_verd | (simp only [keeps_mk]; first | with_reducible apply Keeps.parts | refine Keeps.parts' ?_ rfl)
    | dsimp only | split

theorem keeps_execPtpAnnounce {base : State} {p : Nat} {f : RxFrame} {m : Announce} {s : State} (h0 : Keeps base s) :
    KeepsX base (execPtpAnnounce p f m s) := by
  unfold execPtpAnnounce
  try dsimp only
  repeat' first
    | with_reducible assumption | with_reducible apply keeps_announce | with_reducible apply keeps_ptpMessage
    | with_reducible apply keeps_ite | with_reducible apply keepsX_next | with_reducible exact keepsX_fault
    | with_reducible apply keepsX_ite | dsimp only | split | (intro _; intros; try dsimp only)

theorem keeps_steer {base : State} {s : State} {offset : Int} {limited : Bool} (h0 : Keeps base s) :
    Keeps base (State.steer s offset limited) := by
  unfold State.steer
  try dsimp only
  repeat' first
    | with_reducible assumption | with_reducible apply keeps_putS | with_reducible apply keeps_ite | dsimp only | split

theorem keeps_servoStep {base : State} {s : State} {offset : Int} (h0 : Keeps base s) :
    Keeps base (State.servoStep s offset) := by
  unfold State.servoStep
  try dsimp only
  repeat' first
    | with_reducible assumption | with_reducible apply keeps_arm | with_reducible apply keeps_bump | with_reducible apply keeps_disarm
    | with_reducible apply keeps_put | with_reducible apply keeps_putS | with_reducible apply keeps_steer | with_reducible apply keeps_ite
    | (simp only [keeps_mk]; first | with_reducible apply Keeps.parts | refine Keeps.parts' ?_ rfl) | dsimp only | split

theorem keeps_syncDone {base : State} {s : State} {t1 : Int} {t2 : Int} (h0 : Keeps base s) :
    Keeps base (State.syncDone s t1 t2) := by
  unfold State.syncDone
  try dsimp only
  repeat' first
    | with_reducible assumption | with_reducible apply keeps_arm | with_reducible apply keeps_servoStep | with_reducible apply keeps_sync
    | with_reducible apply keeps_ite | with_reducible apply keepsO_ite | with_reducible apply keepsO_some | with_reducible exact keepsO_none
    | (simp only [keeps_mk]; first | with_reducible apply Keeps.parts | refine Keeps.parts' ?_ rfl) | dsimp only | split

theorem keeps_sync {base : State} {s : State} {m : SyncMsg} (h0 : Keeps base s) :
    Keeps base (State.sync s m) := by
  unfold State.sync
  try dsimp only
  repeat' first
    | with_reducible assumption | with_reducible apply keeps_bump | with_reducible apply keeps_putFlag | with_reducible apply keeps_received
    | with_reducible apply keeps_syncDone | with_reducible apply keeps_ite | with_reducible apply keepsO_ite
    | with_reducible apply keepsO_some | with_reducible exact keepsO_none
    | (simp only [keeps_mk]; first | with_reducible apply Keeps.parts | refine Keeps.parts' ?_ rfl) | dsimp only | split

theorem keeps_execPtpSync {base : State} {p : Nat} {f : RxFrame} {m : SyncMsg} {s : State} (h0 : Keeps base s) :
    KeepsX base (execPtpSync p f m s) := by
  unfold execPtpSync
  try dsimp only
  repeat' first
    | with_reducible assumption | with_reducible apply keeps_ptpMessage | with_reducible apply keeps_sync | with_reducible apply keeps_ite
    | with_reducible apply keepsX_next | with_reducible exact keepsX_fault | with_reducible apply keepsX_ite | dsimp only | split
    | (intro _; intros; try dsimp only)

theorem keeps_followUp {base : State} {s : State} {m : FollowMsg} (h0 : Keeps base s) :
    Keeps base (State.followUp s m) := by
  unfold State.followUp
  try dsimp only
  repeat' first
    | with_reducible assumption | with_reducible apply keeps_bump | with_reducible apply keeps_received | with_reducible apply keeps_sync
    | with_reducible apply keeps_syncDone | with_reducible apply keeps_ite | with_reducible apply keepsO_ite
    | with_reducible apply keepsO_some | with_reducible exact keepsO_none
    | (simp only [keeps_mk]; first | with_reducible apply Keeps.parts | refine Keeps.parts' ?_ rfl) | dsimp only | split

theorem keeps_execPtpFollowUp {base : State} {p : Nat} {f : RxFrame} {m : FollowMsg} {s : State} (h0 : Keeps base s) :
    KeepsX base (execPtpFollowUp p f m s) := by
  unfold execPtpFollowUp
  try dsimp only
  repeat' first
    | with_reducible assumption | with_reducible apply keeps_followUp | with_reducible apply keeps_ptpMessage
    | with_reducible apply keeps_ite | with_reducible apply keepsX_next | with_reducible exact keepsX_fault
    | with_reducible apply keepsX_ite | dsimp only | split | (intro _; intros; try dsimp only)

theorem keeps_delayResp {base : State} {s : State} {m : RespMsg} (h0 : Keeps base s) :
    Keeps base (State.delayResp s m) := by
  unfold State.delayResp
  try dsimp only
  repeat' first
    | with_reducible assumption | with_reducible apply keeps_arm | with_reducible apply keeps_bump | with_reducible apply keeps_putSat
    | with_reducible apply keeps_received | with_reducible apply keeps_ite | with_reducible apply keepsO_ite
    | with_reducible apply keepsO_some | with_reducible exact keepsO_none
    | (simp only [keeps_mk]; first | with_reducible apply Keeps.parts | refine Keeps.parts' ?_ rfl) | dsimp only | split

theorem keeps_execPtpDelayResp {base : State} {p : Nat} {f : RxFrame} {m : RespMsg} {s : State} (h0 : Keeps base s) :
    KeepsX base (execPtpDelayResp p f m s) := by
  unfold execPtpDelayResp
  try dsimp only
  repeat' first
    | with_reducible assumption | with_reducible apply keeps_delayResp | with_reducible apply keeps_ptpMessage
    | with_reducible apply keeps_ite | with_reducible apply keepsX_next | with_reducible exact keepsX_fault
    | with_reducible apply keepsX_ite | dsimp only | split | (intro _; intros; try dsimp only)

theorem keeps_execPtpDelayReq {base : State} {s : State} (h0 : Keeps base s) :
    KeepsX base (execPtpDelayReq s) := by
  unfold execPtpDelayReq
  try dsimp only
  repeat' first
    | with_reducible assumption | with_reducible apply keeps_arm | with_reducible apply keeps_fire | with_reducible apply keeps_newPackets
    | with_reducible apply keeps_transmit | with_reducible apply keeps_ite | with_reducible apply keepsX_next
    | with_reducible exact keepsX_fault | with_reducible apply keepsX_ite | with_reducible apply keepsO_ite
    | with_reducible apply keepsO_some | with_reducible exact keepsO_none
    | (simp only [keeps_mk]; first | with_reducible apply Keeps.parts | refine Keeps.parts' ?_ rfl) | (refine KeepsO.use (by assumption) ?_)
    | dsimp only | split | (intro _; intros; try dsimp only)

theorem keeps_execPtpHoldover {base : State} {s : State} (h0 : Keeps base s) :
    KeepsX base (execPtpHoldover s) := by
  unfold execPtpHoldover
  try dsimp only
  repeat' first
    | with_reducible assumption | with_reducible apply keeps_arm | with_reducible apply keeps_emit | with_reducible apply keeps_fire
    | with_reducible apply keeps_put | with_reducible apply keeps_ite | with_reducible apply keepsX_next | with_reducible exact keepsX_fault
    | with_reducible apply keepsX_ite | with_reducible apply keepsO_ite | with_reducible apply keepsO_some
    | with_reducible exact keepsO_none | (simp only [keeps_mk]; first | with_reducible apply Keeps.parts | refine Keeps.parts' ?_ rfl)
    | (refine KeepsO.use (by assumption) ?_) | dsimp only | split | (intro _; intros; try dsimp only)

theorem keeps_execHoldoverExpiry {base : State} {s : State} (h0 : Keeps base s) :
    KeepsX base (execHoldoverExpiry s) := by
  unfold execHoldoverExpiry
  try dsimp only
  repeat' first
    | with_reducible assumption | with_reducible apply keeps_fire | with_reducible apply keeps_put | with_reducible apply keeps_ite
    | with_reducible apply keepsX_next | with_reducible exact keepsX_fault | with_reducible apply keepsX_ite
    | with_reducible apply keepsO_ite | with_reducible apply keepsO_some | with_reducible exact keepsO_none
    | (simp only [keeps_mk]; first | with_reducible apply Keeps.parts | refine Keeps.parts' ?_ rfl) | (refine KeepsO.use (by assumption) ?_)
    | dsimp only | split | (intro _; intros; try dsimp only)

theorem keeps_stepTime {base : State} {s : State} (h0 : Keeps base s) :
    Keeps base (State.stepTime s) := by
  unfold State.stepTime
  try dsimp only
  repeat' first
    | with_reducible assumption | with_reducible apply keeps_bump | with_reducible apply keeps_emit | with_reducible apply keeps_put
    | (simp only [keeps_mk]; first | with_reducible apply Keeps.parts | refine Keeps.parts' ?_ rfl) | dsimp only

theorem keeps_overrun {base : State} {s : State} {f : Field} {input : Nat} (h0 : Keeps base s) :
    Keeps base (State.overrun s f input) := by
  unfold State.overrun
  try dsimp only
  repeat' first
    | with_reducible assumption | with_reducible apply keeps_emit | with_reducible apply keeps_put | dsimp only

theorem keeps_ftach {base : State} {s : State} (h0 : Keeps base s) :
    Keeps base (State.ftach s) := by
  unfold State.ftach
  try dsimp only
  repeat' first
    | with_reducible assumption | with_reducible apply keeps_overrun | with_reducible apply keeps_putSat
    | with_reducible apply keeps_wrapAdd | with_reducible apply keeps_ite | with_reducible apply keepsO_ite
    | with_reducible apply keepsO_some | with_reducible exact keepsO_none
    | (simp only [keeps_mk]; first | with_reducible apply Keeps.parts | refine Keeps.parts' ?_ rfl) | dsimp only | split

theorem keeps_execFtachPulse {base : State} {w : Nat} {s : State} (h0 : Keeps base s) :
    KeepsX base (execFtachPulse w s) := by
  unfold execFtachPulse
  try dsimp only
  repeat' first
    | with_reducible assumption | with_reducible apply keeps_elapse | with_reducible apply keeps_ftach | with_reducible apply keepsX_next
    | with_reducible exact keepsX_fault | with_reducible apply keepsX_ite | dsimp only

theorem keeps_ppsIn {base : State} {s : State} (h0 : Keeps base s) :
    Keeps base (State.ppsIn s) := by
  unfold State.ppsIn
  try dsimp only
  repeat' first
    | with_reducible assumption | with_reducible apply keeps_overrun | with_reducible apply keeps_put | with_reducible apply keeps_servoStep
    | with_reducible apply keeps_setPair | with_reducible apply keeps_ite
    | (simp only [keeps_mk]; first | with_reducible apply Keeps.parts | refine Keeps.parts' ?_ rfl) | dsimp only | split

theorem keeps_execPpsInEdge {base : State} {w : Nat} {s : State} (h0 : Keeps base s) :
    KeepsX base (execPpsInEdge w s) := by
  unfold execPpsInEdge
  try dsimp only
  repeat' first
    | with_reducible assumption | with_reducible apply keeps_elapse | with_reducible apply keeps_ppsIn | with_reducible apply keeps_ite
    | with_reducible apply keepsX_next | with_reducible exact keepsX_fault | with_reducible apply keepsX_ite | dsimp only | split

theorem keeps_execPpsOutPulse {base : State} {s : State} (h0 : Keeps base s) :
    KeepsX base (execPpsOutPulse s) := by
  unfold execPpsOutPulse
  try dsimp only
  repeat' first
    | with_reducible assumption | with_reducible apply keeps_elapse | with_reducible apply keeps_ite | with_reducible apply keepsX_next
    | with_reducible exact keepsX_fault | with_reducible apply keepsX_ite
    | (simp only [keeps_mk]; first | with_reducible apply Keeps.parts | refine Keeps.parts' ?_ rfl) | dsimp only | split

end Sys2Proof.Laws
end

