-- ==== Sys2Proof/Laws/Keeps/Snapshot.lean ====
section
/-! SUPPORT. Machine/Snapshot.lean keeps the queue, the canonical form and one actuation per valve. -/

namespace Sys2Proof.Laws

open Sys2Proof.Machine Sys2Proof.Safety

theorem keeps_setChannel {base : State} {s : State} {n : Nat} {c : Channel} (h0 : Keeps base s) :
    Keeps base (State.setChannel s n c) := by
  unfold State.setChannel
  try dsimp only
  repeat' first
    | with_reducible assumption | (simp only [keeps_mk]; first | with_reducible apply Keeps.parts | refine Keeps.parts' ?_ rfl) | dsimp only

theorem keeps_dmaBits {base : State} {s : State} (h0 : Keeps base s) :
    Keeps base (State.dmaBits s) := by
  unfold State.dmaBits
  try dsimp only
  repeat' first
    | with_reducible assumption | with_reducible apply keeps_put | with_reducible apply keeps_ite | with_reducible apply keeps_foldl
    | with_reducible apply keeps_foldl_fst | dsimp only | split | (intro _; intros; try dsimp only)

theorem keeps_maintWait {base : State} {s : State} (h0 : Keeps base s) :
    Keeps base (State.maintWait s) := by
  unfold State.maintWait
  try dsimp only
  repeat' first
    | with_reducible assumption | with_reducible apply keeps_arm | with_reducible apply keeps_disarm | with_reducible apply keeps_ite
    | dsimp only | split | (intro _; intros; try dsimp only)

theorem keeps_beginTransfer {base : State} {s : State} {n : Nat} (h0 : Keeps base s) :
    Keeps base (State.beginTransfer s n) := by
  unfold State.beginTransfer
  try dsimp only
  repeat' first
    | with_reducible assumption | with_reducible apply keeps_dmaBits | with_reducible apply keeps_maintWait | with_reducible apply keeps_put
    | with_reducible apply keeps_setWord | dsimp only

theorem keeps_startMaint {base : State} {s : State} {n : Nat} {c : Channel} (h0 : Keeps base s) :
    Keeps base (State.startMaint s n c) := by
  unfold State.startMaint
  try dsimp only
  repeat' first
    | with_reducible assumption | with_reducible apply keeps_beginTransfer | with_reducible apply keeps_put
    | with_reducible apply keeps_setChannel | with_reducible apply keeps_ite
    | (simp only [keeps_mk]; first | with_reducible apply Keeps.parts | refine Keeps.parts' ?_ rfl) | dsimp only | split

theorem keeps_nextMaint {base : State} {s : State} (h0 : Keeps base s) :
    Keeps base (State.nextMaint s) := by
  unfold State.nextMaint
  try dsimp only
  repeat' first
    | with_reducible assumption | with_reducible apply keeps_beginTransfer | with_reducible apply keeps_ite
    | (simp only [keeps_mk]; first | with_reducible apply Keeps.parts | refine Keeps.parts' ?_ rfl) | dsimp only | split

theorem keeps_autoSnapshot {base : State} {s : State} (h0 : Keeps base s) :
    Keeps base (State.autoSnapshot s) := by
  unfold State.autoSnapshot
  try dsimp only
  repeat' first
    | with_reducible assumption | with_reducible apply keeps_bump | with_reducible apply keeps_startMaint | with_reducible apply keeps_ite
    | (simp only [keeps_mk]; first | with_reducible apply Keeps.parts | refine Keeps.parts' ?_ rfl) | dsimp only | split

end Sys2Proof.Laws
end

