-- ==== Sys2Proof/Laws/Keeps/Solve.lean ====
section
/-! SUPPORT. Machine/Solve.lean keeps the queue, the canonical form and one actuation per valve. -/

namespace Sys2Proof.Laws

open Sys2Proof.Machine Sys2Proof.Safety

theorem keeps_predicted {base : State} {s : State} {v : SolveEnv} {i : Nat} {d : Int} {gk : Rat} (h0 : Keeps base s) :
    Keeps base (State.predicted s v i d gk).1 := by
  unfold State.predicted
  try dsimp only
  repeat' first
    | with_reducible assumption | with_reducible apply keeps_draw | with_reducible apply keeps_ite | with_reducible apply keeps_ite_fst
    | dsimp only | split

theorem keeps_solveFrom {o : State} {s : State} {v : SolveEnv} {i : Nat} {q : State × Rat} (h : Keeps o q.1) :
    Keeps o (State.solveFrom s v i q).1 := h

theorem keeps_solvePixel {o : State} {s : State} {v : SolveEnv} {i : Nat} (h0 : Keeps o s) : Keeps o (State.solvePixel s v i).1 := by
  rw [State.solvePixel]
  exact keeps_solveFrom (keeps_predicted h0)

theorem keeps_solveAll {base : State} {s : State} {v : SolveEnv} (h0 : Keeps base s) :
    Keeps base (State.solveAll s v).1 := by
  unfold State.solveAll
  try dsimp only
  repeat' first
    | with_reducible assumption | with_reducible apply keeps_putBytes | with_reducible apply keeps_solvePixel
    | with_reducible apply keeps_ite_fst | with_reducible apply keeps_foldl | with_reducible apply keeps_foldl_fst | dsimp only
    | (intro _; intros; try dsimp only)

theorem keeps_putWhy {base : State} {s : State} {t : Solved} (h0 : Keeps base s) :
    Keeps base (State.putWhy s t) := by
  unfold State.putWhy
  try dsimp only
  repeat' first
    | with_reducible assumption | with_reducible apply keeps_putSat | dsimp only

theorem keeps_solveDone {base : State} {s : State} {sel : Nat} (h0 : Keeps base s) :
    Keeps base (State.solveDone s sel) := by
  unfold State.solveDone
  try dsimp only
  repeat' first
    | with_reducible assumption | with_reducible apply keeps_putWhy | with_reducible apply keeps_solveAll | with_reducible apply keeps_ite
    | with_reducible apply keepsO_ite | with_reducible apply keepsO_some | with_reducible exact keepsO_none
    | (simp only [keeps_mk]; first | with_reducible apply Keeps.parts | refine Keeps.parts' ?_ rfl)
    | (refine Keeps.ofPair (by assumption) ?_) | dsimp only | split

end Sys2Proof.Laws
end

