-- ==== Sys2Proof/Laws/Keeps/Script.lean ====
section
/-! SUPPORT. Machine/Script.lean keeps the queue, the canonical form and one actuation per valve. -/

namespace Sys2Proof.Laws

open Sys2Proof.Machine Sys2Proof.Safety

theorem keeps_startUpStep8 {base : State} {s : State} (h0 : Keeps base s) :
    Keeps base (State.startUpStep8 s) := by
  unfold State.startUpStep8
  try dsimp only
  repeat' first
    | with_reducible assumption | with_reducible apply keeps_bringUp | with_reducible apply keeps_put
    | with_reducible apply keeps_requestShutter | with_reducible apply keeps_setDomain | with_reducible apply keeps_setDomains | dsimp only
    | (intro _; intros; try dsimp only)

theorem keeps_releaseStandby {base : State} {s : State} (h0 : Keeps base s) :
    Keeps base (State.releaseStandby s) := by
  unfold State.releaseStandby
  try dsimp only
  repeat' first
    | with_reducible assumption | with_reducible apply keeps_put | dsimp only

theorem keeps_refuseEvent {base : State} {s : State} {reason : Nat} (h0 : Keeps base s) :
    Keeps base (State.refuseEvent s reason) := by
  unfold State.refuseEvent
  try dsimp only
  repeat' first
    | with_reducible assumption | with_reducible apply keeps_bump | with_reducible apply keeps_emit | with_reducible apply keeps_put
    | with_reducible apply keeps_putSat | with_reducible apply keeps_putWhy | with_reducible apply keeps_releaseStandby
    | with_reducible apply keeps_ite | (simp only [keeps_mk]; first | with_reducible apply Keeps.parts | refine Keeps.parts' ?_ rfl)
    | dsimp only | split | (intro _; intros; try dsimp only)

theorem keeps_finishScript {base : State} {s : State} {code : Nat} (h0 : Keeps base s) :
    Keeps base (State.finishScript s code) := by
  unfold State.finishScript
  try dsimp only
  repeat' first
    | with_reducible assumption | with_reducible apply keeps_assertGap | with_reducible apply keeps_put | with_reducible apply keeps_putFlag
    | with_reducible apply keeps_releaseGap | with_reducible apply keeps_releaseStandby | with_reducible apply keeps_startUpStep8
    | with_reducible apply keeps_ite | (simp only [keeps_mk]; first | with_reducible apply Keeps.parts | refine Keeps.parts' ?_ rfl)
    | dsimp only | split

theorem keeps_resumeNow {base : State} {s : State} (h0 : Keeps base s) :
    Keeps base (State.resumeNow s) := by
  unfold State.resumeNow
  try dsimp only
  repeat' first
    | with_reducible assumption | with_reducible apply keeps_bump | with_reducible apply keeps_discontinuity
    | with_reducible apply keeps_put | with_reducible apply keeps_releaseGap | with_reducible apply keeps_suspendLine
    | with_reducible apply keepsO_ite | with_reducible apply keepsO_some | with_reducible exact keepsO_none
    | (simp only [keeps_mk]; first | with_reducible apply Keeps.parts | refine Keeps.parts' ?_ rfl) | dsimp only | split

theorem keeps_beginStep {base : State} {s : State} {op : Nat} (h0 : Keeps base s) :
    Keeps base (State.beginStep s op) := by
  unfold State.beginStep
  try dsimp only
  repeat' first
    | with_reducible assumption | with_reducible apply keeps_auxRun | with_reducible apply keeps_put | with_reducible apply keeps_resumeNow
    | with_reducible apply keeps_ite | with_reducible apply keepsO_ite | with_reducible apply keepsO_some | with_reducible exact keepsO_none
    | (simp only [keeps_mk]; first | with_reducible apply Keeps.parts | refine Keeps.parts' ?_ rfl) | dsimp only | split

theorem keeps_middleReadings {base : State} {s : State} (h0 : Keeps base s) :
    Keeps base (State.middleReadings s) := by
  unfold State.middleReadings
  try dsimp only
  repeat' first
    | with_reducible assumption | with_reducible apply keeps_ite | with_reducible apply keepsO_ite | with_reducible apply keepsO_some
    | with_reducible exact keepsO_none | (simp only [keeps_mk]; first | with_reducible apply Keeps.parts | refine Keeps.parts' ?_ rfl)
    | dsimp only | split | (intro _; intros; try dsimp only)

theorem keeps_startStep {base : State} {s : State} {op : Nat} {n : Nat} (h0 : Keeps base s) :
    Keeps base (State.startStep s op n) := by
  unfold State.startStep
  try dsimp only
  repeat' first
    | with_reducible assumption | with_reducible apply keeps_beginStep | with_reducible apply keeps_middleReadings
    | with_reducible apply keeps_ite | with_reducible apply keepsO_ite | with_reducible apply keepsO_some | with_reducible exact keepsO_none
    | (simp only [keeps_mk]; first | with_reducible apply Keeps.parts | refine Keeps.parts' ?_ rfl) | dsimp only | split

theorem keeps_finishClosing {base : State} {s : State} {code : Nat} (h0 : Keeps base s) :
    Keeps base (State.finishClosing s code) := by
  unfold State.finishClosing
  try dsimp only
  repeat' first
    | with_reducible assumption | with_reducible apply keeps_finishScript | with_reducible apply keeps_refuseEvent
    | with_reducible apply keeps_ite | dsimp only | split

theorem keeps_endScript {base : State} {s : State} {code : Nat} (h0 : Keeps base s) :
    Keeps base (State.endScript s code) := by
  unfold State.endScript
  try dsimp only
  repeat' first
    | with_reducible assumption | with_reducible apply keeps_finishClosing | with_reducible apply keeps_startStep
    | with_reducible apply keepsO_ite | with_reducible apply keepsO_some | with_reducible exact keepsO_none
    | (simp only [keeps_mk]; first | with_reducible apply Keeps.parts | refine Keeps.parts' ?_ rfl) | dsimp only | split

theorem keeps_jumpScript {base : State} {s : State} {pc : Nat} (h0 : Keeps base s) :
    Keeps base (State.jumpScript s pc) := by
  unfold State.jumpScript
  try dsimp only
  repeat' first
    | with_reducible assumption | with_reducible apply keeps_endScript | with_reducible apply keeps_put | with_reducible apply keeps_ite
    | (simp only [keeps_mk]; first | with_reducible apply Keeps.parts | refine Keeps.parts' ?_ rfl) | dsimp only | split

theorem keeps_nextWord {base : State} {s : State} (h0 : Keeps base s) :
    Keeps base (State.nextWord s) := by
  unfold State.nextWord
  try dsimp only
  repeat' first
    | with_reducible assumption | with_reducible apply keeps_jumpScript | dsimp only

theorem keeps_startScript {base : State} {s : State} {n : Nat} {shutter : Bool} (h0 : Keeps base s) :
    Keeps base (State.startScript s n shutter) := by
  unfold State.startScript
  try dsimp only
  repeat' first
    | with_reducible assumption | with_reducible apply keeps_jumpScript | with_reducible apply keeps_put
    | (simp only [keeps_mk]; first | with_reducible apply Keeps.parts | refine Keeps.parts' ?_ rfl) | dsimp only

theorem keeps_newHeader {base : State} {s : State} (h0 : Keeps base s) :
    Keeps base (State.newHeader s) := by
  unfold State.newHeader
  try dsimp only
  repeat' first
    | with_reducible assumption | with_reducible apply keeps_noteHeader | with_reducible apply keeps_put
    | with_reducible apply keeps_putBytes | with_reducible apply keepsO_ite | with_reducible apply keepsO_some
    | with_reducible exact keepsO_none | (simp only [keeps_mk]; first | with_reducible apply Keeps.parts | refine Keeps.parts' ?_ rfl)
    | with_reducible apply keeps_foldl | with_reducible apply keeps_foldl_fst | dsimp only | split | (intro _; intros; try dsimp only)

theorem keeps_qualityStart {base : State} {s : State} (h0 : Keeps base s) :
    Keeps base (State.qualityStart s) := by
  unfold State.qualityStart
  try dsimp only
  repeat' first
    | with_reducible assumption | with_reducible apply keeps_arm | with_reducible apply keeps_put
    | (simp only [keeps_mk]; first | with_reducible apply Keeps.parts | refine Keeps.parts' ?_ rfl) | dsimp only

theorem keeps_bankInForce {base : State} {s : State} (h0 : Keeps base s) :
    Keeps base (State.bankInForce s) := by
  unfold State.bankInForce
  try dsimp only
  repeat' first
    | with_reducible assumption | with_reducible apply keeps_glean | with_reducible apply keeps_put
    | with_reducible apply keeps_qualityStart | with_reducible apply keeps_setPair
    | (simp only [keeps_mk]; first | with_reducible apply Keeps.parts | refine Keeps.parts' ?_ rfl) | dsimp only

theorem keeps_swapEnds {base : State} {s : State} (h0 : Keeps base s) :
    Keeps base (State.swapEnds s) := by
  unfold State.swapEnds
  try dsimp only
  repeat' first
    | with_reducible assumption | with_reducible apply keeps_autoSnapshot | with_reducible apply keeps_put
    | with_reducible apply keeps_releaseStandby
    | (simp only [keeps_mk]; first | with_reducible apply Keeps.parts | refine Keeps.parts' ?_ rfl) | dsimp only

theorem keeps_swapDone {base : State} {s : State} (h0 : Keeps base s) :
    Keeps base (State.swapDone s) := by
  unfold State.swapDone
  try dsimp only
  repeat' first
    | with_reducible assumption | with_reducible apply keeps_bankInForce | with_reducible apply keeps_nextWord
    | with_reducible apply keeps_swapEnds | with_reducible apply keeps_ite | with_reducible apply keepsO_ite
    | with_reducible apply keepsO_some | with_reducible exact keepsO_none | dsimp only | split

theorem keeps_swapHere {base : State} {s : State} (h0 : Keeps base s) :
    Keeps base (State.swapHere s) := by
  unfold State.swapHere
  try dsimp only
  repeat' first
    | with_reducible assumption | with_reducible apply keeps_applySwaps | with_reducible apply keeps_substrate
    | with_reducible apply keeps_suspendLine | with_reducible apply keeps_swapDone | with_reducible apply keeps_ite
    | (simp only [keeps_mk]; first | with_reducible apply Keeps.parts | refine Keeps.parts' ?_ rfl)
    | (refine Keeps.ofPair (by assumption) ?_) | dsimp only | split

theorem keeps_acceptEvent {base : State} {s : State} {t : Solved} (h0 : Keeps base s) :
    Keeps base (State.acceptEvent s t) := by
  unfold State.acceptEvent
  try dsimp only
  repeat' first
    | with_reducible assumption | with_reducible apply keeps_bump | with_reducible apply keeps_bumpCounter | with_reducible apply keeps_emit
    | with_reducible apply keeps_newHeader | with_reducible apply keeps_put | with_reducible apply keeps_putSat
    | with_reducible apply keeps_swapHere | with_reducible apply keeps_ite | with_reducible apply keepsO_ite
    | with_reducible apply keepsO_some | with_reducible exact keepsO_none
    | (simp only [keeps_mk]; first | with_reducible apply Keeps.parts | refine Keeps.parts' ?_ rfl) | dsimp only | split

theorem keeps_decideEvent {base : State} {s : State} {t : Solved} (h0 : Keeps base s) :
    Keeps base (State.decideEvent s t) := by
  unfold State.decideEvent
  try dsimp only
  repeat' first
    | with_reducible assumption | with_reducible apply keeps_acceptEvent | with_reducible apply keeps_endScript
    | with_reducible apply keeps_refuseEvent | with_reducible apply keeps_ite | dsimp only | split

theorem keeps_viewMatches {base : State} {s : State} (h0 : Keeps base s) :
    Keeps base (State.viewMatches s).1 := by
  unfold State.viewMatches
  try dsimp only
  repeat' first
    | with_reducible assumption | with_reducible apply keeps_draw | with_reducible apply keeps_ite_fst | with_reducible apply keepsO_ite
    | with_reducible apply keepsO_some | with_reducible exact keepsO_none
    | (simp only [keeps_mk]; first | with_reducible apply Keeps.parts | refine Keeps.parts' ?_ rfl) | dsimp only | split

theorem keeps_flagStuck {base : State} {s : State} (h0 : Keeps base s) :
    Keeps base (State.flagStuck s) := by
  unfold State.flagStuck
  try dsimp only
  repeat' first
    | with_reducible assumption | with_reducible apply keeps_endScript | with_reducible apply keeps_put
    | (simp only [keeps_mk]; first | with_reducible apply Keeps.parts | refine Keeps.parts' ?_ rfl) | dsimp only

theorem keeps_closedCheck {base : State} {s : State} (h0 : Keeps base s) :
    Keeps base (State.closedCheck s) := by
  unfold State.closedCheck
  try dsimp only
  repeat' first
    | with_reducible assumption | with_reducible apply keeps_flagStuck | with_reducible apply keeps_put
    | with_reducible apply keeps_viewMatches | with_reducible apply keeps_ite | dsimp only | split

theorem keeps_openCheck {base : State} {s : State} (h0 : Keeps base s) :
    Keeps base (State.openCheck s) := by
  unfold State.openCheck
  try dsimp only
  repeat' first
    | with_reducible assumption | with_reducible apply keeps_arm | with_reducible apply keeps_emit | with_reducible apply keeps_put
    | with_reducible apply keeps_viewMatches | with_reducible apply keeps_ite | with_reducible apply keepsO_ite
    | with_reducible apply keepsO_some | with_reducible exact keepsO_none
    | (simp only [keeps_mk]; first | with_reducible apply Keeps.parts | refine Keeps.parts' ?_ rfl)
    | (refine Keeps.ofPair (by assumption) ?_) | dsimp only | split

theorem keeps_flagCheck {base : State} {s : State} {n : Nat} (h0 : Keeps base s) :
    Keeps base (State.flagCheck s n) := by
  unfold State.flagCheck
  try dsimp only
  repeat' first
    | with_reducible assumption | with_reducible apply keeps_closedCheck | with_reducible apply keeps_disarm
    | with_reducible apply keeps_openCheck | with_reducible apply keeps_viewMatches | with_reducible apply keeps_ite
    | (simp only [keeps_mk]; first | with_reducible apply Keeps.parts | refine Keeps.parts' ?_ rfl) | dsimp only | split
    | (intro _; intros; try dsimp only)

theorem keeps_execFlagOpenRetry {base : State} {s : State} (h0 : Keeps base s) :
    KeepsX base (execFlagOpenRetry s) := by
  unfold execFlagOpenRetry
  try dsimp only
  repeat' first
    | with_reducible assumption | with_reducible apply keeps_arm | with_reducible apply keeps_auxRun | with_reducible apply keeps_fire
    | with_reducible apply keepsX_next | with_reducible exact keepsX_fault | with_reducible apply keepsX_ite
    | with_reducible apply keepsO_ite | with_reducible apply keepsO_some | with_reducible exact keepsO_none
    | (simp only [keeps_mk]; first | with_reducible apply Keeps.parts | refine Keeps.parts' ?_ rfl) | (refine KeepsO.use (by assumption) ?_)
    | dsimp only | split | (intro _; intros; try dsimp only)

theorem keeps_driftCheck {base : State} {s : State} (h0 : Keeps base s) :
    Keeps base (State.driftCheck s) := by
  unfold State.driftCheck
  try dsimp only
  repeat' first
    | with_reducible assumption | with_reducible apply keeps_emit | with_reducible apply keeps_put
    | with_reducible apply keeps_requestShutter | with_reducible apply keeps_ite | dsimp only | split

theorem keeps_references {base : State} {s : State} (h0 : Keeps base s) :
    Keeps base (State.references s) := by
  unfold State.references
  try dsimp only
  repeat' first
    | with_reducible assumption | with_reducible apply keeps_ite
    | (simp only [keeps_mk]; first | with_reducible apply Keeps.parts | refine Keeps.parts' ?_ rfl) | dsimp only | split
    | (intro _; intros; try dsimp only)

theorem keeps_gapCheck {base : State} {s : State} (h0 : Keeps base s) :
    Keeps base (State.gapCheck s) := by
  unfold State.gapCheck
  try dsimp only
  repeat' first
    | with_reducible assumption | with_reducible apply keeps_disarm | with_reducible apply keeps_nextWord | with_reducible apply keeps_put
    | with_reducible apply keeps_ite | with_reducible apply keepsO_ite | with_reducible apply keepsO_some | with_reducible exact keepsO_none
    | dsimp only | split

theorem keeps_plateCheck {base : State} {s : State} (h0 : Keeps base s) :
    Keeps base (State.plateCheck s) := by
  unfold State.plateCheck
  try dsimp only
  repeat' first
    | with_reducible assumption | with_reducible apply keeps_jumpScript | with_reducible apply keeps_ite | with_reducible apply keepsO_ite
    | with_reducible apply keepsO_some | with_reducible exact keepsO_none
    | (simp only [keeps_mk]; first | with_reducible apply Keeps.parts | refine Keeps.parts' ?_ rfl) | dsimp only | split
    | (intro _; intros; try dsimp only)

theorem keeps_calLine {base : State} {s : State} (h0 : Keeps base s) :
    Keeps base (State.calLine s) := by
  unfold State.calLine
  try dsimp only
  repeat' first
    | with_reducible assumption | with_reducible apply keeps_beginStep | with_reducible apply keeps_driftCheck
    | with_reducible apply keeps_finishClosing | with_reducible apply keeps_gapCheck | with_reducible apply keeps_middleReadings
    | with_reducible apply keeps_nextWord | with_reducible apply keeps_plateCheck | with_reducible apply keeps_ite
    | with_reducible apply keepsO_ite | with_reducible apply keepsO_some | with_reducible exact keepsO_none
    | (simp only [keeps_mk]; first | with_reducible apply Keeps.parts | refine Keeps.parts' ?_ rfl) | dsimp only | split

theorem keeps_execIntervalRequest {base : State} {s : State} (h0 : Keeps base s) :
    KeepsX base (execIntervalRequest s) := by
  unfold execIntervalRequest
  try dsimp only
  repeat' first
    | with_reducible assumption | with_reducible apply keeps_elapseTo | with_reducible apply keeps_requestShutter
    | with_reducible apply keeps_ite | with_reducible apply keepsX_next | with_reducible exact keepsX_fault
    | with_reducible apply keepsX_ite | with_reducible apply keepsO_ite | with_reducible apply keepsO_some
    | with_reducible exact keepsO_none | (simp only [keeps_mk]; first | with_reducible apply Keeps.parts | refine Keeps.parts' ?_ rfl)
    | dsimp only | split

theorem keeps_execCalGapTimeout {base : State} {s : State} (h0 : Keeps base s) :
    KeepsX base (execCalGapTimeout s) := by
  unfold execCalGapTimeout
  try dsimp only
  repeat' first
    | with_reducible assumption | with_reducible apply keeps_arm | with_reducible apply keeps_emit | with_reducible apply keeps_fire
    | with_reducible apply keepsX_next | with_reducible exact keepsX_fault | with_reducible apply keepsX_ite
    | with_reducible apply keepsO_ite | with_reducible apply keepsO_some | with_reducible exact keepsO_none
    | (simp only [keeps_mk]; first | with_reducible apply Keeps.parts | refine Keeps.parts' ?_ rfl) | (refine KeepsO.use (by assumption) ?_)
    | dsimp only | split | (intro _; intros; try dsimp only)

theorem keeps_execShutterScriptStart {base : State} {s : State} (h0 : Keeps base s) :
    KeepsX base (execShutterScriptStart s) := by
  unfold execShutterScriptStart
  try dsimp only
  repeat' first
    | with_reducible assumption | with_reducible apply keeps_startScript | with_reducible apply keeps_ite | with_reducible apply keepsX_next
    | with_reducible exact keepsX_fault | with_reducible apply keepsX_ite | dsimp only | split

theorem keeps_cancelEvent {base : State} {s : State} (h0 : Keeps base s) :
    KeepsO base (State.cancelEvent s) := by
  unfold State.cancelEvent
  try dsimp only
  repeat' first
    | with_reducible assumption | with_reducible apply keeps_finishScript | with_reducible apply keeps_put
    | with_reducible apply keeps_releaseGap | with_reducible apply keeps_ite | with_reducible apply keepsO_ite
    | with_reducible apply keepsO_some | with_reducible exact keepsO_none
    | (simp only [keeps_mk]; first | with_reducible apply Keeps.parts | refine Keeps.parts' ?_ rfl) | dsimp only | split

theorem keeps_clearCal {base : State} {s : State} (h0 : Keeps base s) :
    Keeps base (State.clearCal s) := by
  unfold State.clearCal
  try dsimp only
  repeat' first
    | with_reducible assumption | with_reducible apply keeps_setWord | dsimp only

theorem keeps_hostCalCmd {base : State} {s : State} {w : Nat} (h0 : Keeps base s) :
    Keeps base (State.hostCalCmd s w).1 := by
  unfold State.hostCalCmd
  try dsimp only
  repeat' first
    | with_reducible assumption | with_reducible apply keeps_cancelEvent | with_reducible apply keeps_clearCal
    | with_reducible apply keeps_requestShutter | with_reducible apply keeps_startScript | with_reducible apply keeps_thenAct
    | with_reducible apply keeps_ite | with_reducible apply keeps_ite_fst | with_reducible apply keepsO_ite
    | with_reducible apply keepsO_some | with_reducible exact keepsO_none | dsimp only | split | (intro _; intros; try dsimp only)

theorem keeps_execCalEventRequest {base : State} {s : State} (h0 : Keeps base s) :
    KeepsX base (execCalEventRequest s) := by
  unfold execCalEventRequest
  try dsimp only
  repeat' first
    | with_reducible assumption | with_reducible apply keeps_hostCalCmd | with_reducible apply keeps_hostDone
    | with_reducible apply keepsX_next | with_reducible exact keepsX_fault | with_reducible apply keepsX_ite | dsimp only

theorem keeps_execCalCancel {base : State} {s : State} (h0 : Keeps base s) :
    KeepsX base (execCalCancel s) := by
  unfold execCalCancel
  try dsimp only
  repeat' first
    | with_reducible assumption | with_reducible apply keeps_hostCalCmd | with_reducible apply keeps_hostDone
    | with_reducible apply keepsX_next | with_reducible exact keepsX_fault | with_reducible apply keepsX_ite | dsimp only

theorem keeps_execCalRun {base : State} {script : Nat} {s : State} (h0 : Keeps base s) :
    KeepsX base (execCalRun script s) := by
  unfold execCalRun
  try dsimp only
  repeat' first
    | with_reducible assumption | with_reducible apply keeps_hostCalCmd | with_reducible apply keeps_hostDone
    | with_reducible apply keepsX_next | with_reducible exact keepsX_fault | with_reducible apply keepsX_ite | dsimp only

theorem keeps_execCalClrCounters {base : State} {s : State} (h0 : Keeps base s) :
    KeepsX base (execCalClrCounters s) := by
  unfold execCalClrCounters
  try dsimp only
  repeat' first
    | with_reducible assumption | with_reducible apply keeps_hostCalCmd | with_reducible apply keeps_hostDone
    | with_reducible apply keepsX_next | with_reducible exact keepsX_fault | with_reducible apply keepsX_ite | dsimp only

theorem keeps_hostScriptWord {base : State} {s : State} {a : Nat} {w : Word} (h0 : Keeps base s) :
    KeepsO base (State.hostScriptWord s a w) := by
  unfold State.hostScriptWord
  try dsimp only
  repeat' first
    | with_reducible assumption | with_reducible apply keeps_setWord | with_reducible apply keeps_ite | with_reducible apply keepsO_ite
    | with_reducible apply keepsO_some | with_reducible exact keepsO_none
    | (simp only [keeps_mk]; first | with_reducible apply Keeps.parts | refine Keeps.parts' ?_ rfl) | dsimp only | split

theorem keeps_execScriptWrite {base : State} {addr : Nat} {value : Nat} {s : State} (h0 : Keeps base s) :
    KeepsX base (execScriptWrite addr value s) := by
  unfold execScriptWrite
  try dsimp only
  repeat' first
    | with_reducible assumption | with_reducible apply keeps_host | with_reducible apply keeps_hostScriptWord
    | with_reducible apply keeps_ite | with_reducible apply keepsX_next | with_reducible exact keepsX_fault
    | with_reducible apply keepsX_ite | dsimp only | split | (intro _; intros; try dsimp only)

theorem keeps_execCrocusEnd {base : State} {code : Nat} {s : State} (h0 : Keeps base s) :
    KeepsX base (execCrocusEnd code s) := by
  unfold execCrocusEnd
  try dsimp only
  repeat' first
    | with_reducible assumption | with_reducible apply keeps_endScript | with_reducible apply keeps_ite | with_reducible apply keepsX_next
    | with_reducible exact keepsX_fault | with_reducible apply keepsX_ite | dsimp only | split | (intro _; intros; try dsimp only)

theorem keeps_execCrocusWait {base : State} {lines : Nat} {s : State} (h0 : Keeps base s) :
    KeepsX base (execCrocusWait lines s) := by
  unfold execCrocusWait
  try dsimp only
  repeat' first
    | with_reducible assumption | with_reducible apply keeps_ite | with_reducible apply keepsX_next | with_reducible exact keepsX_fault
    | with_reducible apply keepsX_ite | with_reducible apply keepsO_ite | with_reducible apply keepsO_some
    | with_reducible exact keepsO_none | (simp only [keeps_mk]; first | with_reducible apply Keeps.parts | refine Keeps.parts' ?_ rfl)
    | dsimp only | split | (intro _; intros; try dsimp only)

theorem keeps_waitGap {base : State} {s : State} (h0 : Keeps base s) :
    Keeps base (State.waitGap s) := by
  unfold State.waitGap
  try dsimp only
  repeat' first
    | with_reducible assumption | with_reducible apply keeps_arm | with_reducible apply keeps_ite | dsimp only | split

theorem keeps_execCrocusGap {base : State} {s : State} (h0 : Keeps base s) :
    KeepsX base (execCrocusGap s) := by
  unfold execCrocusGap
  try dsimp only
  repeat' first
    | with_reducible assumption | with_reducible apply keeps_assertGap | with_reducible apply keeps_put | with_reducible apply keeps_waitGap
    | with_reducible apply keeps_ite | with_reducible apply keepsX_next | with_reducible exact keepsX_fault
    | with_reducible apply keepsX_ite | with_reducible apply keepsO_ite | with_reducible apply keepsO_some
    | with_reducible exact keepsO_none | (simp only [keeps_mk]; first | with_reducible apply Keeps.parts | refine Keeps.parts' ?_ rfl)
    | dsimp only | split | (intro _; intros; try dsimp only)

theorem keeps_copyBank {base : State} {s : State} (h0 : Keeps base s) :
    Keeps base (State.copyBank s) := by
  unfold State.copyBank
  try dsimp only
  repeat' first
    | with_reducible assumption | with_reducible apply keeps_putBytes
    | (simp only [keeps_mk]; first | with_reducible apply Keeps.parts | refine Keeps.parts' ?_ rfl) | dsimp only

theorem keeps_execCrocusPlate {base : State} {lines : Nat} {s : State} (h0 : Keeps base s) :
    KeepsX base (execCrocusPlate lines s) := by
  unfold execCrocusPlate
  try dsimp only
  repeat' first
    | with_reducible assumption | with_reducible apply keeps_copyBank | with_reducible apply keeps_put
    | with_reducible apply keeps_startStep | with_reducible apply keeps_ite | with_reducible apply keepsX_next
    | with_reducible exact keepsX_fault | with_reducible apply keepsX_ite
    | (simp only [keeps_mk]; first | with_reducible apply Keeps.parts | refine Keeps.parts' ?_ rfl) | dsimp only | split
    | (intro _; intros; try dsimp only)

theorem keeps_execCrocusClose {base : State} {s : State} (h0 : Keeps base s) :
    KeepsX base (execCrocusClose s) := by
  unfold execCrocusClose
  try dsimp only
  repeat' first
    | with_reducible assumption | with_reducible apply keeps_endScript | with_reducible apply keeps_put
    | with_reducible apply keeps_refuseEvent | with_reducible apply keeps_startStep | with_reducible apply keeps_ite
    | with_reducible apply keepsX_next | with_reducible exact keepsX_fault | with_reducible apply keepsX_ite | dsimp only | split
    | (intro _; intros; try dsimp only)

theorem keeps_execCrocusSettle {base : State} {lines : Nat} {s : State} (h0 : Keeps base s) :
    KeepsX base (execCrocusSettle lines s) := by
  unfold execCrocusSettle
  try dsimp only
  repeat' first
    | with_reducible assumption | with_reducible apply keeps_startStep | with_reducible apply keeps_ite | with_reducible apply keepsX_next
    | with_reducible exact keepsX_fault | with_reducible apply keepsX_ite | dsimp only | split | (intro _; intros; try dsimp only)

theorem keeps_execCrocusFlag {base : State} {lines : Nat} {s : State} (h0 : Keeps base s) :
    KeepsX base (execCrocusFlag lines s) := by
  unfold execCrocusFlag
  try dsimp only
  repeat' first
    | with_reducible assumption | with_reducible apply keeps_startStep | with_reducible apply keeps_ite | with_reducible apply keepsX_next
    | with_reducible exact keepsX_fault | with_reducible apply keepsX_ite
    | (simp only [keeps_mk]; first | with_reducible apply Keeps.parts | refine Keeps.parts' ?_ rfl) | dsimp only | split
    | (intro _; intros; try dsimp only)

theorem keeps_execCrocusOpen {base : State} {s : State} (h0 : Keeps base s) :
    KeepsX base (execCrocusOpen s) := by
  unfold execCrocusOpen
  try dsimp only
  repeat' first
    | with_reducible assumption | with_reducible apply keeps_startStep | with_reducible apply keeps_ite | with_reducible apply keepsX_next
    | with_reducible exact keepsX_fault | with_reducible apply keepsX_ite | dsimp only | split | (intro _; intros; try dsimp only)

theorem keeps_execCrocusResume {base : State} {s : State} (h0 : Keeps base s) :
    KeepsX base (execCrocusResume s) := by
  unfold execCrocusResume
  try dsimp only
  repeat' first
    | with_reducible assumption | with_reducible apply keeps_nextWord | with_reducible apply keeps_resumeNow
    | with_reducible apply keeps_startStep | with_reducible apply keeps_ite | with_reducible apply keepsX_next
    | with_reducible exact keepsX_fault | with_reducible apply keepsX_ite | dsimp only | split | (intro _; intros; try dsimp only)

theorem keeps_execCrocusSolve {base : State} {sel : Nat} {s : State} (h0 : Keeps base s) :
    KeepsX base (execCrocusSolve sel s) := by
  unfold execCrocusSolve
  try dsimp only
  repeat' first
    | with_reducible assumption | with_reducible apply keeps_endScript | with_reducible apply keeps_nextWord
    | with_reducible apply keeps_ite | with_reducible apply keepsX_next | with_reducible exact keepsX_fault
    | with_reducible apply keepsX_ite | with_reducible apply keepsO_ite | with_reducible apply keepsO_some
    | with_reducible exact keepsO_none | (simp only [keeps_mk]; first | with_reducible apply Keeps.parts | refine Keeps.parts' ?_ rfl)
    | dsimp only | split | (intro _; intros; try dsimp only)

theorem keeps_execSolveComplete {base : State} {s : State} (h0 : Keeps base s) :
    KeepsX base (execSolveComplete s) := by
  unfold execSolveComplete
  try dsimp only
  repeat' first
    | with_reducible assumption | with_reducible apply keeps_decideEvent | with_reducible apply keeps_solveDone
    | with_reducible apply keepsX_next | with_reducible exact keepsX_fault | with_reducible apply keepsX_ite
    | with_reducible apply keepsO_ite | with_reducible apply keepsO_some | with_reducible exact keepsO_none
    | (simp only [keeps_mk]; first | with_reducible apply Keeps.parts | refine Keeps.parts' ?_ rfl) | dsimp only | split

theorem keeps_execCrocusSwap {base : State} {s : State} (h0 : Keeps base s) :
    KeepsX base (execCrocusSwap s) := by
  unfold execCrocusSwap
  try dsimp only
  repeat' first
    | with_reducible assumption | with_reducible apply keeps_decideEvent | with_reducible apply keeps_endScript
    | with_reducible apply keeps_ite | with_reducible apply keepsX_next | with_reducible exact keepsX_fault
    | with_reducible apply keepsX_ite | with_reducible apply keepsO_ite | with_reducible apply keepsO_some
    | with_reducible exact keepsO_none | (simp only [keeps_mk]; first | with_reducible apply Keeps.parts | refine Keeps.parts' ?_ rfl)
    | dsimp only | split | (intro _; intros; try dsimp only)

theorem keeps_execCrocusJumpIf {base : State} {cond : Nat} {target : Nat} {s : State} (h0 : Keeps base s) :
    KeepsX base (execCrocusJumpIf cond target s) := by
  unfold execCrocusJumpIf
  try dsimp only
  repeat' first
    | with_reducible assumption | with_reducible apply keeps_jumpScript | with_reducible apply keeps_nextWord
    | with_reducible apply keeps_ite | with_reducible apply keepsX_next | with_reducible exact keepsX_fault
    | with_reducible apply keepsX_ite | dsimp only | split | (intro _; intros; try dsimp only)

theorem keeps_execCrocusEvent {base : State} {code : Nat} {s : State} (h0 : Keeps base s) :
    KeepsX base (execCrocusEvent code s) := by
  unfold execCrocusEvent
  try dsimp only
  repeat' first
    | with_reducible assumption | with_reducible apply keeps_emit | with_reducible apply keeps_nextWord | with_reducible apply keeps_ite
    | with_reducible apply keepsX_next | with_reducible exact keepsX_fault | with_reducible apply keepsX_ite | dsimp only | split
    | (intro _; intros; try dsimp only)

theorem keeps_execSettlingEvaluation {base : State} {s : State} (h0 : Keeps base s) :
    KeepsX base (execSettlingEvaluation s) := by
  unfold execSettlingEvaluation
  try dsimp only
  repeat' first
    | with_reducible assumption | with_reducible apply keeps_arm | with_reducible apply keeps_fire | with_reducible apply keeps_put
    | with_reducible apply keeps_settle | with_reducible apply keeps_ite | with_reducible apply keepsX_next
    | with_reducible exact keepsX_fault | with_reducible apply keepsX_ite | with_reducible apply keepsO_ite
    | with_reducible apply keepsO_some | with_reducible exact keepsO_none
    | (simp only [keeps_mk]; first | with_reducible apply Keeps.parts | refine Keeps.parts' ?_ rfl) | (refine KeepsO.use (by assumption) ?_)
    | dsimp only | split | (intro _; intros; try dsimp only)

end Sys2Proof.Laws
end

