-- ==== Sys2Proof/Laws/Keeps/Trim.lean ====
section
/-! SUPPORT. Machine/Trim.lean keeps the queue, the canonical form and one actuation per valve. -/

namespace Sys2Proof.Laws

open Sys2Proof.Machine Sys2Proof.Safety

theorem keeps_trimmed {base : State} {s : State} (h0 : Keeps base s) :
    Keeps base (State.trimmed s) := by
  unfold State.trimmed
  try dsimp only
  repeat' first
    | with_reducible assumption | with_reducible apply keeps_assertGap | with_reducible apply keeps_put
    | with_reducible apply keeps_requestShutter | with_reducible apply keeps_ite | dsimp only | split

theorem keeps_tryChoice {base : State} {s : State} {kind : Nat} {n : Nat} (h0 : Keeps base s) :
    Keeps base (State.tryChoice s kind n) := by
  unfold State.tryChoice
  try dsimp only
  repeat' first
    | with_reducible assumption | with_reducible apply keeps_put | with_reducible apply keeps_ite | with_reducible apply keeps_foldl
    | with_reducible apply keeps_foldl_fst | dsimp only | split | (intro _; intros; try dsimp only)

theorem keeps_tryCode {base : State} {s : State} {kind : Nat} {h : Nat} {code : Nat} (h0 : Keeps base s) :
    Keeps base (State.tryCode s kind h code) := by
  unfold State.tryCode
  try dsimp only
  repeat' first
    | with_reducible assumption | with_reducible apply keeps_put | with_reducible apply keeps_ite | dsimp only | split

theorem keeps_tryTrial {base : State} {s : State} {t : TrimRun} (h0 : Keeps base s) :
    Keeps base (State.tryTrial s t) := by
  unfold State.tryTrial
  try dsimp only
  repeat' first
    | with_reducible assumption | with_reducible apply keeps_tryChoice | with_reducible apply keeps_tryCode | with_reducible apply keeps_ite
    | with_reducible apply keeps_foldl | with_reducible apply keeps_foldl_fst | dsimp only | split | (intro _; intros; try dsimp only)

theorem keeps_startTrim {base : State} {s : State} {op : Nat} {kind : Nat} (h0 : Keeps base s) :
    Keeps base (State.startTrim s op kind) := by
  unfold State.startTrim
  try dsimp only
  repeat' first
    | with_reducible assumption | with_reducible apply keeps_tryTrial | with_reducible apply keeps_ite | with_reducible apply keepsO_ite
    | with_reducible apply keepsO_some | with_reducible exact keepsO_none
    | (simp only [keeps_mk]; first | with_reducible apply Keeps.parts | refine Keeps.parts' ?_ rfl) | dsimp only | split

theorem keeps_setChoices {base : State} {s : State} {t : TrimRun} (h0 : Keeps base s) :
    Keeps base (State.setChoices s t) := by
  unfold State.setChoices
  try dsimp only
  repeat' first
    | with_reducible assumption | with_reducible apply keeps_put | with_reducible apply keeps_ite | with_reducible apply keeps_foldl
    | with_reducible apply keeps_foldl_fst | dsimp only | split | (intro _; intros; try dsimp only)

theorem keeps_setCodes {base : State} {s : State} {t : TrimRun} (h0 : Keeps base s) :
    Keeps base (State.setCodes s t) := by
  unfold State.setCodes
  try dsimp only
  repeat' first
    | with_reducible assumption | with_reducible apply keeps_tryCode | with_reducible apply keepsO_ite | with_reducible apply keepsO_some
    | with_reducible exact keepsO_none | (simp only [keeps_mk]; first | with_reducible apply Keeps.parts | refine Keeps.parts' ?_ rfl)
    | with_reducible apply keeps_foldl | with_reducible apply keeps_foldl_fst | dsimp only | split | (intro _; intros; try dsimp only)

theorem keeps_trialDone {base : State} {s : State} {t : TrimRun} {biasMv : Nat} (h0 : Keeps base s) :
    Keeps base (State.trialDone s t biasMv) := by
  unfold State.trialDone
  try dsimp only
  repeat' first
    | with_reducible assumption | with_reducible apply keeps_nextWord | with_reducible apply keeps_setChoices
    | with_reducible apply keeps_setCodes | with_reducible apply keeps_trimmed | with_reducible apply keeps_tryTrial
    | with_reducible apply keeps_ite | with_reducible apply keepsO_ite | with_reducible apply keepsO_some | with_reducible exact keepsO_none
    | (simp only [keeps_mk]; first | with_reducible apply Keeps.parts | refine Keeps.parts' ?_ rfl) | dsimp only | split

theorem keeps_execCrocusTrimCap {base : State} {s : State} (h0 : Keeps base s) :
    KeepsX base (execCrocusTrimCap s) := by
  unfold execCrocusTrimCap
  try dsimp only
  repeat' first
    | with_reducible assumption | with_reducible apply keeps_endScript | with_reducible apply keeps_startTrim
    | with_reducible apply keeps_ite | with_reducible apply keepsX_next | with_reducible exact keepsX_fault
    | with_reducible apply keepsX_ite | dsimp only | split | (intro _; intros; try dsimp only)

theorem keeps_execCrocusTrimSkim {base : State} {s : State} (h0 : Keeps base s) :
    KeepsX base (execCrocusTrimSkim s) := by
  unfold execCrocusTrimSkim
  try dsimp only
  repeat' first
    | with_reducible assumption | with_reducible apply keeps_endScript | with_reducible apply keeps_startTrim
    | with_reducible apply keeps_ite | with_reducible apply keepsX_next | with_reducible exact keepsX_fault
    | with_reducible apply keepsX_ite | dsimp only | split | (intro _; intros; try dsimp only)

theorem keeps_execCrocusTrimDac {base : State} {dac : Nat} {s : State} (h0 : Keeps base s) :
    KeepsX base (execCrocusTrimDac dac s) := by
  unfold execCrocusTrimDac
  try dsimp only
  repeat' first
    | with_reducible assumption | with_reducible apply keeps_endScript | with_reducible apply keeps_startTrim
    | with_reducible apply keeps_ite | with_reducible apply keepsX_next | with_reducible exact keepsX_fault
    | with_reducible apply keepsX_ite | dsimp only | split | (intro _; intros; try dsimp only)

theorem keeps_closingDone {base : State} {s : State} {code : Nat} {step : Nat} (h0 : Keeps base s) :
    Keeps base (State.closingDone s code step) := by
  unfold State.closingDone
  try dsimp only
  repeat' first
    | with_reducible assumption | with_reducible apply keeps_finishClosing | with_reducible apply keeps_resumeNow
    | with_reducible apply keeps_startStep | with_reducible apply keeps_ite | with_reducible apply keepsO_ite
    | with_reducible apply keepsO_some | with_reducible exact keepsO_none
    | (simp only [keeps_mk]; first | with_reducible apply Keeps.parts | refine Keeps.parts' ?_ rfl) | dsimp only | split

theorem keeps_linesDone {base : State} {s : State} {op : Nat} {biasMv : Nat} (h0 : Keeps base s) :
    Keeps base (State.linesDone s op biasMv) := by
  unfold State.linesDone
  try dsimp only
  repeat' first
    | with_reducible assumption | with_reducible apply keeps_closingDone | with_reducible apply keeps_nextWord
    | with_reducible apply keeps_trialDone | with_reducible apply keeps_ite | with_reducible apply keepsO_ite
    | with_reducible apply keepsO_some | with_reducible exact keepsO_none
    | (simp only [keeps_mk]; first | with_reducible apply Keeps.parts | refine Keeps.parts' ?_ rfl) | dsimp only | split

theorem keeps_execScriptLinesDone {base : State} {biasMv : Nat} {s : State} (h0 : Keeps base s) :
    KeepsX base (execScriptLinesDone biasMv s) := by
  unfold execScriptLinesDone
  try dsimp only
  repeat' first
    | with_reducible assumption | with_reducible apply keeps_linesDone | with_reducible apply keeps_ite | with_reducible apply keepsX_next
    | with_reducible exact keepsX_fault | with_reducible apply keepsX_ite | with_reducible apply keepsO_ite
    | with_reducible apply keepsO_some | with_reducible exact keepsO_none
    | (simp only [keeps_mk]; first | with_reducible apply Keeps.parts | refine Keeps.parts' ?_ rfl) | dsimp only | split

theorem keeps_hostTrim {base : State} {s : State} {addr : Nat} {value : Nat} (h0 : Keeps base s) :
    KeepsO base (State.hostTrim s addr value) := by
  unfold State.hostTrim
  try dsimp only
  repeat' first
    | with_reducible assumption | with_reducible apply keeps_allow | with_reducible apply keeps_setWord | with_reducible apply keeps_trimmed
    | with_reducible apply keeps_ite | with_reducible apply keepsO_ite | with_reducible apply keepsO_some | with_reducible exact keepsO_none
    | dsimp only | split | (intro _; intros; try dsimp only)

theorem keeps_execTrimWrite {base : State} {addr : Nat} {value : Nat} {s : State} (h0 : Keeps base s) :
    KeepsX base (execTrimWrite addr value s) := by
  unfold execTrimWrite
  try dsimp only
  repeat' first
    | with_reducible assumption | with_reducible apply keeps_host | with_reducible apply keeps_hostTrim | with_reducible apply keeps_ite
    | with_reducible apply keepsX_next | with_reducible exact keepsX_fault | with_reducible apply keepsX_ite | dsimp only | split
    | (intro _; intros; try dsimp only)

end Sys2Proof.Laws
end

