-- ==== Sys2Proof/Laws/Keeps/Lines.lean ====
section
/-! SUPPORT. Machine/Lines.lean keeps the queue, the canonical form and one actuation per valve. -/

namespace Sys2Proof.Laws

open Sys2Proof.Machine Sys2Proof.Safety

theorem keeps_takeThrottle {base : State} {s : State} {changed : Bool} (h0 : Keeps base s) :
    Keeps base (State.takeThrottle s changed) := by
  unfold State.takeThrottle
  try dsimp only
  repeat' first
    | with_reducible assumption | with_reducible apply keeps_ite | with_reducible apply keepsO_ite | with_reducible apply keepsO_some
    | with_reducible exact keepsO_none | (simp only [keeps_mk]; first | with_reducible apply Keeps.parts | refine Keeps.parts' ?_ rfl)
    | dsimp only | split

theorem keeps_takePeriod {base : State} {s : State} (h0 : Keeps base s) :
    Keeps base (State.takePeriod s) := by
  unfold State.takePeriod
  try dsimp only
  repeat' first
    | with_reducible assumption | with_reducible apply keeps_fslowUpdate | with_reducible apply keeps_put
    | with_reducible apply keeps_takeThrottle | with_reducible apply keeps_transfer | dsimp only

theorem keeps_shiftDevice {base : State} {s : State} {d : Int} (h0 : Keeps base s) :
    Keeps base (State.shiftDevice s d) := by
  unfold State.shiftDevice
  try dsimp only
  repeat' first
    | with_reducible assumption | with_reducible apply keeps_release
    | (simp only [keeps_mk]; first | with_reducible apply Keeps.parts | refine Keeps.partsActs ?_ (sub_map fun _ => rfl) | refine Keeps.partsActs ?_ sub_filter | refine Keeps.partsActs ?_ (sub_map fun _ => by split <;> first | rfl | (symm; assumption)) | refine Keeps.partsNew ?_ rfl | refine Keeps.parts' ?_ rfl)
    | dsimp only | (intro _; intros; try dsimp only)

theorem keeps_stepCheck {base : State} {s : State} (h0 : Keeps base s) :
    Keeps base (State.stepCheck s) := by
  unfold State.stepCheck
  try dsimp only
  repeat' first
    | with_reducible assumption | with_reducible apply keeps_discontinuity | with_reducible apply keeps_shiftDevice
    | with_reducible apply keeps_stepTime | with_reducible apply keeps_ite | dsimp only | split

theorem keeps_linkBoundary {base : State} {s : State} (h0 : Keeps base s) :
    Keeps base (State.linkBoundary s) := by
  unfold State.linkBoundary
  try dsimp only
  repeat' first
    | with_reducible assumption | with_reducible apply keeps_discontinuity | with_reducible apply keeps_moveLanes
    | with_reducible apply keeps_sealOpen | with_reducible apply keeps_ite
    | (simp only [keeps_mk]; first | with_reducible apply Keeps.parts | refine Keeps.parts' ?_ rfl) | dsimp only | split

theorem keeps_calBoundary {base : State} {s : State} (h0 : Keeps base s) :
    Keeps base (State.calBoundary s).1 := by
  unfold State.calBoundary
  try dsimp only
  repeat' first
    | with_reducible assumption | with_reducible apply keeps_applyGleaned | with_reducible apply keeps_applySwaps
    | with_reducible apply keeps_firstReadings | with_reducible apply keeps_references | with_reducible apply keeps_substrate
    | with_reducible apply keeps_swapDone | with_reducible apply keeps_swapProgress | with_reducible apply keeps_thermBoundary
    | with_reducible apply keeps_ite | with_reducible apply keeps_ite_fst | dsimp only | split

theorem keeps_setsBoundary {base : State} {s : State} (h0 : Keeps base s) :
    Keeps base (State.setsBoundary s) := by
  unfold State.setsBoundary
  try dsimp only
  repeat' first
    | with_reducible assumption | with_reducible apply keeps_put | with_reducible apply keeps_transfer | with_reducible apply keeps_ite
    | dsimp only | split

theorem keeps_admissionStart {base : State} {s : State} (h0 : Keeps base s) :
    Keeps base (State.admissionStart s) := by
  unfold State.admissionStart
  try dsimp only
  repeat' first
    | with_reducible assumption | with_reducible apply keeps_put | with_reducible apply keeps_ite
    | (simp only [keeps_mk]; first | with_reducible apply Keeps.parts | refine Keeps.parts' ?_ rfl) | dsimp only | split

theorem keeps_valvesEnable {base : State} {s : State} (h0 : Keeps base s) :
    Keeps base (State.valvesEnable s) := by
  unfold State.valvesEnable
  try dsimp only
  repeat' first
    | with_reducible assumption | with_reducible apply keeps_arm | with_reducible apply keeps_setEnabled | with_reducible apply keeps_ite
    | dsimp only | split

theorem keeps_syncBits {base : State} {s : State} (h0 : Keeps base s) :
    Keeps base (State.syncBits s) := by
  unfold State.syncBits
  try dsimp only
  repeat' first
    | with_reducible assumption | with_reducible apply keeps_put | with_reducible apply keeps_putFlag | dsimp only

theorem keeps_startLine {base : State} {s : State} (h0 : Keeps base s) :
    Keeps base (State.startLine s) := by
  unfold State.startLine
  try dsimp only
  repeat' first
    | with_reducible assumption | with_reducible apply keeps_admissionStart | with_reducible apply keeps_beginEnv
    | with_reducible apply keeps_calBoundary | with_reducible apply keeps_calLine | with_reducible apply keeps_hotUpdate
    | with_reducible apply keeps_keepFrames | with_reducible apply keeps_linkBoundary | with_reducible apply keeps_setsBoundary
    | with_reducible apply keeps_spareBoundary | with_reducible apply keeps_stepCheck | with_reducible apply keeps_syncBits
    | with_reducible apply keeps_takePeriod | with_reducible apply keeps_valvesEnable
    | (simp only [keeps_mk]; first | with_reducible apply Keeps.parts | refine Keeps.parts' ?_ rfl) | dsimp only

theorem keeps_nextBoundary {base : State} {s : State} (h0 : Keeps base s) :
    Keeps base (State.nextBoundary s) := by
  unfold State.nextBoundary
  try dsimp only
  repeat' first
    | with_reducible assumption | with_reducible apply keeps_startLine
    | (simp only [keeps_mk]; first | with_reducible apply Keeps.parts | refine Keeps.parts' ?_ rfl) | dsimp only

theorem keeps_lineZero {base : State} {s : State} (h0 : Keeps base s) :
    Keeps base (State.lineZero s) := by
  unfold State.lineZero
  try dsimp only
  repeat' first
    | with_reducible assumption | with_reducible apply keeps_put | with_reducible apply keeps_startLine
    | with_reducible apply keeps_startScript | (simp only [keeps_mk]; first | with_reducible apply Keeps.parts | refine Keeps.parts' ?_ rfl)
    | dsimp only

theorem keeps_takePulse {base : State} {s : State} {t : Nat} (h0 : Keeps base s) :
    Keeps base (State.takePulse s t) := by
  unfold State.takePulse
  try dsimp only
  repeat' first
    | with_reducible assumption | with_reducible apply keeps_elapseTo | with_reducible apply keeps_lineZero
    | with_reducible apply keeps_nextBoundary | with_reducible apply keeps_ite
    | (simp only [keeps_mk]; first | with_reducible apply Keeps.parts | refine Keeps.parts' ?_ rfl) | dsimp only | split

theorem keeps_execLineBoundary {base : State} {s : State} (h0 : Keeps base s) :
    KeepsX base (execLineBoundary s) := by
  unfold execLineBoundary
  try dsimp only
  repeat' first
    | with_reducible assumption | with_reducible apply keeps_elapseTo | with_reducible apply keeps_nextBoundary
    | with_reducible apply keeps_takePulse | with_reducible apply keeps_ite | with_reducible apply keepsX_next
    | with_reducible exact keepsX_fault | with_reducible apply keepsX_ite | with_reducible apply keepsO_ite
    | with_reducible apply keepsO_some | with_reducible exact keepsO_none
    | (simp only [keeps_mk]; first | with_reducible apply Keeps.parts | refine Keeps.parts' ?_ rfl) | dsimp only | split

theorem keeps_lsyncEdge {base : State} {s : State} (h0 : Keeps base s) :
    Keeps base (State.lsyncEdge s) := by
  unfold State.lsyncEdge
  try dsimp only
  repeat' first
    | with_reducible assumption | with_reducible apply keeps_bump | with_reducible apply keeps_overrun | with_reducible apply keeps_put
    | with_reducible apply keeps_syncBits | with_reducible apply keeps_takePulse | with_reducible apply keeps_ite
    | with_reducible apply keepsO_ite | with_reducible apply keepsO_some | with_reducible exact keepsO_none
    | (simp only [keeps_mk]; first | with_reducible apply Keeps.parts | refine Keeps.parts' ?_ rfl) | dsimp only | split

theorem keeps_execLsyncPulse {base : State} {w : Nat} {s : State} (h0 : Keeps base s) :
    KeepsX base (execLsyncPulse w s) := by
  unfold execLsyncPulse
  try dsimp only
  repeat' first
    | with_reducible assumption | with_reducible apply keeps_elapse | with_reducible apply keeps_lsyncEdge
    | with_reducible apply keepsX_next | with_reducible exact keepsX_fault | with_reducible apply keepsX_ite | dsimp only

theorem keeps_loseLsync {base : State} {s : State} {n : Nat} (h0 : Keeps base s) :
    Keeps base (State.loseLsync s n) := by
  unfold State.loseLsync
  try dsimp only
  repeat' first
    | with_reducible assumption | with_reducible apply keeps_bump | with_reducible apply keeps_emit | with_reducible apply keeps_put
    | dsimp only

theorem keeps_execLsyncLost {base : State} {s : State} (h0 : Keeps base s) :
    KeepsX base (execLsyncLost s) := by
  unfold execLsyncLost
  try dsimp only
  repeat' first
    | with_reducible assumption | with_reducible apply keeps_elapseTo | with_reducible apply keeps_loseLsync
    | with_reducible apply keeps_nextBoundary | with_reducible apply keeps_ite | with_reducible apply keepsX_next
    | with_reducible exact keepsX_fault | with_reducible apply keepsX_ite | dsimp only | split

theorem keeps_execLsyncStartTimeout {base : State} {s : State} (h0 : Keeps base s) :
    KeepsX base (execLsyncStartTimeout s) := by
  unfold execLsyncStartTimeout
  try dsimp only
  repeat' first
    | with_reducible assumption | with_reducible apply keeps_elapseTo | with_reducible apply keeps_lineZero
    | with_reducible apply keeps_loseLsync | with_reducible apply keeps_ite | with_reducible apply keepsX_next
    | with_reducible exact keepsX_fault | with_reducible apply keepsX_ite | dsimp only | split

theorem keeps_clearTbs {base : State} {s : State} (h0 : Keeps base s) :
    Keeps base (State.clearTbs s) := by
  unfold State.clearTbs
  try dsimp only
  repeat' first
    | with_reducible assumption | with_reducible apply keeps_setWord | dsimp only

theorem keeps_execTbsClrCounters {base : State} {s : State} (h0 : Keeps base s) :
    KeepsX base (execTbsClrCounters s) := by
  unfold execTbsClrCounters
  try dsimp only
  repeat' first
    | with_reducible assumption | with_reducible apply keeps_clearTbs | with_reducible apply keeps_host | with_reducible apply keepsX_next
    | with_reducible exact keepsX_fault | with_reducible apply keepsX_ite | with_reducible apply keepsO_ite
    | with_reducible apply keepsO_some | with_reducible exact keepsO_none | dsimp only

theorem keeps_clearOnes {base : State} {s : State} {a : Nat} {mask : Nat} (h0 : Keeps base s) :
    Keeps base (State.clearOnes s a mask) := by
  unfold State.clearOnes
  try dsimp only
  repeat' first
    | with_reducible assumption | with_reducible apply keeps_setWord | dsimp only

theorem keeps_execTbsFlagsClear {base : State} {mask : Nat} {s : State} (h0 : Keeps base s) :
    KeepsX base (execTbsFlagsClear mask s) := by
  unfold execTbsFlagsClear
  try dsimp only
  repeat' first
    | with_reducible assumption | with_reducible apply keeps_clearOnes | with_reducible apply keeps_host | with_reducible apply keepsX_next
    | with_reducible exact keepsX_fault | with_reducible apply keepsX_ite | with_reducible apply keepsO_ite
    | with_reducible apply keepsO_some | with_reducible exact keepsO_none | dsimp only

end Sys2Proof.Laws
end

