-- ==== Sys2Proof/Laws/Keeps/Commit.lean ====
section
/-! SUPPORT. Machine/Commit.lean keeps the queue, the canonical form and one actuation per valve. -/

namespace Sys2Proof.Laws

open Sys2Proof.Machine Sys2Proof.Safety

theorem keeps_loadReg {base : State} {s : State} {p : Nat × Nat} (h0 : Keeps base s) :
    Keeps base (State.loadReg s p) := by
  unfold State.loadReg
  try dsimp only
  repeat' first
    | with_reducible assumption | with_reducible apply keeps_setWord | with_reducible apply keeps_ite | dsimp only | split
    | (intro _; intros; try dsimp only)

theorem keeps_loadPixels {o : State} {s : State} {n a : Nat} {b : List Byte} (h0 : Keeps o s) : Keeps o (State.loadPixels s n a b) := by
  induction n generalizing s a b with
  | zero => exact h0
  | succ n ih => exact ih (keeps_putBytes h0)

theorem keeps_loadMap {base : State} {s : State} {first : Nat} {es : List Nat} (h0 : Keeps base s) :
    Keeps base (State.loadMap s first es) := by
  unfold State.loadMap
  try dsimp only
  repeat' first
    | with_reducible assumption | (simp only [keeps_mk]; first | with_reducible apply Keeps.parts | refine Keeps.parts' ?_ rfl)
    | with_reducible apply keeps_foldl | with_reducible apply keeps_foldl_fst | dsimp only | (intro _; intros; try dsimp only)

theorem keeps_loadRecord {base : State} {s : State} {r : ImageRecord} (h0 : Keeps base s) :
    Keeps base (State.loadRecord s r) := by
  unfold State.loadRecord
  try dsimp only
  repeat' first
    | with_reducible assumption | with_reducible apply keeps_loadMap | with_reducible apply keeps_loadPixels
    | with_reducible apply keeps_putBytes | with_reducible apply keeps_ite
    | (simp only [keeps_mk]; first | with_reducible apply Keeps.parts | refine Keeps.parts' ?_ rfl) | dsimp only | split

theorem keeps_copyImage {base : State} {s : State} (h0 : Keeps base s) :
    Keeps base (State.copyImage s) := by
  unfold State.copyImage
  try dsimp only
  repeat' first
    | with_reducible assumption | with_reducible apply keeps_putBytes | dsimp only

theorem keeps_loadImage {base : State} {s : State} (h0 : Keeps base s) :
    Keeps base (State.loadImage s) := by
  unfold State.loadImage
  try dsimp only
  repeat' first
    | with_reducible assumption | with_reducible apply keeps_copyImage | with_reducible apply keeps_loadRecord
    | with_reducible apply keeps_loadReg | with_reducible apply keeps_foldl | with_reducible apply keeps_foldl_fst | dsimp only
    | (intro _; intros; try dsimp only)

theorem keeps_takeUp {base : State} {s : State} (h0 : Keeps base s) :
    Keeps base (State.takeUp s) := by
  unfold State.takeUp
  try dsimp only
  repeat' first
    | with_reducible assumption | with_reducible apply keeps_arm | with_reducible apply keeps_layoutUpdate
    | with_reducible apply keeps_linkUpdate | with_reducible apply keeps_put | with_reducible apply keeps_takePeriod
    | with_reducible apply keeps_watchPort | with_reducible apply keeps_ite
    | (simp only [keeps_mk]; first | with_reducible apply Keeps.parts | refine Keeps.parts' ?_ rfl) | dsimp only | split

theorem keeps_armTimers {base : State} {s : State} (h0 : Keeps base s) :
    Keeps base (State.armTimers s) := by
  unfold State.armTimers
  try dsimp only
  repeat' first
    | with_reducible assumption | with_reducible apply keeps_arm | with_reducible apply keeps_foldl | with_reducible apply keeps_foldl_fst
    | dsimp only | (intro _; intros; try dsimp only)

theorem keeps_commit {base : State} {s : State} (h0 : Keeps base s) :
    Keeps base (State.commit s) := by
  unfold State.commit
  try dsimp only
  repeat' first
    | with_reducible assumption | with_reducible apply keeps_armTimers | with_reducible apply keeps_elapseTo
    | with_reducible apply keeps_hkcCommit | with_reducible apply keeps_lineZero | with_reducible apply keeps_loadImage
    | with_reducible apply keeps_put | with_reducible apply keeps_setDomains | with_reducible apply keeps_setWord
    | with_reducible apply keeps_syncBits | with_reducible apply keeps_takeUp | with_reducible apply keeps_ite | dsimp only | split

theorem keeps_execCommit {base : State} {s : State} (h0 : Keeps base s) :
    KeepsX base (execCommit s) := by
  unfold execCommit
  try dsimp only
  repeat' first
    | with_reducible assumption | with_reducible apply keeps_commit | with_reducible apply keeps_ite | with_reducible apply keepsX_next
    | with_reducible exact keepsX_fault | with_reducible apply keepsX_ite | dsimp only | split

end Sys2Proof.Laws
end

