-- ==== Sys2Proof/Laws/Keeps/Reload.lean ====
section
/-! SUPPORT. Machine/Reload.lean keeps the queue, the canonical form and one actuation per valve. -/

namespace Sys2Proof.Laws

open Sys2Proof.Machine Sys2Proof.Safety

theorem keeps_gapOwner {base : State} {s : State} (h0 : Keeps base s) :
    Keeps base (State.gapOwner s) := by
  unfold State.gapOwner
  try dsimp only
  repeat' first
    | with_reducible assumption | with_reducible apply keeps_assertGap | with_reducible apply keeps_releaseGap
    | with_reducible apply keeps_ite | dsimp only | split

theorem keeps_hostOwner {base : State} {s : State} {a : Nat} {value : Nat} (h0 : Keeps base s) :
    KeepsO base (State.hostOwner s a value) := by
  unfold State.hostOwner
  try dsimp only
  repeat' first
    | with_reducible assumption | with_reducible apply keeps_allow | with_reducible apply keeps_gapOwner
    | with_reducible apply keeps_setWord | with_reducible apply keepsO_ite | with_reducible apply keepsO_some
    | with_reducible exact keepsO_none | (simp only [keeps_mk]; first | with_reducible apply Keeps.parts | refine Keeps.parts' ?_ rfl)
    | (refine KeepsO.use (by assumption) ?_) | dsimp only | split | (intro _; intros; try dsimp only)

theorem keeps_execCfgOwnershipWrite {base : State} {addr : Nat} {value : Nat} {s : State} (h0 : Keeps base s) :
    KeepsX base (execCfgOwnershipWrite addr value s) := by
  unfold execCfgOwnershipWrite
  try dsimp only
  repeat' first
    | with_reducible assumption | with_reducible apply keeps_host | with_reducible apply keeps_hostOwner | with_reducible apply keeps_ite
    | with_reducible apply keepsX_next | with_reducible exact keepsX_fault | with_reducible apply keepsX_ite | dsimp only | split
    | (intro _; intros; try dsimp only)

theorem keeps_startReload {base : State} {s : State} {slot : Nat} (h0 : Keeps base s) :
    Keeps base (State.startReload s slot) := by
  unfold State.startReload
  try dsimp only
  repeat' first
    | with_reducible assumption | (simp only [keeps_mk]; first | with_reducible apply Keeps.parts | refine Keeps.parts' ?_ rfl) | dsimp only

theorem keeps_hostReload {base : State} {s : State} {w : Nat} (h0 : Keeps base s) :
    Keeps base (State.hostReload s w) := by
  unfold State.hostReload
  try dsimp only
  repeat' first
    | with_reducible assumption | with_reducible apply keeps_startReload | with_reducible apply keeps_ite | with_reducible apply keepsO_ite
    | with_reducible apply keepsO_some | with_reducible exact keepsO_none
    | (simp only [keeps_mk]; first | with_reducible apply Keeps.parts | refine Keeps.parts' ?_ rfl) | dsimp only | split

theorem keeps_execCfgReload {base : State} {slot : Nat} {s : State} (h0 : Keeps base s) :
    KeepsX base (execCfgReload slot s) := by
  unfold execCfgReload
  try dsimp only
  repeat' first
    | with_reducible assumption | with_reducible apply keeps_host | with_reducible apply keeps_hostReload | with_reducible apply keepsX_next
    | with_reducible exact keepsX_fault | with_reducible apply keepsX_ite | with_reducible apply keepsO_ite
    | with_reducible apply keepsO_some | with_reducible exact keepsO_none | dsimp only

theorem keeps_reloadRestart {base : State} {s : State} {flags : Nat} (h0 : Keeps base s) :
    Keeps base (State.reloadRestart s flags) := by
  unfold State.reloadRestart
  try dsimp only
  repeat' first
    | with_reducible assumption | with_reducible apply keeps_finishStores | with_reducible apply keeps_restarted
    | with_reducible apply keepsO_ite | with_reducible apply keepsO_some | with_reducible exact keepsO_none
    | (simp only [keeps_mk]; first | with_reducible apply Keeps.parts | with_reducible apply Keeps.partsPages | with_reducible apply Keeps.partsShadow | with_reducible apply Keeps.partsBoth | refine Keeps.parts' ?_ rfl)
    | dsimp only

theorem keeps_execReloadDrained {base : State} {s : State} (h0 : Keeps base s) :
    KeepsX base (execReloadDrained s) := by
  unfold execReloadDrained
  try dsimp only
  repeat' first
    | with_reducible assumption | with_reducible apply keeps_reloadRestart | with_reducible apply keeps_ite
    | with_reducible apply keepsX_next | with_reducible exact keepsX_fault | with_reducible apply keepsX_ite | dsimp only | split

theorem keeps_execReloadTimeout {base : State} {s : State} (h0 : Keeps base s) :
    KeepsX base (execReloadTimeout s) := by
  unfold execReloadTimeout
  try dsimp only
  repeat' first
    | with_reducible assumption | with_reducible apply keeps_elapseTo | with_reducible apply keeps_reloadRestart
    | with_reducible apply keeps_ite | with_reducible apply keepsX_next | with_reducible exact keepsX_fault
    | with_reducible apply keepsX_ite | dsimp only | split

end Sys2Proof.Laws
end

