-- ==== Sys2Proof/Laws/Keeps/Flash.lean ====
section
/-! SUPPORT. Machine/Flash.lean keeps the queue, the canonical form and one actuation per valve. -/

namespace Sys2Proof.Laws

open Sys2Proof.Machine Sys2Proof.Safety

theorem keeps_shiftFlash {base : State} {s : State} {f : FlashRun} (h0 : Keeps base s) :
    Keeps base (State.shiftFlash s f) := by
  unfold State.shiftFlash
  try dsimp only
  repeat' first
    | with_reducible assumption | with_reducible apply keepsO_ite | with_reducible apply keepsO_some | with_reducible exact keepsO_none
    | (simp only [keeps_mk]; first | with_reducible apply Keeps.parts | refine Keeps.parts' ?_ rfl) | dsimp only

theorem keeps_startFlash {base : State} {s : State} {op : Nat} {addr : Nat} {len : Nat} (h0 : Keeps base s) :
    Keeps base (State.startFlash s op addr len) := by
  unfold State.startFlash
  try dsimp only
  repeat' first
    | with_reducible assumption | with_reducible apply keeps_arm | with_reducible apply keeps_put | with_reducible apply keeps_shiftFlash
    | with_reducible apply keeps_ite | dsimp only | split

theorem keeps_hostFlash {base : State} {s : State} {w : Nat} (h0 : Keeps base s) :
    KeepsO base (State.hostFlash s w) := by
  unfold State.hostFlash
  try dsimp only
  repeat' first
    | with_reducible assumption | with_reducible apply keeps_startFlash | with_reducible apply keeps_ite | with_reducible apply keepsO_ite
    | with_reducible apply keepsO_some | with_reducible exact keepsO_none | dsimp only | split

theorem keeps_execFlashRead {base : State} {lenM1 : Nat} {s : State} (h0 : Keeps base s) :
    KeepsX base (execFlashRead lenM1 s) := by
  unfold execFlashRead
  try dsimp only
  repeat' first
    | with_reducible assumption | with_reducible apply keeps_host | with_reducible apply keeps_hostFlash | with_reducible apply keepsX_next
    | with_reducible exact keepsX_fault | with_reducible apply keepsX_ite | dsimp only | (intro _; intros; try dsimp only)

theorem keeps_execFlashProgram {base : State} {lenM1 : Nat} {s : State} (h0 : Keeps base s) :
    KeepsX base (execFlashProgram lenM1 s) := by
  unfold execFlashProgram
  try dsimp only
  repeat' first
    | with_reducible assumption | with_reducible apply keeps_host | with_reducible apply keeps_hostFlash | with_reducible apply keepsX_next
    | with_reducible exact keepsX_fault | with_reducible apply keepsX_ite | dsimp only | (intro _; intros; try dsimp only)

theorem keeps_execFlashErase4k {base : State} {s : State} (h0 : Keeps base s) :
    KeepsX base (execFlashErase4k s) := by
  unfold execFlashErase4k
  try dsimp only
  repeat' first
    | with_reducible assumption | with_reducible apply keeps_host | with_reducible apply keeps_hostFlash | with_reducible apply keepsX_next
    | with_reducible exact keepsX_fault | with_reducible apply keepsX_ite | dsimp only | (intro _; intros; try dsimp only)

theorem keeps_execFlashErase64k {base : State} {s : State} (h0 : Keeps base s) :
    KeepsX base (execFlashErase64k s) := by
  unfold execFlashErase64k
  try dsimp only
  repeat' first
    | with_reducible assumption | with_reducible apply keeps_host | with_reducible apply keeps_hostFlash | with_reducible apply keepsX_next
    | with_reducible exact keepsX_fault | with_reducible apply keepsX_ite | dsimp only | (intro _; intros; try dsimp only)

theorem keeps_execFlashReadStatus {base : State} {s : State} (h0 : Keeps base s) :
    KeepsX base (execFlashReadStatus s) := by
  unfold execFlashReadStatus
  try dsimp only
  repeat' first
    | with_reducible assumption | with_reducible apply keeps_host | with_reducible apply keeps_hostFlash | with_reducible apply keepsX_next
    | with_reducible exact keepsX_fault | with_reducible apply keepsX_ite | dsimp only | (intro _; intros; try dsimp only)

theorem keeps_execFlashStatusPoll {base : State} {sr : Nat} {s : State} (h0 : Keeps base s) :
    KeepsX base (execFlashStatusPoll sr s) := by
  unfold execFlashStatusPoll
  try dsimp only
  repeat' first
    | with_reducible assumption | with_reducible apply keeps_arm | with_reducible apply keeps_fire | with_reducible apply keeps_put
    | with_reducible apply keeps_shiftFlash | with_reducible apply keeps_ite | with_reducible apply keepsX_next
    | with_reducible exact keepsX_fault | with_reducible apply keepsX_ite | with_reducible apply keepsO_ite
    | with_reducible apply keepsO_some | with_reducible exact keepsO_none
    | (simp only [keeps_mk]; first | with_reducible apply Keeps.parts | refine Keeps.parts' ?_ rfl) | (refine KeepsO.use (by assumption) ?_)
    | dsimp only | split | (intro _; intros; try dsimp only)

theorem keeps_endFlash {base : State} {s : State} {err : Nat} (h0 : Keeps base s) :
    Keeps base (State.endFlash s err) := by
  unfold State.endFlash
  try dsimp only
  repeat' first
    | with_reducible assumption | with_reducible apply keeps_disarm | with_reducible apply keeps_put
    | with_reducible apply keeps_startReload | with_reducible apply keepsO_ite | with_reducible apply keepsO_some
    | with_reducible exact keepsO_none | (simp only [keeps_mk]; first | with_reducible apply Keeps.parts | refine Keeps.parts' ?_ rfl)
    | dsimp only | split

theorem keeps_fillBuffer {o : State} {s : State} {i : Nat} {bs : List Byte} (h0 : Keeps o s) : Keeps o (State.fillBuffer s i bs) := by
  induction bs generalizing s i with
  | nil => exact h0
  | cons b bs ih => exact ih (keeps_put h0)

theorem keeps_flashResult {base : State} {s : State} {f : FlashRun} {r : FlashResult} (h0 : Keeps base s) :
    Keeps base (State.flashResult s f r) := by
  unfold State.flashResult
  try dsimp only
  repeat' first
    | with_reducible assumption | with_reducible apply keeps_endFlash | with_reducible apply keeps_fillBuffer
    | with_reducible apply keeps_put | with_reducible apply keeps_ite
    | (simp only [keeps_mk]; first | with_reducible apply Keeps.parts | refine Keeps.parts' ?_ rfl) | dsimp only | split

theorem keeps_execFlashOpDone {base : State} {r : FlashResult} {s : State} (h0 : Keeps base s) :
    KeepsX base (execFlashOpDone r s) := by
  unfold execFlashOpDone
  try dsimp only
  repeat' first
    | with_reducible assumption | with_reducible apply keeps_flashResult | with_reducible apply keeps_ite | with_reducible apply keepsX_next
    | with_reducible exact keepsX_fault | with_reducible apply keepsX_ite | with_reducible apply keepsO_ite
    | with_reducible apply keepsO_some | with_reducible exact keepsO_none
    | (simp only [keeps_mk]; first | with_reducible apply Keeps.parts | refine Keeps.parts' ?_ rfl) | dsimp only | split

theorem keeps_execFlashOpTimeout {base : State} {s : State} (h0 : Keeps base s) :
    KeepsX base (execFlashOpTimeout s) := by
  unfold execFlashOpTimeout
  try dsimp only
  repeat' first
    | with_reducible assumption | with_reducible apply keeps_endFlash | with_reducible apply keeps_fire | with_reducible apply keepsX_next
    | with_reducible exact keepsX_fault | with_reducible apply keepsX_ite | with_reducible apply keepsO_ite
    | with_reducible apply keepsO_some | with_reducible exact keepsO_none
    | (simp only [keeps_mk]; first | with_reducible apply Keeps.parts | refine Keeps.parts' ?_ rfl) | (refine KeepsO.use (by assumption) ?_)
    | dsimp only | split | (intro _; intros; try dsimp only)

theorem keeps_selFall {base : State} {s : State} (h0 : Keeps base s) :
    Keeps base (State.selFall s) := by
  unfold State.selFall
  try dsimp only
  repeat' first
    | with_reducible assumption | with_reducible apply keeps_bump | with_reducible apply keeps_draw | with_reducible apply keeps_put
    | with_reducible apply keeps_ite | with_reducible apply keepsE_ite | with_reducible apply keepsE_go | exact keepsE_stop
    | exact keepsE_verd | (simp only [keeps_mk]; first | with_reducible apply Keeps.parts | refine Keeps.parts' ?_ rfl) | dsimp only | split
    | (intro _; intros; try dsimp only)

theorem keeps_execMasterCollision {base : State} {s : State} (h0 : Keeps base s) :
    KeepsX base (execMasterCollision s) := by
  unfold execMasterCollision
  try dsimp only
  repeat' first
    | with_reducible assumption | with_reducible apply keeps_selFall | with_reducible apply keepsX_next | with_reducible exact keepsX_fault
    | with_reducible apply keepsX_ite | dsimp only

theorem keeps_resumeFlash {base : State} {s : State} (h0 : Keeps base s) :
    Keeps base (State.resumeFlash s) := by
  unfold State.resumeFlash
  try dsimp only
  repeat' first
    | with_reducible assumption | with_reducible apply keeps_shiftFlash | with_reducible apply keepsO_ite | with_reducible apply keepsO_some
    | with_reducible exact keepsO_none | (simp only [keeps_mk]; first | with_reducible apply Keeps.parts | refine Keeps.parts' ?_ rfl)
    | dsimp only | split

theorem keeps_execFlashTransferResume {base : State} {s : State} (h0 : Keeps base s) :
    KeepsX base (execFlashTransferResume s) := by
  unfold execFlashTransferResume
  try dsimp only
  repeat' first
    | with_reducible assumption | with_reducible apply keeps_elapse | with_reducible apply keeps_resumeFlash
    | with_reducible apply keeps_ite | with_reducible apply keepsX_next | with_reducible exact keepsX_fault
    | with_reducible apply keepsX_ite | dsimp only | split

end Sys2Proof.Laws
end

