-- ==== Sys2Proof/Laws/Keeps/Nvme.lean ====
section
/-! SUPPORT. Machine/Nvme.lean keeps the queue, the canonical form and one actuation per valve. -/

namespace Sys2Proof.Laws

open Sys2Proof.Machine Sys2Proof.Safety

theorem keeps_identified {base : State} {s : State} {present : Bool} {lba : Nat} {metadata : Nat} {nvm : Bool} {blocks : Nat} (h0 : Keeps base s) :
    Keeps base (State.identified s present lba metadata nvm blocks) := by
  unfold State.identified
  try dsimp only
  repeat' first
    | with_reducible assumption | with_reducible apply keeps_archiveUpdate | with_reducible apply keeps_dropWrites
    | with_reducible apply keeps_freeSlots | with_reducible apply keeps_layoutUpdate | with_reducible apply keeps_put
    | with_reducible apply keeps_putFlag | with_reducible apply keeps_sendAll | with_reducible apply keeps_setPair
    | with_reducible apply keeps_ite | (simp only [keeps_mk]; first | with_reducible apply Keeps.parts | refine Keeps.parts' ?_ rfl)
    | dsimp only | split

theorem keeps_granted {base : State} {s : State} {n : Nat} (h0 : Keeps base s) :
    Keeps base (State.granted s n) := by
  unfold State.granted
  try dsimp only
  repeat' first
    | with_reducible assumption | with_reducible apply keeps_put | with_reducible apply keeps_sendAll | dsimp only

theorem keeps_commandDone {base : State} {s : State} (h0 : Keeps base s) :
    Keeps base (State.commandDone s) := by
  unfold State.commandDone
  try dsimp only
  repeat' first
    | with_reducible assumption | with_reducible apply keeps_sendAll | with_reducible apply keeps_ite
    | (simp only [keeps_mk]; first | with_reducible apply Keeps.parts | refine Keeps.parts' ?_ rfl) | dsimp only | split

theorem keeps_searchDone {base : State} {s : State} {tpos : Nat} {lpos : Nat} {spos : Nat} {epos : Nat} {block : List Byte} (h0 : Keeps base s) :
    Keeps base (State.searchDone s tpos lpos spos epos block) := by
  unfold State.searchDone
  try dsimp only
  repeat' first
    | with_reducible assumption | with_reducible apply keeps_driveReady
    | (simp only [keeps_mk]; first | with_reducible apply Keeps.parts | refine Keeps.parts' ?_ rfl) | dsimp only

theorem keeps_written {base : State} {s : State} {ch : Nat} (h0 : Keeps base s) :
    Keeps base (State.written s ch) := by
  unfold State.written
  try dsimp only
  repeat' first
    | with_reducible assumption | with_reducible apply keeps_disarm | with_reducible apply keeps_issue
    | with_reducible apply keeps_writeDone | with_reducible apply keeps_writeEvents | with_reducible apply keeps_ite
    | with_reducible apply keepsO_ite | with_reducible apply keepsO_some | with_reducible exact keepsO_none
    | (simp only [keeps_mk]; first | with_reducible apply Keeps.parts | refine Keeps.parts' ?_ rfl) | dsimp only | split

theorem keeps_execNvmeCommandComplete {base : State} {a : NvmeAnswer} {s : State} (h0 : Keeps base s) :
    KeepsX base (execNvmeCommandComplete a s) := by
  unfold execNvmeCommandComplete
  try dsimp only
  repeat' first
    | with_reducible assumption | with_reducible apply keeps_commandDone | with_reducible apply keeps_done
    | with_reducible apply keeps_granted | with_reducible apply keeps_identified | with_reducible apply keeps_identify
    | with_reducible apply keeps_labelCheck | with_reducible apply keeps_searchDone | with_reducible apply keeps_written
    | with_reducible apply keeps_ite | with_reducible apply keepsX_next | with_reducible exact keepsX_fault
    | with_reducible apply keepsX_ite | with_reducible apply keepsO_ite | with_reducible apply keepsO_some
    | with_reducible exact keepsO_none | (simp only [keeps_mk]; first | with_reducible apply Keeps.parts | refine Keeps.parts' ?_ rfl)
    | (refine Keeps.ofPair (by assumption) ?_) | dsimp only | split

end Sys2Proof.Laws
end

