-- ==== Sys2Proof/Laws/Keeps/Dma.lean ====
section
/-! SUPPORT. Machine/Dma.lean keeps the queue, the canonical form and one actuation per valve. -/

namespace Sys2Proof.Laws

open Sys2Proof.Machine Sys2Proof.Safety

theorem keeps_hostDmaStart {base : State} {s : State} {n : Nat} (h0 : Keeps base s) :
    KeepsO base (State.hostDmaStart s n) := by
  unfold State.hostDmaStart
  try dsimp only
  repeat' first
    | with_reducible assumption | with_reducible apply keeps_allow | with_reducible apply keeps_startMaint
    | with_reducible apply keeps_transfer | with_reducible apply keepsO_ite | with_reducible apply keepsO_some
    | with_reducible exact keepsO_none | dsimp only | (intro _; intros; try dsimp only)

theorem keeps_pauseChannel {base : State} {s : State} {n : Nat} (h0 : Keeps base s) :
    Keeps base (State.pauseChannel s n) := by
  unfold State.pauseChannel
  try dsimp only
  repeat' first
    | with_reducible assumption | with_reducible apply keeps_dmaBits | with_reducible apply keeps_issue
    | with_reducible apply keeps_maintWait | with_reducible apply keeps_put | with_reducible apply keeps_ite | dsimp only | split

theorem keeps_resumeChannel {base : State} {s : State} {n : Nat} (h0 : Keeps base s) :
    Keeps base (State.resumeChannel s n) := by
  unfold State.resumeChannel
  try dsimp only
  repeat' first
    | with_reducible assumption | with_reducible apply keeps_dmaBits | with_reducible apply keeps_issue
    | with_reducible apply keeps_maintWait | with_reducible apply keeps_outageOver | with_reducible apply keeps_put
    | with_reducible apply keeps_ite | dsimp only | split

theorem keeps_endTransfer {base : State} {s : State} {n : Nat} (h0 : Keeps base s) :
    Keeps base (State.endTransfer s n) := by
  unfold State.endTransfer
  try dsimp only
  repeat' first
    | with_reducible assumption | with_reducible apply keeps_dmaBits | with_reducible apply keeps_maintWait
    | with_reducible apply keeps_nextMaint | with_reducible apply keeps_put | dsimp only

theorem keeps_abortChannel {base : State} {s : State} {n : Nat} (h0 : Keeps base s) :
    Keeps base (State.abortChannel s n) := by
  unfold State.abortChannel
  try dsimp only
  repeat' first
    | with_reducible assumption | with_reducible apply keeps_endTransfer | with_reducible apply keeps_put | with_reducible apply keeps_ite
    | (simp only [keeps_mk]; first | with_reducible apply Keeps.parts | refine Keeps.parts' ?_ rfl) | dsimp only | split
    | (intro _; intros; try dsimp only)

theorem keeps_hostDmaCtrl {base : State} {s : State} {n : Nat} {w : Nat} (h0 : Keeps base s) :
    Keeps base (State.hostDmaCtrl s n w).1 := by
  unfold State.hostDmaCtrl
  try dsimp only
  repeat' first
    | with_reducible assumption | with_reducible apply keeps_abortChannel | with_reducible apply keeps_hostDmaStart
    | with_reducible apply keeps_pauseChannel | with_reducible apply keeps_resumeChannel | with_reducible apply keeps_thenAct
    | with_reducible apply keeps_ite_fst | with_reducible apply keepsO_ite | with_reducible apply keepsO_some
    | with_reducible exact keepsO_none | dsimp only | (intro _; intros; try dsimp only)

theorem keeps_execDmaStart {base : State} {n : Nat} {s : State} (h0 : Keeps base s) :
    KeepsX base (execDmaStart n s) := by
  unfold execDmaStart
  try dsimp only
  repeat' first
    | with_reducible assumption | with_reducible apply keeps_hostDmaCtrl | with_reducible apply keeps_hostDone
    | with_reducible apply keeps_ite | with_reducible apply keepsX_next | with_reducible exact keepsX_fault
    | with_reducible apply keepsX_ite | dsimp only | split

theorem keeps_execChannelResume {base : State} {n : Nat} {s : State} (h0 : Keeps base s) :
    KeepsX base (execChannelResume n s) := by
  unfold execChannelResume
  try dsimp only
  repeat' first
    | with_reducible assumption | with_reducible apply keeps_hostDmaCtrl | with_reducible apply keeps_hostDone
    | with_reducible apply keeps_ite | with_reducible apply keepsX_next | with_reducible exact keepsX_fault
    | with_reducible apply keepsX_ite | dsimp only | split

theorem keeps_execDataChannelHandover {base : State} {n : Nat} {s : State} (h0 : Keeps base s) :
    KeepsX base (execDataChannelHandover n s) := by
  unfold execDataChannelHandover
  try dsimp only
  repeat' first
    | with_reducible assumption | with_reducible apply keeps_elapseDev | with_reducible apply keeps_transfer
    | with_reducible apply keeps_ite | with_reducible apply keepsX_next | with_reducible exact keepsX_fault
    | with_reducible apply keepsX_ite | dsimp only | split

theorem keeps_haltChannel {base : State} {s : State} {n : Nat} {code : Nat} {source : Nat} (h0 : Keeps base s) :
    Keeps base (State.haltChannel s n code source) := by
  unfold State.haltChannel
  try dsimp only
  repeat' first
    | with_reducible assumption | with_reducible apply keeps_dmaBits | with_reducible apply keeps_dropWrites
    | with_reducible apply keeps_emit | with_reducible apply keeps_freeSlots | with_reducible apply keeps_issue
    | with_reducible apply keeps_maintWait | with_reducible apply keeps_put | with_reducible apply keeps_setWord
    | with_reducible apply keeps_ite | dsimp only | split

theorem keeps_oneBusError {base : State} {s : State} {n : Nat} {code : Nat} {source : Nat} (h0 : Keeps base s) :
    Keeps base (State.oneBusError s n code source) := by
  unfold State.oneBusError
  try dsimp only
  repeat' first
    | with_reducible assumption | with_reducible apply keeps_bump | with_reducible apply keeps_haltChannel | with_reducible apply keeps_ite
    | dsimp only | split

theorem keeps_lastingError {base : State} {s : State} {n : Nat} {code : Nat} {source : Nat} (h0 : Keeps base s) :
    Keeps base (State.lastingError s n code source) := by
  unfold State.lastingError
  try dsimp only
  repeat' first
    | with_reducible assumption | with_reducible apply keeps_haltChannel | with_reducible apply keeps_put | dsimp only

theorem keeps_execDmaIrqClear {base : State} {mask : Nat} {s : State} (h0 : Keeps base s) :
    KeepsX base (execDmaIrqClear mask s) := by
  unfold execDmaIrqClear
  try dsimp only
  repeat' first
    | with_reducible assumption | with_reducible apply keeps_clearOnes | with_reducible apply keeps_host | with_reducible apply keepsX_next
    | with_reducible exact keepsX_fault | with_reducible apply keepsX_ite | with_reducible apply keepsO_ite
    | with_reducible apply keepsO_some | with_reducible exact keepsO_none | dsimp only

theorem keeps_completeMaint {base : State} {s : State} {n : Nat} (h0 : Keeps base s) :
    Keeps base (State.completeMaint s n) := by
  unfold State.completeMaint
  try dsimp only
  repeat' first
    | with_reducible assumption | with_reducible apply keeps_channelDone | with_reducible apply keeps_endTransfer | dsimp only

theorem keeps_writeSnapshot {base : State} {s : State} {n : Nat} {type : Nat} (h0 : Keeps base s) :
    Keeps base (State.writeSnapshot s n type) := by
  unfold State.writeSnapshot
  try dsimp only
  repeat' first
    | with_reducible assumption | with_reducible apply keeps_bump | with_reducible apply keeps_completeMaint
    | with_reducible apply keeps_draw | with_reducible apply keeps_keepUncorr | with_reducible apply keeps_put
    | with_reducible apply keeps_ite | (simp only [keeps_mk]; first | with_reducible apply Keeps.parts | refine Keeps.parts' ?_ rfl)
    | with_reducible apply keeps_foldl | with_reducible apply keeps_foldl_fst | dsimp only | split | (intro _; intros; try dsimp only)

theorem keeps_archiveReset {base : State} {s : State} (h0 : Keeps base s) :
    Keeps base (State.archiveReset s) := by
  unfold State.archiveReset
  try dsimp only
  repeat' first
    | with_reducible assumption | with_reducible apply keeps_abortChannel | with_reducible apply keeps_dmaBits
    | with_reducible apply keeps_issue | with_reducible apply keeps_outageOver | with_reducible apply keeps_put
    | with_reducible apply keeps_ite | with_reducible apply keeps_foldl | with_reducible apply keeps_foldl_fst | dsimp only | split
    | (intro _; intros; try dsimp only)

end Sys2Proof.Laws
end

