-- ==== Sys2Proof/Laws/Keeps/Resets.lean ====
section
/-! SUPPORT. Machine/Resets.lean keeps the queue, the canonical form and one actuation per valve. -/

namespace Sys2Proof.Laws

open Sys2Proof.Machine Sys2Proof.Safety

theorem keeps_markReplayed {base : State} {s : State} {f : Nat} (h0 : Keeps base s) :
    Keeps base (State.markReplayed s f) := by
  unfold State.markReplayed
  try dsimp only
  repeat' first
    | with_reducible assumption | with_reducible apply keeps_onSheaf
    | (simp only [keeps_mk]; first | with_reducible apply Keeps.parts | refine Keeps.parts' ?_ rfl) | with_reducible apply keeps_foldl
    | with_reducible apply keeps_foldl_fst | dsimp only | (intro _; intros; try dsimp only)

theorem keeps_readoutReset {base : State} {s : State} (h0 : Keeps base s) :
    Keeps base (State.readoutReset s) := by
  unfold State.readoutReset
  try dsimp only
  repeat' first
    | with_reducible assumption | with_reducible apply keeps_linkUpdate
    | (simp only [keeps_mk]; first | with_reducible apply Keeps.parts | refine Keeps.parts' ?_ rfl) | dsimp only
    | (intro _; intros; try dsimp only)

theorem keeps_retrainDone {base : State} {s : State} (h0 : Keeps base s) :
    Keeps base (State.retrainDone s) := by
  unfold State.retrainDone
  try dsimp only
  repeat' first
    | with_reducible assumption | with_reducible apply keeps_degrade | with_reducible apply keeps_put | with_reducible apply keeps_setLane
    | with_reducible apply keeps_ite | (simp only [keeps_mk]; first | with_reducible apply Keeps.parts | refine Keeps.parts' ?_ rfl)
    | with_reducible apply keeps_foldl | with_reducible apply keeps_foldl_fst | dsimp only | split | (intro _; intros; try dsimp only)

theorem keeps_readoutDone {base : State} {s : State} (h0 : Keeps base s) :
    Keeps base (State.readoutDone s) := by
  unfold State.readoutDone
  try dsimp only
  repeat' first
    | with_reducible assumption | with_reducible apply keeps_assignRoles | with_reducible apply keeps_retrainDone
    | with_reducible apply keeps_sealOpen | with_reducible apply keeps_tellRoles | with_reducible apply keeps_ite
    | (simp only [keeps_mk]; first | with_reducible apply Keeps.parts | refine Keeps.parts' ?_ rfl) | dsimp only | split

theorem keeps_correctionReset {base : State} {s : State} (h0 : Keeps base s) :
    Keeps base (State.correctionReset s) := by
  unfold State.correctionReset
  try dsimp only
  repeat' first
    | with_reducible assumption | (simp only [keeps_mk]; first | with_reducible apply Keeps.parts | refine Keeps.parts' ?_ rfl)
    | (simp only [id]; assumption) | dsimp only

theorem keeps_walkReset {base : State} {s : State} (h0 : Keeps base s) :
    Keeps base (State.walkReset s) := by
  unfold State.walkReset
  try dsimp only
  repeat' first
    | with_reducible assumption | (simp only [keeps_mk]; first | with_reducible apply Keeps.parts | refine Keeps.parts' ?_ rfl) | dsimp only
    | (intro _; intros; try dsimp only)

theorem keeps_detectionReset {base : State} {s : State} (h0 : Keeps base s) :
    Keeps base (State.detectionReset s) := by
  unfold State.detectionReset
  try dsimp only
  repeat' first
    | with_reducible assumption | with_reducible apply keeps_sealOpen | with_reducible apply keeps_sealShadows
    | (simp only [keeps_mk]; first | with_reducible apply Keeps.parts | refine Keeps.parts' ?_ rfl) | dsimp only

theorem keeps_asterReset {base : State} {s : State} (h0 : Keeps base s) :
    Keeps base (State.asterReset s) := by
  unfold State.asterReset
  try dsimp only
  repeat' first
    | with_reducible assumption | with_reducible apply keeps_put | with_reducible apply keeps_putEngine
    | with_reducible apply keeps_putSheaf | with_reducible apply keeps_queueUpdate | with_reducible apply keeps_ite
    | (simp only [keeps_mk]; first | with_reducible apply Keeps.parts | refine Keeps.parts' ?_ rfl) | with_reducible apply keeps_foldl
    | with_reducible apply keeps_foldl_fst | dsimp only | split | (intro _; intros; try dsimp only)

theorem keeps_asterDone {base : State} {s : State} (h0 : Keeps base s) :
    Keeps base (State.asterDone s) := by
  unfold State.asterDone
  try dsimp only
  repeat' first
    | with_reducible assumption | with_reducible apply keeps_put | with_reducible apply keeps_ite | with_reducible apply keeps_foldl
    | with_reducible apply keeps_foldl_fst | dsimp only | split | (intro _; intros; try dsimp only)

theorem keeps_drillReset {base : State} {s : State} (h0 : Keeps base s) :
    Keeps base (State.drillReset s) := by
  unfold State.drillReset
  try dsimp only
  repeat' first
    | with_reducible assumption | with_reducible apply keeps_waitUpdate
    | (simp only [keeps_mk]; first | with_reducible apply Keeps.parts | with_reducible apply Keeps.partsKeep | with_reducible apply Keeps.partsFallow | refine Keeps.partsActs ?_ (sub_map fun _ => rfl) | refine Keeps.partsActs ?_ sub_filter | refine Keeps.partsActs ?_ (sub_map fun _ => by split <;> first | rfl | (symm; assumption)) | refine Keeps.partsNew ?_ rfl | refine Keeps.parts' ?_ rfl)
    | dsimp only | (intro _; intros; try dsimp only)

theorem keeps_requestLate {base : State} {s : State} {p : PullIn} (h0 : Keeps base s) :
    Keeps base (State.requestLate s p) := by
  unfold State.requestLate
  try dsimp only
  repeat' first
    | with_reducible assumption | with_reducible apply keeps_bump | with_reducible apply keeps_markEntries
    | with_reducible apply keeps_putPull | with_reducible apply keeps_ite | with_reducible apply keepsO_ite
    | with_reducible apply keepsO_some | with_reducible exact keepsO_none
    | (simp only [keeps_mk]; first | with_reducible apply Keeps.parts | refine Keeps.parts' ?_ rfl) | dsimp only | split
    | (intro _; intros; try dsimp only)

theorem keeps_drillReplay {base : State} {s : State} {p : PullIn} (h0 : Keeps base s) :
    Keeps base (State.drillReplay s p) := by
  unfold State.drillReplay
  try dsimp only
  repeat' first
    | with_reducible assumption | with_reducible apply keeps_noGate | with_reducible apply keeps_requestLate
    | with_reducible apply keeps_ite | dsimp only | split

theorem keeps_drillDone {base : State} {s : State} (h0 : Keeps base s) :
    Keeps base (State.drillDone s) := by
  unfold State.drillDone
  try dsimp only
  repeat' first
    | with_reducible assumption | with_reducible apply keeps_drillReplay | with_reducible apply keeps_grantPass
    | with_reducible apply keeps_waitUpdate | with_reducible apply keeps_foldl | with_reducible apply keeps_foldl_fst | dsimp only
    | (intro _; intros; try dsimp only)

theorem keeps_valveReset {base : State} {s : State} (h0 : Keeps base s) :
    Keeps base (State.valveReset s) := by
  unfold State.valveReset
  try dsimp only
  repeat' first
    | with_reducible assumption | with_reducible apply keeps_allLow | with_reducible apply keeps_armCheck
    | with_reducible apply keeps_auxCut | with_reducible apply keeps_endEntries | with_reducible apply keeps_onEntries
    | with_reducible apply keeps_ite
    | (simp only [keeps_mk]; first | with_reducible apply Keeps.parts | refine Keeps.partsActs ?_ (sub_map fun _ => rfl) | refine Keeps.partsActs ?_ sub_filter | refine Keeps.partsActs ?_ (sub_map fun _ => by split <;> first | rfl | (symm; assumption)) | refine Keeps.partsNew ?_ rfl | refine Keeps.parts' ?_ rfl)
    | with_reducible apply keeps_foldl | with_reducible apply keeps_foldl_fst | dsimp only | split | (intro _; intros; try dsimp only)

theorem keeps_valveReplay {base : State} {s : State} {start : Int} {p : PullIn} (h0 : Keeps base s) :
    Keeps base (State.valveReplay s start p) := by
  unfold State.valveReplay
  try dsimp only
  repeat' first
    | with_reducible assumption | with_reducible apply keeps_bump | with_reducible apply keeps_noGate
    | with_reducible apply keeps_requestLate | with_reducible apply keeps_ite | dsimp only | split

theorem keeps_valveDone {base : State} {s : State} {start : Int} (h0 : Keeps base s) :
    Keeps base (State.valveDone s start) := by
  unfold State.valveDone
  try dsimp only
  repeat' first
    | with_reducible assumption | with_reducible apply keeps_grantPass | with_reducible apply keeps_valveReplay
    | with_reducible apply keeps_waitUpdate | with_reducible apply keeps_foldl | with_reducible apply keeps_foldl_fst | dsimp only
    | (intro _; intros; try dsimp only)

theorem keeps_ethernetReset {base : State} {s : State} (h0 : Keeps base s) :
    Keeps base (State.ethernetReset s) := by
  unfold State.ethernetReset
  try dsimp only
  repeat' first
    | with_reducible assumption | with_reducible apply keeps_linkLost | with_reducible apply keeps_newPackets
    | with_reducible apply keeps_ite | with_reducible apply keeps_foldl | with_reducible apply keeps_foldl_fst | dsimp only | split
    | (intro _; intros; try dsimp only)

theorem keeps_ptpReset {base : State} {s : State} (h0 : Keeps base s) :
    Keeps base (State.ptpReset s) := by
  unfold State.ptpReset
  try dsimp only
  repeat' first
    | with_reducible assumption | with_reducible apply keeps_disarm | with_reducible apply keeps_put | with_reducible apply keeps_sync
    | with_reducible apply keepsE_ite | with_reducible apply keepsE_go | exact keepsE_stop | exact keepsE_verd
    | (simp only [keeps_mk]; first | with_reducible apply Keeps.parts | refine Keeps.parts' ?_ rfl) | dsimp only

theorem keeps_hkcReset {base : State} {s : State} (h0 : Keeps base s) :
    Keeps base (State.hkcReset s) := by
  unfold State.hkcReset
  try dsimp only
  repeat' first
    | with_reducible assumption | with_reducible apply keeps_disarm | with_reducible apply keeps_hkcBusy | with_reducible apply keepsO_ite
    | with_reducible apply keepsO_some | with_reducible exact keepsO_none
    | (simp only [keeps_mk]; first | with_reducible apply Keeps.parts | refine Keeps.parts' ?_ rfl) | dsimp only | split

theorem keeps_calibrationReset {base : State} {s : State} (h0 : Keeps base s) :
    Keeps base (State.calibrationReset s) := by
  unfold State.calibrationReset
  try dsimp only
  repeat' first
    | with_reducible assumption | with_reducible apply keeps_disarm | with_reducible apply keeps_endScript | with_reducible apply keeps_put
    | with_reducible apply keeps_ite | with_reducible apply keepsO_ite | with_reducible apply keepsO_some | with_reducible exact keepsO_none
    | (simp only [keeps_mk]; first | with_reducible apply Keeps.parts | refine Keeps.parts' ?_ rfl) | dsimp only | split

theorem keeps_resetAction {base : State} {s : State} {f : Nat} (h0 : Keeps base s) :
    Keeps base (State.resetAction s f) := by
  unfold State.resetAction
  try dsimp only
  repeat' first
    | with_reducible assumption | with_reducible apply keeps_archiveReset | with_reducible apply keeps_asterReset
    | with_reducible apply keeps_bringUp | with_reducible apply keeps_calibrationReset | with_reducible apply keeps_correctionReset
    | with_reducible apply keeps_detectionReset | with_reducible apply keeps_drillReset | with_reducible apply keeps_ethernetReset
    | with_reducible apply keeps_hkcReset | with_reducible apply keeps_ptpReset | with_reducible apply keeps_readoutReset
    | with_reducible apply keeps_valveReset | with_reducible apply keeps_walkReset | with_reducible apply keepsE_ite
    | with_reducible apply keepsE_go | exact keepsE_stop | exact keepsE_verd
    | (simp only [keeps_mk]; first | with_reducible apply Keeps.parts | refine Keeps.parts' ?_ rfl) | dsimp only | split

theorem keeps_noteReset {base : State} {s : State} {f : Nat} {cause : Nat} (h0 : Keeps base s) :
    Keeps base (State.noteReset s f cause) := by
  unfold State.noteReset
  try dsimp only
  repeat' first
    | with_reducible assumption | with_reducible apply keeps_bump | with_reducible apply keeps_emit | with_reducible apply keeps_put
    | with_reducible apply keeps_setPair | with_reducible apply keeps_ite | dsimp only | split

theorem keeps_beginReset {base : State} {s : State} {f : Nat} {cause : Nat} (h0 : Keeps base s) :
    Keeps base (State.beginReset s f cause) := by
  unfold State.beginReset
  try dsimp only
  repeat' first
    | with_reducible assumption | with_reducible apply keeps_markReplayed | with_reducible apply keeps_noteReset
    | with_reducible apply keeps_resetAction | (simp only [keeps_mk]; first | with_reducible apply Keeps.parts | refine Keeps.parts' ?_ rfl)
    | dsimp only

theorem keeps_hostReset {base : State} {s : State} {f : Nat} (h0 : Keeps base s) :
    KeepsO base (State.hostReset s f) := by
  unfold State.hostReset
  try dsimp only
  repeat' first
    | with_reducible assumption | with_reducible apply keeps_beginReset | with_reducible apply keeps_ite | with_reducible apply keepsO_ite
    | with_reducible apply keepsO_some | with_reducible exact keepsO_none | dsimp only | split

theorem keeps_hostRstFunc {base : State} {s : State} {w : Nat} (h0 : Keeps base s) :
    Keeps base (State.hostRstFunc s w).1 := by
  unfold State.hostRstFunc
  try dsimp only
  repeat' first
    | with_reducible assumption | with_reducible apply keeps_hostReset | with_reducible apply keeps_thenAct | with_reducible apply keeps_ite
    | with_reducible apply keeps_ite_fst | with_reducible apply keeps_foldl | with_reducible apply keeps_foldl_fst | dsimp only | split
    | (intro _; intros; try dsimp only)

theorem keeps_resetCommand {base : State} {s : State} {f : Nat} (h0 : Keeps base s) :
    Keeps base (State.resetCommand s f) := by
  unfold State.resetCommand
  try dsimp only
  repeat' first
    | with_reducible assumption | with_reducible apply keeps_hostDone | with_reducible apply keeps_hostRstFunc
    | with_reducible apply keeps_refuse | with_reducible apply keeps_unconfigured | with_reducible apply keeps_ite | dsimp only | split

theorem keeps_execReadoutReset {base : State} {s : State} (h0 : Keeps base s) :
    KeepsX base (execReadoutReset s) := by
  unfold execReadoutReset
  try dsimp only
  repeat' first
    | with_reducible assumption | with_reducible apply keeps_resetCommand | with_reducible apply keepsX_next
    | with_reducible exact keepsX_fault | with_reducible apply keepsX_ite | dsimp only

theorem keeps_execCorrectionReset {base : State} {s : State} (h0 : Keeps base s) :
    KeepsX base (execCorrectionReset s) := by
  unfold execCorrectionReset
  try dsimp only
  repeat' first
    | with_reducible assumption | with_reducible apply keeps_resetCommand | with_reducible apply keepsX_next
    | with_reducible exact keepsX_fault | with_reducible apply keepsX_ite | dsimp only

theorem keeps_execWalkReset {base : State} {s : State} (h0 : Keeps base s) :
    KeepsX base (execWalkReset s) := by
  unfold execWalkReset
  try dsimp only
  repeat' first
    | with_reducible assumption | with_reducible apply keeps_resetCommand | with_reducible apply keepsX_next
    | with_reducible exact keepsX_fault | with_reducible apply keepsX_ite | dsimp only

theorem keeps_execDetectionReset {base : State} {s : State} (h0 : Keeps base s) :
    KeepsX base (execDetectionReset s) := by
  unfold execDetectionReset
  try dsimp only
  repeat' first
    | with_reducible assumption | with_reducible apply keeps_resetCommand | with_reducible apply keepsX_next
    | with_reducible exact keepsX_fault | with_reducible apply keepsX_ite | dsimp only

theorem keeps_execAsterReset {base : State} {s : State} (h0 : Keeps base s) :
    KeepsX base (execAsterReset s) := by
  unfold execAsterReset
  try dsimp only
  repeat' first
    | with_reducible assumption | with_reducible apply keeps_resetCommand | with_reducible apply keepsX_next
    | with_reducible exact keepsX_fault | with_reducible apply keepsX_ite | dsimp only

theorem keeps_execDrillReset {base : State} {s : State} (h0 : Keeps base s) :
    KeepsX base (execDrillReset s) := by
  unfold execDrillReset
  try dsimp only
  repeat' first
    | with_reducible assumption | with_reducible apply keeps_resetCommand | with_reducible apply keepsX_next
    | with_reducible exact keepsX_fault | with_reducible apply keepsX_ite | dsimp only

theorem keeps_execValveReset {base : State} {s : State} (h0 : Keeps base s) :
    KeepsX base (execValveReset s) := by
  unfold execValveReset
  try dsimp only
  repeat' first
    | with_reducible assumption | with_reducible apply keeps_resetCommand | with_reducible apply keepsX_next
    | with_reducible exact keepsX_fault | with_reducible apply keepsX_ite | dsimp only

theorem keeps_execRecordReset {base : State} {s : State} (h0 : Keeps base s) :
    KeepsX base (execRecordReset s) := by
  unfold execRecordReset
  try dsimp only
  repeat' first
    | with_reducible assumption | with_reducible apply keeps_resetCommand | with_reducible apply keepsX_next
    | with_reducible exact keepsX_fault | with_reducible apply keepsX_ite | dsimp only

theorem keeps_execArchiveReset {base : State} {s : State} (h0 : Keeps base s) :
    KeepsX base (execArchiveReset s) := by
  unfold execArchiveReset
  try dsimp only
  repeat' first
    | with_reducible assumption | with_reducible apply keeps_resetCommand | with_reducible apply keepsX_next
    | with_reducible exact keepsX_fault | with_reducible apply keepsX_ite | dsimp only

theorem keeps_execNvmeReset {base : State} {s : State} (h0 : Keeps base s) :
    KeepsX base (execNvmeReset s) := by
  unfold execNvmeReset
  try dsimp only
  repeat' first
    | with_reducible assumption | with_reducible apply keeps_resetCommand | with_reducible apply keepsX_next
    | with_reducible exact keepsX_fault | with_reducible apply keepsX_ite | dsimp only

theorem keeps_execEthernetReset {base : State} {s : State} (h0 : Keeps base s) :
    KeepsX base (execEthernetReset s) := by
  unfold execEthernetReset
  try dsimp only
  repeat' first
    | with_reducible assumption | with_reducible apply keeps_resetCommand | with_reducible apply keepsX_next
    | with_reducible exact keepsX_fault | with_reducible apply keepsX_ite | dsimp only

theorem keeps_execPtpReset {base : State} {s : State} (h0 : Keeps base s) :
    KeepsX base (execPtpReset s) := by
  unfold execPtpReset
  try dsimp only
  repeat' first
    | with_reducible assumption | with_reducible apply keeps_resetCommand | with_reducible apply keepsX_next
    | with_reducible exact keepsX_fault | with_reducible apply keepsX_ite | dsimp only

theorem keeps_execHkcReset {base : State} {s : State} (h0 : Keeps base s) :
    KeepsX base (execHkcReset s) := by
  unfold execHkcReset
  try dsimp only
  repeat' first
    | with_reducible assumption | with_reducible apply keeps_resetCommand | with_reducible apply keepsX_next
    | with_reducible exact keepsX_fault | with_reducible apply keepsX_ite | dsimp only

theorem keeps_execCalibrationReset {base : State} {s : State} (h0 : Keeps base s) :
    KeepsX base (execCalibrationReset s) := by
  unfold execCalibrationReset
  try dsimp only
  repeat' first
    | with_reducible assumption | with_reducible apply keeps_resetCommand | with_reducible apply keepsX_next
    | with_reducible exact keepsX_fault | with_reducible apply keepsX_ite | dsimp only

theorem keeps_noteDog {base : State} {s : State} {f : Nat} (h0 : Keeps base s) :
    Keeps base (State.noteDog s f) := by
  unfold State.noteDog
  try dsimp only
  repeat' first
    | with_reducible assumption | with_reducible apply keeps_emit | with_reducible apply keeps_put | with_reducible apply keeps_ite
    | (simp only [keeps_mk]; first | with_reducible apply Keeps.parts | refine Keeps.parts' ?_ rfl) | dsimp only | split
    | (intro _; intros; try dsimp only)

theorem keeps_execWatchdogExpiry {base : State} {f : Nat} {s : State} (h0 : Keeps base s) :
    KeepsX base (execWatchdogExpiry f s) := by
  unfold execWatchdogExpiry
  try dsimp only
  repeat' first
    | with_reducible assumption | with_reducible apply keeps_beginReset | with_reducible apply keeps_noteDog
    | with_reducible apply keeps_ite | with_reducible apply keepsX_next | with_reducible exact keepsX_fault
    | with_reducible apply keepsX_ite | dsimp only | split

theorem keeps_doneAction {base : State} {s : State} {r : FuncReset} (h0 : Keeps base s) :
    Keeps base (State.doneAction s r) := by
  unfold State.doneAction
  try dsimp only
  repeat' first
    | with_reducible assumption | with_reducible apply keeps_asterDone | with_reducible apply keeps_correctionReset
    | with_reducible apply keeps_drillDone | with_reducible apply keeps_hkcNext | with_reducible apply keeps_readoutDone
    | with_reducible apply keeps_valveDone | with_reducible apply keepsE_ite | with_reducible apply keepsE_go | exact keepsE_stop
    | exact keepsE_verd | (simp only [keeps_mk]; first | with_reducible apply Keeps.parts | refine Keeps.parts' ?_ rfl) | dsimp only | split

theorem keeps_endReset {base : State} {s : State} {r : FuncReset} (h0 : Keeps base s) :
    Keeps base (State.endReset s r) := by
  unfold State.endReset
  try dsimp only
  repeat' first
    | with_reducible assumption | with_reducible apply keeps_emit | with_reducible apply keeps_put | with_reducible apply keeps_putSat
    | with_reducible apply keeps_ite | dsimp only | split

theorem keeps_execFuncResetDone {base : State} {f : Nat} {s : State} (h0 : Keeps base s) :
    KeepsX base (execFuncResetDone f s) := by
  unfold execFuncResetDone
  try dsimp only
  repeat' first
    | with_reducible assumption | with_reducible apply keeps_doneAction | with_reducible apply keeps_endReset
    | with_reducible apply keeps_ite | with_reducible apply keepsX_next | with_reducible exact keepsX_fault
    | with_reducible apply keepsX_ite | with_reducible apply keepsO_ite | with_reducible apply keepsO_some
    | with_reducible exact keepsO_none | (simp only [keeps_mk]; first | with_reducible apply Keeps.parts | refine Keeps.parts' ?_ rfl)
    | dsimp only | split | (intro _; intros; try dsimp only)

theorem keeps_clearRst {base : State} {s : State} (h0 : Keeps base s) :
    Keeps base (State.clearRst s) := by
  unfold State.clearRst
  try dsimp only
  repeat' first
    | with_reducible assumption | with_reducible apply keeps_put | with_reducible apply keeps_setWord | with_reducible apply keeps_foldl
    | with_reducible apply keeps_foldl_fst | dsimp only | (intro _; intros; try dsimp only)

theorem keeps_execRstClrCounters {base : State} {s : State} (h0 : Keeps base s) :
    KeepsX base (execRstClrCounters s) := by
  unfold execRstClrCounters
  try dsimp only
  repeat' first
    | with_reducible assumption | with_reducible apply keeps_clearRst | with_reducible apply keeps_host | with_reducible apply keepsX_next
    | with_reducible exact keepsX_fault | with_reducible apply keepsX_ite | with_reducible apply keepsO_ite
    | with_reducible apply keepsO_some | with_reducible exact keepsO_none | dsimp only

end Sys2Proof.Laws
end

