-- ==== Sys2Proof/Laws/Keeps/Access.lean ====
section
/-! SUPPORT. Machine/Access.lean keeps the queue, the canonical form and one actuation per valve. -/

namespace Sys2Proof.Laws

open Sys2Proof.Machine Sys2Proof.Safety

theorem keeps_readReg {base : State} {s : State} {path : Nat} {mp : Nat} {ppsIn : Bool} {a : Nat} (h0 : Keeps base s) :
    Keeps base (State.readReg s path mp ppsIn a).1 := by
  unfold State.readReg
  try dsimp only
  repeat' first
    | with_reducible assumption | with_reducible apply keeps_ppsIn | with_reducible apply keeps_ite | with_reducible apply keeps_ite_fst
    | (simp only [keeps_mk]; first | with_reducible apply Keeps.parts | refine Keeps.parts' ?_ rfl) | dsimp only | split

theorem keeps_keepWord {base : State} {s : State} {facts : List (Nat × Bool)} {first : Bool} {a : Nat} (h0 : Keeps base s) :
    Keeps base (State.keepWord s facts first a).1 := by
  unfold State.keepWord
  try dsimp only
  repeat' first
    | with_reducible assumption | with_reducible apply keeps_bump | with_reducible apply keeps_keepUncorr | with_reducible apply keeps_ite
    | with_reducible apply keeps_ite_fst | with_reducible apply keepsO_ite | with_reducible apply keepsO_some
    | with_reducible exact keepsO_none | (simp only [keeps_mk]; first | with_reducible apply Keeps.parts | refine Keeps.parts' ?_ rfl)
    | dsimp only | split

theorem keeps_readWord {base : State} {s : State} {path : Nat} {env : ReadEnv} {first : Bool} {a : Nat} (h0 : Keeps base s) :
    Keeps base (State.readWord s path env first a).1 := by
  unfold State.readWord
  try dsimp only
  repeat' first
    | with_reducible assumption | with_reducible apply keeps_keepWord | with_reducible apply keeps_ppsIn
    | with_reducible apply keeps_readReg | with_reducible apply keeps_ite | with_reducible apply keeps_ite_fst
    | with_reducible apply keepsO_ite | with_reducible apply keepsO_some | with_reducible exact keepsO_none
    | (simp only [keeps_mk]; first | with_reducible apply Keeps.parts | refine Keeps.parts' ?_ rfl)
    | (refine Keeps.ofPair (by assumption) ?_) | dsimp only | split

theorem keeps_done {base : State} {s : State} (h0 : Keeps base s) :
    Keeps base (done s).1 := by
  unfold done
  try dsimp only
  repeat' first
    | with_reducible assumption | with_reducible apply keeps_ite_fst | dsimp only

theorem keeps_hostMptCmd {base : State} {s : State} {w : Nat} (h0 : Keeps base s) :
    Keeps base (State.hostMptCmd s w) := by
  unfold State.hostMptCmd
  try dsimp only
  repeat' first
    | with_reducible assumption | with_reducible apply keeps_setWord | with_reducible apply keeps_ite | dsimp only | split

theorem keeps_hostCorCmd {base : State} {s : State} {w : Nat} (h0 : Keeps base s) :
    Keeps base (State.hostCorCmd s w).1 := by
  unfold State.hostCorCmd
  try dsimp only
  repeat' first
    | with_reducible assumption | with_reducible apply keeps_clearCor | with_reducible apply keeps_hostBankSwap
    | with_reducible apply keeps_hostTableSwap | with_reducible apply keeps_thenAct | with_reducible apply keeps_ite_fst
    | with_reducible apply keepsO_ite | with_reducible apply keepsO_some | with_reducible exact keepsO_none | dsimp only
    | (intro _; intros; try dsimp only)

theorem keeps_hostNvhCmd {base : State} {s : State} {w : Nat} (h0 : Keeps base s) :
    Keeps base (State.hostNvhCmd s w).1 := by
  unfold State.hostNvhCmd
  try dsimp only
  repeat' first
    | with_reducible assumption | with_reducible apply keeps_clearNvhCounters | with_reducible apply keeps_hostFormat
    | with_reducible apply keeps_hostRestart | with_reducible apply keeps_thenAct | with_reducible apply keeps_ite_fst
    | with_reducible apply keepsO_ite | with_reducible apply keepsO_some | with_reducible exact keepsO_none | dsimp only
    | (intro _; intros; try dsimp only)

theorem keeps_hostEthCmd {base : State} {s : State} {w : Nat} (h0 : Keeps base s) :
    Keeps base (State.hostEthCmd s w).1 := by
  unfold State.hostEthCmd
  try dsimp only
  repeat' first
    | with_reducible assumption | with_reducible apply keeps_clearEthCounters | with_reducible apply keeps_hostReturn
    | with_reducible apply keeps_thenAct | with_reducible apply keeps_ite_fst | with_reducible apply keepsO_ite
    | with_reducible apply keepsO_some | with_reducible exact keepsO_none | dsimp only | (intro _; intros; try dsimp only)

theorem keeps_hostKepCmd {base : State} {s : State} {w : Nat} (h0 : Keeps base s) :
    Keeps base (State.hostKepCmd s w).1 := by
  unfold State.hostKepCmd
  try dsimp only
  repeat' first
    | with_reducible assumption | with_reducible apply keeps_clearKeepErrors | with_reducible apply keeps_hostClear
    | with_reducible apply keeps_hostIncrement | with_reducible apply keeps_hostStore | with_reducible apply keeps_thenAct
    | with_reducible apply keeps_ite | with_reducible apply keeps_ite_fst | with_reducible apply keepsO_ite
    | with_reducible apply keepsO_some | with_reducible exact keepsO_none | dsimp only | split | (intro _; intros; try dsimp only)

theorem keeps_hostRdoCmd {base : State} {s : State} {w : Nat} (h0 : Keeps base s) :
    Keeps base (State.hostRdoCmd s w).1 := by
  unfold State.hostRdoCmd
  try dsimp only
  repeat' first
    | with_reducible assumption | with_reducible apply keeps_clearRdo | with_reducible apply keeps_hostRestore
    | with_reducible apply keeps_hostSubstitute | with_reducible apply keeps_thenAct | with_reducible apply keeps_ite
    | with_reducible apply keeps_ite_fst | with_reducible apply keepsO_ite | with_reducible apply keepsO_some
    | with_reducible exact keepsO_none | dsimp only | split | (intro _; intros; try dsimp only)

theorem keeps_writeCommand {base : State} {s : State} {a : Nat} {w : Nat} (h0 : Keeps base s) :
    KeepsP base (State.writeCommand s a w) := by
  unfold State.writeCommand
  try dsimp only
  repeat' first
    | with_reducible assumption | with_reducible apply keeps_clearDrl | with_reducible apply keeps_clearRst
    | with_reducible apply keeps_clearTbs | with_reducible apply keeps_clearTrk | with_reducible apply keeps_clearWalk
    | with_reducible apply keeps_done | with_reducible apply keeps_hostAstCmd | with_reducible apply keeps_hostAux
    | with_reducible apply keeps_hostCalCmd | with_reducible apply keeps_hostCorCmd | with_reducible apply keeps_hostDmaCtrl
    | with_reducible apply keeps_hostEthCmd | with_reducible apply keeps_hostFlash | with_reducible apply keeps_hostHkcCmd
    | with_reducible apply keeps_hostHoldup | with_reducible apply keeps_hostKepCmd | with_reducible apply keeps_hostMptCmd
    | with_reducible apply keeps_hostNvhCmd | with_reducible apply keeps_hostRdoCmd | with_reducible apply keeps_hostReload
    | with_reducible apply keeps_hostRstFunc | with_reducible apply keeps_hostVlvCmd | with_reducible apply keeps_judged
    | with_reducible apply keeps_ite | with_reducible apply keepsO_ite | with_reducible apply keepsO_some | with_reducible exact keepsO_none
    | with_reducible apply keepsP_ite | with_reducible apply keepsP_some | with_reducible exact keepsP_none
    | (simp only [keeps_mk]; first | with_reducible apply Keeps.parts | refine Keeps.parts' ?_ rfl) | (refine KeepsO.use (by assumption) ?_)
    | (refine Keeps.ofPair (by assumption) ?_) | dsimp only | split | (intro _; intros; try dsimp only)

theorem keeps_afterWrite {base : State} {s : State} {a : Nat} (h0 : Keeps base s) :
    Keeps base (State.afterWrite s a) := by
  unfold State.afterWrite
  try dsimp only
  repeat' first
    | with_reducible assumption | with_reducible apply keeps_archiveUpdate | with_reducible apply keeps_dropWrites
    | with_reducible apply keeps_freeSlots | with_reducible apply keeps_hkcCtrlEffect | with_reducible apply keeps_layoutUpdate
    | with_reducible apply keeps_syncBits | with_reducible apply keeps_ite
    | (simp only [keeps_mk]; first | with_reducible apply Keeps.parts | refine Keeps.parts' ?_ rfl) | dsimp only | split
    | (intro _; intros; try dsimp only)

theorem keeps_writePlain {base : State} {s : State} {a : Nat} {w : Nat} (h0 : Keeps base s) :
    KeepsO base (State.writePlain s a w) := by
  unfold State.writePlain
  try dsimp only
  repeat' first
    | with_reducible assumption | with_reducible apply keeps_afterWrite | with_reducible apply keeps_clearOnes
    | with_reducible apply keeps_pend | with_reducible apply keeps_setWord | with_reducible apply keeps_ite
    | with_reducible apply keepsO_ite | with_reducible apply keepsO_some | with_reducible exact keepsO_none
    | (simp only [keeps_mk]; first | with_reducible apply Keeps.parts | refine Keeps.parts' ?_ rfl) | with_reducible apply keeps_foldl
    | with_reducible apply keeps_foldl_fst | dsimp only | split | (intro _; intros; try dsimp only)

theorem keeps_hostPeriod {base : State} {s : State} {w : Nat} (h0 : Keeps base s) :
    KeepsO base (State.hostPeriod s w) := by
  unfold State.hostPeriod
  try dsimp only
  repeat' first
    | with_reducible assumption | with_reducible apply keeps_writePlain | with_reducible apply keeps_ite | with_reducible apply keepsO_ite
    | with_reducible apply keepsO_some | with_reducible exact keepsO_none | dsimp only | split | (intro _; intros; try dsimp only)

theorem keeps_writeReg {base : State} {s : State} {a : Nat} {w : Nat} (h0 : Keeps base s) :
    Keeps base (State.writeReg s a w).1 := by
  unfold State.writeReg
  try dsimp only
  repeat' first
    | with_reducible assumption | with_reducible apply keeps_accrue | with_reducible apply keeps_done | with_reducible apply keeps_hostBias
    | with_reducible apply keeps_hostOwner | with_reducible apply keeps_hostPeriod | with_reducible apply keeps_hostPortCtrl
    | with_reducible apply keeps_hostScriptWord | with_reducible apply keeps_hostSlotProg | with_reducible apply keeps_hostStream
    | with_reducible apply keeps_hostTrim | with_reducible apply keeps_judged | with_reducible apply keeps_noteCheck
    | with_reducible apply keeps_writeCommand | with_reducible apply keeps_writePlain | with_reducible apply keeps_ite
    | with_reducible apply keeps_ite_fst | with_reducible apply keepsO_ite | with_reducible apply keepsO_some
    | with_reducible exact keepsO_none | (simp only [keeps_mk]; first | with_reducible apply Keeps.parts | refine Keeps.parts' ?_ rfl)
    | (refine KeepsO.use (by assumption) ?_) | (refine KeepsP.use (by assumption) ?_) | (refine Keeps.ofPair (by assumption) ?_)
    | dsimp only | split | (intro _; intros; try dsimp only)

theorem keeps_writeWord {base : State} {s : State} {a : Nat} {w : Word} (h0 : Keeps base s) :
    Keeps base (State.writeWord s a w).1 := by
  unfold State.writeWord
  try dsimp only
  repeat' first
    | with_reducible assumption | with_reducible apply keeps_hostAsterWord | with_reducible apply keeps_hostStoreWord
    | with_reducible apply keeps_judged | with_reducible apply keeps_writeReg | with_reducible apply keeps_ite
    | with_reducible apply keeps_ite_fst | with_reducible apply keepsO_ite | with_reducible apply keepsO_some
    | with_reducible exact keepsO_none | (simp only [keeps_mk]; first | with_reducible apply Keeps.parts | refine Keeps.parts' ?_ rfl)
    | (refine KeepsO.use (by assumption) ?_) | (refine Keeps.ofPair (by assumption) ?_) | dsimp only | split
    | (intro _; intros; try dsimp only)

end Sys2Proof.Laws
end

