-- ==== Sys2Proof/Laws/Keeps/Field.lean ====
section
/-! SUPPORT. Machine/Field.lean keeps the queue, the canonical form and one actuation per valve. -/

namespace Sys2Proof.Laws

open Sys2Proof.Machine Sys2Proof.Safety

theorem keeps_walkSheaf {base : State} {s : State} {e : LineEnv} {cap : Nat} {x : Sheaf} (h0 : Keeps base s) :
    Keeps base (State.walkSheaf s e cap x).1 := by
  unfold State.walkSheaf
  try dsimp only
  repeat' first
    | with_reducible assumption | with_reducible apply keeps_putSheaf | with_reducible apply keeps_ite_fst
    | (simp only [keeps_mk]; first | with_reducible apply Keeps.parts | refine Keeps.parts' ?_ rfl) | with_reducible apply keeps_foldl
    | with_reducible apply keeps_foldl_fst | dsimp only | (intro _; intros; try dsimp only)

theorem keeps_sheafWalk {base : State} {s : State} {e : LineEnv} (h0 : Keeps base s) :
    Keeps base (State.sheafWalk s e) := by
  unfold State.sheafWalk
  try dsimp only
  repeat' first
    | with_reducible assumption | with_reducible apply keeps_walkSheaf | with_reducible apply keeps_foldl
    | with_reducible apply keeps_foldl_fst | dsimp only | (intro _; intros; try dsimp only)

theorem keeps_fillSheaf {base : State} {s : State} {x : Sheaf} (h0 : Keeps base s) :
    Keeps base (State.fillSheaf s x) := by
  unfold State.fillSheaf
  try dsimp only
  repeat' first
    | with_reducible assumption | with_reducible apply keeps_bump | with_reducible apply keeps_putSheaf
    | (simp only [keeps_mk]; first | with_reducible apply Keeps.parts | refine Keeps.parts' ?_ rfl) | with_reducible apply keeps_foldl
    | with_reducible apply keeps_foldl_fst | dsimp only | (intro _; intros; try dsimp only)

theorem keeps_fillSheaves {base : State} {s : State} (h0 : Keeps base s) :
    Keeps base (State.fillSheaves s) := by
  unfold State.fillSheaves
  try dsimp only
  repeat' first
    | with_reducible assumption | with_reducible apply keeps_fillSheaf | with_reducible apply keeps_foldl
    | with_reducible apply keeps_foldl_fst | dsimp only | (intro _; intros; try dsimp only)

theorem keeps_archiveLine {base : State} {s : State} {e : LineEnv} (h0 : Keeps base s) :
    Keeps base (State.archiveLine s e) := by
  unfold State.archiveLine
  try dsimp only
  repeat' first
    | with_reducible assumption | with_reducible apply keeps_bump | with_reducible apply keeps_queueWrite | with_reducible apply keeps_ite
    | (simp only [keeps_mk]; first | with_reducible apply Keeps.parts | refine Keeps.parts' ?_ rfl) | with_reducible apply keeps_foldl
    | with_reducible apply keeps_foldl_fst | dsimp only | split | (intro _; intros; try dsimp only)

theorem keeps_fieldLate {base : State} {s : State} {n : Nat} (h0 : Keeps base s) :
    Keeps base (State.fieldLate s n) := by
  unfold State.fieldLate
  try dsimp only
  repeat' first
    | with_reducible assumption | with_reducible apply keeps_putSat | with_reducible apply keeps_ite | dsimp only | split

theorem keeps_applyField {base : State} {s : State} {e : LineEnv} (h0 : Keeps base s) :
    Keeps base (State.applyField s e) := by
  unfold State.applyField
  try dsimp only
  repeat' first
    | with_reducible assumption | with_reducible apply keeps_applyRuns | with_reducible apply keeps_bgStep
    | with_reducible apply keeps_fillSheaves | with_reducible apply keeps_longSeals | with_reducible apply keeps_naturalSeals
    | with_reducible apply keeps_sheafWalk | with_reducible apply keeps_updateBackground | with_reducible apply keeps_ite
    | with_reducible apply keepsO_ite | with_reducible apply keepsO_some | with_reducible exact keepsO_none
    | (simp only [keeps_mk]; first | with_reducible apply Keeps.parts | refine Keeps.parts' ?_ rfl) | dsimp only | split
    | (intro _; intros; try dsimp only)

theorem keeps_missField {base : State} {s : State} (h0 : Keeps base s) :
    Keeps base (State.missField s) := by
  unfold State.missField
  try dsimp only
  repeat' first
    | with_reducible assumption | with_reducible apply keeps_ite
    | (simp only [keeps_mk]; first | with_reducible apply Keeps.parts | refine Keeps.parts' ?_ rfl) | dsimp only | split
    | (intro _; intros; try dsimp only)

theorem keeps_fieldComplete {base : State} {s : State} {ecc : List EccFact} (h0 : Keeps base s) :
    Keeps base (State.fieldComplete s ecc) := by
  unfold State.fieldComplete
  try dsimp only
  repeat' first
    | with_reducible assumption | with_reducible apply keeps_applyField | with_reducible apply keeps_archiveLine
    | with_reducible apply keeps_eccFacts | with_reducible apply keeps_fieldLate | with_reducible apply keeps_flagCheck
    | with_reducible apply keeps_formField | with_reducible apply keeps_glean | with_reducible apply keeps_missField
    | with_reducible apply keeps_ite | with_reducible apply keepsO_ite | with_reducible apply keepsO_some | with_reducible exact keepsO_none
    | (simp only [keeps_mk]; first | with_reducible apply Keeps.parts | refine Keeps.parts' ?_ rfl) | dsimp only | split
    | (intro _; intros; try dsimp only)

theorem keeps_execFieldLineComplete {base : State} {w : Nat} {ecc : List EccFact} {s : State} (h0 : Keeps base s) :
    KeepsX base (execFieldLineComplete w ecc s) := by
  unfold execFieldLineComplete
  try dsimp only
  repeat' first
    | with_reducible assumption | with_reducible apply keeps_elapse | with_reducible apply keeps_fieldComplete
    | with_reducible apply keeps_ite | with_reducible apply keepsX_next | with_reducible exact keepsX_fault
    | with_reducible apply keepsX_ite | dsimp only | split

theorem keeps_execSheafImageComplete {base : State} {w : Nat} {slot : Nat} {s : State} (h0 : Keeps base s) :
    KeepsX base (execSheafImageComplete w slot s) := by
  unfold execSheafImageComplete
  try dsimp only
  repeat' first
    | with_reducible assumption | with_reducible apply keeps_draw | with_reducible apply keeps_elapse | with_reducible apply keeps_putSat
    | with_reducible apply keeps_putSheaf | with_reducible apply keeps_queueSheaf | with_reducible apply keeps_ite
    | with_reducible apply keepsX_next | with_reducible exact keepsX_fault | with_reducible apply keepsX_ite
    | with_reducible apply keepsO_ite | with_reducible apply keepsO_some | with_reducible exact keepsO_none
    | (simp only [keeps_mk]; first | with_reducible apply Keeps.parts | refine Keeps.parts' ?_ rfl) | dsimp only | split

end Sys2Proof.Laws
end

