-- ==== Sys2Proof/Laws/Keeps/Move.lean ====
section
/-! SUPPORT. Machine/Move.lean keeps the queue, the canonical form and one actuation per valve. -/

namespace Sys2Proof.Laws

open Sys2Proof.Machine Sys2Proof.Safety

theorem keeps_engineWord {base : State} {s : State} {n : Nat} {env : ReadEnv} {first : Bool} {a : Nat} (h0 : Keeps base s) :
    Keeps base (State.engineWord s n env first a).1 := by
  unfold State.engineWord
  try dsimp only
  repeat' first
    | with_reducible assumption | with_reducible apply keeps_readWord | with_reducible apply keeps_ite_fst | dsimp only

theorem keeps_engineRead {base : State} {s : State} {n : Nat} {a : Nat} {w : Nat} (h0 : Keeps base s) :
    Keeps base (State.engineRead s n a w).1 := by
  unfold State.engineRead
  try dsimp only
  repeat' first
    | with_reducible assumption | with_reducible apply keeps_draw | with_reducible apply keeps_engineWord | with_reducible apply keeps_ite
    | with_reducible apply keeps_ite_fst | dsimp only | split

theorem keeps_engineWrite {base : State} {s : State} {a : Nat} {bs : List Byte} (h0 : Keeps base s) :
    Keeps base (State.engineWrite s a bs).1 := by
  unfold State.engineWrite
  try dsimp only
  repeat' first
    | with_reducible assumption | with_reducible apply keeps_writeWord | with_reducible apply keeps_ite_fst | dsimp only

theorem keeps_writeDrive {base : State} {s : State} {n : Nat} {a : Nat} {bs : List Byte} (h0 : Keeps base s) :
    Keeps base (State.writeDrive s n a bs) := by
  unfold State.writeDrive
  try dsimp only
  repeat' first
    | with_reducible assumption | (simp only [keeps_mk]; first | with_reducible apply Keeps.parts | refine Keeps.parts' ?_ rfl) | dsimp only

theorem keeps_storePages {base : State} {s : State} {pages : List (Nat × List Byte)} (h0 : Keeps base s) :
    Keeps base (State.storePages s pages) := by
  unfold State.storePages
  try dsimp only
  repeat' first
    | with_reducible assumption | with_reducible apply keeps_host | with_reducible apply keeps_startStore
    | with_reducible apply keeps_storesOver | with_reducible apply keeps_foldl | with_reducible apply keeps_foldl_fst | dsimp only
    | (intro _; intros; try dsimp only)

/-! A transfer under way carries its state on. -/

theorem keeps_Mover_read {o : State} {m : Mover} {n : Nat} {drive : Bool} {a w : Nat} (h : Keeps o m.st) : Keeps o (m.read n drive a w).1.st := by
  unfold Mover.read
  split
  · exact h
  · split
    · exact h
    · split
      · split <;> exact h
      · exact keeps_engineRead h

theorem Mover_writePage_st {m : Mover} {a : Nat} {bs : List Byte} : (m.writePage a bs).st = m.st := by
  unfold Mover.writePage
  extract_lets p
  generalize hostPage p = c
  cases c with
  | false => rfl
  | true =>
    rw [Bool.not_true, if_neg Bool.false_ne_true]
    split
    · rfl
    · split <;> rfl

theorem keeps_Mover_writePage {o : State} {m : Mover} {a : Nat} {bs : List Byte} (h : Keeps o m.st) : Keeps o (m.writePage a bs).st := by
  rw [Mover_writePage_st]
  exact h

theorem keeps_Mover_write {o : State} {m : Mover} {n : Nat} {drive : Bool} {a : Nat} {bs : List Byte} (h : Keeps o m.st) :
    Keeps o (m.write n drive a bs).st := by
  unfold Mover.write
  split
  · exact h
  · split
    · exact h
    · split
      · exact keeps_writeDrive h
      · split
        · exact keeps_Mover_writePage h
        · dsimp only
          split
          · exact keeps_engineWrite h
          · split
            · exact keeps_engineWrite h
            · exact keeps_engineWrite (keeps_engineWrite h)

theorem keeps_Mover_drain {o : State} {k n : Nat} {m : Mover} {c : Channel} (h : Keeps o m.st) : Keeps o (Mover.drain k n m c).1.st := by
  induction k generalizing m c with
  | zero => exact h
  | succ k ih =>
    unfold Mover.drain
    split
    · exact h
    · exact ih (keeps_Mover_write h)

theorem keeps_Mover_fetch {o : State} {k n : Nat} {m : Mover} {c : Channel} (h : Keeps o m.st) : Keeps o (Mover.fetch k n m c).1.st := by
  induction k generalizing m c with
  | zero => exact h
  | succ k ih =>
    unfold Mover.fetch
    split
    · exact h
    · exact ih (keeps_Mover_read h)

theorem keeps_Mover_advance {o : State} {m : Mover} {n : Nat} {c : Channel} (h : Keeps o m.st) : Keeps o (m.advance n c).st := by
  unfold Mover.advance
  split
  · exact h
  · exact keeps_put (keeps_bump (keeps_setChannel h))

theorem keeps_Mover_unit {o : State} {m : Mover} {n : Nat} (h : Keeps o m.st) : Keeps o (m.unit n).st := by
  unfold Mover.unit
  dsimp only
  split
  · exact keeps_Mover_advance (keeps_Mover_drain h)
  · split
    · split
      · exact keeps_Mover_fetch (keeps_Mover_read h)
      · split
        · exact keeps_Mover_fetch (keeps_Mover_read h)
        · exact keeps_Mover_advance (keeps_Mover_fetch (keeps_Mover_read h))
    · exact keeps_Mover_advance (keeps_Mover_drain (keeps_Mover_read h))

theorem keeps_Mover_units {o : State} {k n : Nat} {m : Mover} (h : Keeps o m.st) : Keeps o (Mover.units k n m).st := by
  induction k generalizing m with
  | zero => exact h
  | succ k ih =>
    unfold Mover.units
    split
    · exact h
    · exact ih (keeps_Mover_unit h)

theorem keeps_moveUnits {o : State} {s : State} {n k : Nat} {rd : List Byte} (h0 : Keeps o s) : Keeps o (State.moveUnits s n k rd) := by
  unfold State.moveUnits
  extract_lets c nv m t
  refine keeps_ite h0 (keeps_ite (keeps_lastingError h0) ?_)
  have hm : Keeps o m.st := keeps_Mover_units (keeps_mk.2 (Keeps.parts h0))
  clear_value m
  have ht : Keeps o t := keeps_maintWait (keeps_storePages hm)
  clear_value t
  split
  · exact ht
  · exact ht
  · exact keeps_haltChannel ht
  · exact keeps_lastingError ht
  · exact keeps_completeMaint (keeps_setWord (keeps_put ht))

theorem keeps_freeBytes {o : State} {s : State} {k : Nat} (h0 : Keeps o s) : Keeps o (State.freeBytes s k).1 := by
  induction k generalizing s with
  | zero => exact h0
  | succ k ih => exact ih (keeps_draw h0)

theorem keeps_moveSome {base : State} {s : State} {n : Nat} (h0 : Keeps base s) :
    Keeps base (State.moveSome s n) := by
  unfold State.moveSome
  try dsimp only
  repeat' first
    | with_reducible assumption | with_reducible apply keeps_draw | with_reducible apply keeps_freeBytes
    | with_reducible apply keeps_moveUnits | with_reducible apply keeps_ite | dsimp only | split

theorem keeps_execDmaPause {base : State} {n : Nat} {units : Nat} {rd : List Byte} {s : State} (h0 : Keeps base s) :
    KeepsX base (execDmaPause n units rd s) := by
  unfold execDmaPause
  try dsimp only
  repeat' first
    | with_reducible assumption | with_reducible apply keeps_hostDmaCtrl | with_reducible apply keeps_hostDone
    | with_reducible apply keeps_moveUnits | with_reducible apply keeps_ite | with_reducible apply keepsX_next
    | with_reducible exact keepsX_fault | with_reducible apply keepsX_ite | dsimp only | split

theorem keeps_execDmaAbort {base : State} {n : Nat} {units : Nat} {rd : List Byte} {s : State} (h0 : Keeps base s) :
    KeepsX base (execDmaAbort n units rd s) := by
  unfold execDmaAbort
  try dsimp only
  repeat' first
    | with_reducible assumption | with_reducible apply keeps_hostDmaCtrl | with_reducible apply keeps_hostDone
    | with_reducible apply keeps_moveUnits | with_reducible apply keeps_ite | with_reducible apply keepsX_next
    | with_reducible exact keepsX_fault | with_reducible apply keepsX_ite | dsimp only | split

theorem keeps_finishTransfer {base : State} {s : State} {n : Nat} {rd : List Byte} (h0 : Keeps base s) :
    Keeps base (State.finishTransfer s n rd) := by
  unfold State.finishTransfer
  try dsimp only
  repeat' first
    | with_reducible assumption | with_reducible apply keeps_completeMaint | with_reducible apply keeps_moveUnits
    | with_reducible apply keeps_writeSnapshot | with_reducible apply keeps_ite | dsimp only | split

theorem keeps_execChannelComplete {base : State} {n : Nat} {rd : List Byte} {s : State} (h0 : Keeps base s) :
    KeepsX base (execChannelComplete n rd s) := by
  unfold execChannelComplete
  try dsimp only
  repeat' first
    | with_reducible assumption | with_reducible apply keeps_finishTransfer | with_reducible apply keeps_ite
    | with_reducible apply keepsX_next | with_reducible exact keepsX_fault | with_reducible apply keepsX_ite | dsimp only | split

theorem keeps_busError {base : State} {s : State} {n : Nat} {code : Nat} {units : Nat} {rd : List Byte} (h0 : Keeps base s) :
    Keeps base (State.busError s n code units rd) := by
  unfold State.busError
  try dsimp only
  repeat' first
    | with_reducible assumption | with_reducible apply keeps_draw | with_reducible apply keeps_moveUnits
    | with_reducible apply keeps_oneBusError | with_reducible apply keeps_ite | dsimp only | split

theorem keeps_execBusError {base : State} {n : Nat} {code : Nat} {units : Nat} {rd : List Byte} {s : State} (h0 : Keeps base s) :
    KeepsX base (execBusError n code units rd s) := by
  unfold execBusError
  try dsimp only
  repeat' first
    | with_reducible assumption | with_reducible apply keeps_busError | with_reducible apply keeps_ite | with_reducible apply keepsX_next
    | with_reducible exact keepsX_fault | with_reducible apply keepsX_ite | dsimp only | split

end Sys2Proof.Laws
end

