-- ==== Sys2Proof/Laws/Keeps/Port.lean ====
section
/-! SUPPORT. Machine/Port.lean keeps the queue, the canonical form and one actuation per valve. -/

namespace Sys2Proof.Laws

open Sys2Proof.Machine Sys2Proof.Safety

theorem keeps_invalidFrame {base : State} {s : State} (h0 : Keeps base s) :
    Keeps base (State.invalidFrame s) := by
  unfold State.invalidFrame
  try dsimp only
  repeat' first
    | with_reducible assumption | with_reducible apply keeps_bump | with_reducible apply keeps_reply
    | (simp only [keeps_mk]; first | with_reducible apply Keeps.parts | refine Keeps.parts' ?_ rfl) | dsimp only

theorem keeps_onFrame {base : State} {s : State} {h : FrameHeader} {op : Nat} {k : State → State} (h0 : Keeps base s) (k3 : ∀ t, Keeps base t → Keeps base (k t)) :
    Keeps base (State.onFrame s h op k) := by
  unfold State.onFrame
  try dsimp only
  repeat' first
    | with_reducible assumption | with_reducible apply k3 | with_reducible apply keeps_invalidFrame | with_reducible apply keeps_selFall
    | with_reducible apply keeps_ite | dsimp only | split

theorem keeps_awaitStores {base : State} {s : State} {h : FrameHeader} {f : FrameFacts} (h0 : Keeps base s) :
    Keeps base (State.awaitStores s h f) := by
  unfold State.awaitStores
  try dsimp only
  repeat' first
    | with_reducible assumption | with_reducible apply keeps_storesOver | with_reducible apply keeps_ite | dsimp only | split

theorem keeps_countFrame {base : State} {s : State} {h : FrameHeader} {sync : Bool} {f : FrameFacts} (h0 : Keeps base s) :
    Keeps base (State.countFrame s h sync f) := by
  unfold State.countFrame
  try dsimp only
  repeat' first
    | with_reducible assumption | with_reducible apply keeps_bump | with_reducible apply keeps_draw | with_reducible apply keeps_put
    | with_reducible apply keeps_sync | with_reducible apply keeps_ite | dsimp only | split

theorem keeps_reply {base : State} {s : State} {h : FrameHeader} {f : FrameFacts} {data : List Word} (h0 : Keeps base s) :
    Keeps base (State.reply s h f data) := by
  unfold State.reply
  try dsimp only
  repeat' first
    | with_reducible assumption | with_reducible apply keeps_ite | with_reducible apply keepsO_ite | with_reducible apply keepsO_some
    | with_reducible exact keepsO_none | (simp only [keeps_mk]; first | with_reducible apply Keeps.parts | refine Keeps.parts' ?_ rfl)
    | dsimp only | split

theorem keeps_unapplied {base : State} {s : State} {counted : Bool} {write : Bool} (h0 : Keeps base s) :
    Keeps base (State.unapplied s counted write) := by
  unfold State.unapplied
  try dsimp only
  repeat' first
    | with_reducible assumption | (simp only [keeps_mk]; first | with_reducible apply Keeps.parts | refine Keeps.parts' ?_ rfl) | dsimp only

theorem keeps_plainFrame {base : State} {s : State} {h : FrameHeader} {sync : Bool} (h0 : Keeps base s) :
    Keeps base (State.plainFrame s h sync) := by
  unfold State.plainFrame
  try dsimp only
  repeat' first
    | with_reducible assumption | with_reducible apply keeps_countFrame | with_reducible apply keeps_reply | with_reducible apply keeps_sync
    | with_reducible apply keeps_unapplied | dsimp only

theorem keeps_execFrameNop {base : State} {h : FrameHeader} {s : State} (h0 : Keeps base s) :
    KeepsX base (execFrameNop h s) := by
  unfold execFrameNop
  try dsimp only
  repeat' first
    | with_reducible assumption | with_reducible apply keeps_onFrame | with_reducible apply keeps_plainFrame
    | with_reducible apply keepsX_next | with_reducible exact keepsX_fault | with_reducible apply keepsX_ite | dsimp only
    | (intro _; intros; try dsimp only)

theorem keeps_execFrameSync {base : State} {h : FrameHeader} {s : State} (h0 : Keeps base s) :
    KeepsX base (execFrameSync h s) := by
  unfold execFrameSync
  try dsimp only
  repeat' first
    | with_reducible assumption | with_reducible apply keeps_onFrame | with_reducible apply keeps_plainFrame
    | with_reducible apply keepsX_next | with_reducible exact keepsX_fault | with_reducible apply keepsX_ite | dsimp only
    | (intro _; intros; try dsimp only)

theorem keeps_execInvalidHeader {base : State} {s : State} (h0 : Keeps base s) :
    KeepsX base (execInvalidHeader s) := by
  unfold execInvalidHeader
  try dsimp only
  repeat' first
    | with_reducible assumption | with_reducible apply keeps_invalidFrame | with_reducible apply keeps_selFall
    | with_reducible apply keeps_ite | with_reducible apply keepsX_next | with_reducible exact keepsX_fault
    | with_reducible apply keepsX_ite | dsimp only | split

theorem keeps_readWords {o : State} {s : State} {env : ReadEnv} {first : Bool} {a k : Nat} (h0 : Keeps o s) :
    Keeps o (State.readWords s env first a k).1 := by
  induction k generalizing s first a with
  | zero => exact h0
  | succ k ih => exact ih (keeps_readWord h0)

theorem keeps_readData {base : State} {s : State} {h : FrameHeader} {env : ReadEnv} {f : FrameFacts} (h0 : Keeps base s) :
    Keeps base (State.readData s h env f).1 := by
  unfold State.readData
  try dsimp only
  repeat' first
    | with_reducible assumption | with_reducible apply keeps_readWords | with_reducible apply keeps_ite | with_reducible apply keeps_ite_fst
    | dsimp only | split

theorem keeps_readFrame {base : State} {s : State} {h : FrameHeader} {env : ReadEnv} (h0 : Keeps base s) :
    Keeps base (State.readFrame s h env) := by
  unfold State.readFrame
  try dsimp only
  repeat' first
    | with_reducible assumption | with_reducible apply keeps_awaitStores | with_reducible apply keeps_countFrame
    | with_reducible apply keeps_readData | with_reducible apply keeps_reply | with_reducible apply keeps_unapplied | dsimp only

theorem keeps_execFrameRead {base : State} {h : FrameHeader} {env : ReadEnv} {s : State} (h0 : Keeps base s) :
    KeepsX base (execFrameRead h env s) := by
  unfold execFrameRead
  try dsimp only
  repeat' first
    | with_reducible assumption | with_reducible apply keeps_onFrame | with_reducible apply keeps_readFrame
    | with_reducible apply keepsX_next | with_reducible exact keepsX_fault | with_reducible apply keepsX_ite | dsimp only
    | (intro _; intros; try dsimp only)

theorem keeps_portWord {base : State} {s : State} {a : Nat} {w : Word} (h0 : Keeps base s) :
    Keeps base (State.portWord s a w).1 := by
  unfold State.portWord
  try dsimp only
  repeat' first
    | with_reducible assumption | with_reducible apply keeps_moveSome | with_reducible apply keeps_writeWord
    | with_reducible apply keeps_ite | with_reducible apply keeps_ite_fst | with_reducible apply keepsO_ite
    | with_reducible apply keepsO_some | with_reducible exact keepsO_none
    | (simp only [keeps_mk]; first | with_reducible apply Keeps.parts | refine Keeps.parts' ?_ rfl)
    | (refine Keeps.ofPair (by assumption) ?_) | dsimp only | split

theorem keeps_applyFrame {base : State} {s : State} {h : FrameHeader} {words : List Word} {range : Bool} (h0 : Keeps base s) :
    Keeps base (State.applyFrame s h words range) := by
  unfold State.applyFrame
  try dsimp only
  repeat' first
    | with_reducible assumption | with_reducible apply keeps_applyWords | with_reducible apply keeps_host
    | with_reducible apply keeps_hostPageWrite | with_reducible apply keeps_portWord | with_reducible apply keeps_wordsDone
    | with_reducible apply keeps_ite | (simp only [keeps_mk]; first | with_reducible apply Keeps.parts | refine Keeps.parts' ?_ rfl)
    | dsimp only | split | (intro _; intros; try dsimp only)

theorem keeps_unservedWrite {base : State} {s : State} {h : FrameHeader} (h0 : Keeps base s) :
    Keeps base (State.unservedWrite s h) := by
  unfold State.unservedWrite
  try dsimp only
  repeat' first
    | with_reducible assumption | with_reducible apply keeps_refuse | with_reducible apply keeps_unapplied | with_reducible apply keeps_ite
    | (simp only [keeps_mk]; first | with_reducible apply Keeps.parts | refine Keeps.parts' ?_ rfl) | dsimp only | split

theorem keeps_writeFrame {base : State} {s : State} {h : FrameHeader} {words : List Word} {dcrcOk : Bool} {heldToStart : Bool} (h0 : Keeps base s) :
    Keeps base (State.writeFrame s h words dcrcOk heldToStart) := by
  unfold State.writeFrame
  try dsimp only
  repeat' first
    | with_reducible assumption | with_reducible apply keeps_applyFrame | with_reducible apply keeps_awaitStores
    | with_reducible apply keeps_countFrame | with_reducible apply keeps_reply | with_reducible apply keeps_unapplied
    | with_reducible apply keeps_unservedWrite | with_reducible apply keeps_ite | dsimp only | split

theorem keeps_execFrameWrite {base : State} {h : FrameHeader} {words : List (BitVec 32)} {dcrc : BitVec 16} {heldToStart : Bool} {s : State} (h0 : Keeps base s) :
    KeepsX base (execFrameWrite h words dcrc heldToStart s) := by
  unfold execFrameWrite
  try dsimp only
  repeat' first
    | with_reducible assumption | with_reducible apply keeps_onFrame | with_reducible apply keeps_writeFrame
    | with_reducible apply keepsX_next | with_reducible exact keepsX_fault | with_reducible apply keepsX_ite | dsimp only
    | (intro _; intros; try dsimp only)

theorem keeps_execAlertClear {base : State} {mask : Nat} {s : State} (h0 : Keeps base s) :
    KeepsX base (execAlertClear mask s) := by
  unfold execAlertClear
  try dsimp only
  repeat' first
    | with_reducible assumption | with_reducible apply keeps_host | with_reducible apply keeps_writePlain | with_reducible apply keepsX_next
    | with_reducible exact keepsX_fault | with_reducible apply keepsX_ite | dsimp only | (intro _; intros; try dsimp only)

theorem keeps_execMptClrCounters {base : State} {s : State} (h0 : Keeps base s) :
    KeepsX base (execMptClrCounters s) := by
  unfold execMptClrCounters
  try dsimp only
  repeat' first
    | with_reducible assumption | with_reducible apply keeps_host | with_reducible apply keeps_hostMptCmd | with_reducible apply keepsX_next
    | with_reducible exact keepsX_fault | with_reducible apply keepsX_ite | with_reducible apply keepsO_ite
    | with_reducible apply keepsO_some | with_reducible exact keepsO_none | dsimp only

end Sys2Proof.Laws
end

