-- ==== Sys2Proof/Laws/Keeps/Streams.lean ====
section
/-! SUPPORT. Machine/Streams.lean keeps the queue, the canonical form and one actuation per valve. -/

namespace Sys2Proof.Laws

open Sys2Proof.Machine Sys2Proof.Safety

theorem keeps_rawPacket {base : State} {s : State} (h0 : Keeps base s) :
    Keeps base (State.rawPacket s) := by
  unfold State.rawPacket
  try dsimp only
  repeat' first
    | with_reducible assumption | with_reducible apply keeps_bump | with_reducible apply keeps_newPackets
    | with_reducible apply keeps_sendStream | with_reducible apply keeps_ite | with_reducible apply keepsO_ite
    | with_reducible apply keepsO_some | with_reducible exact keepsO_none
    | (simp only [keeps_mk]; first | with_reducible apply Keeps.parts | refine Keeps.parts' ?_ rfl) | dsimp only | split
    | (intro _; intros; try dsimp only)

theorem keeps_rawMissing {base : State} {s : State} {slot : Nat} (h0 : Keeps base s) :
    Keeps base (State.rawMissing s slot) := by
  unfold State.rawMissing
  try dsimp only
  repeat' first
    | with_reducible assumption | with_reducible apply keeps_bump | with_reducible apply keeps_ite | dsimp only | split

theorem keeps_execRowSlot {base : State} {s : State} (h0 : Keeps base s) :
    KeepsX base (execRowSlot s) := by
  unfold execRowSlot
  try dsimp only
  repeat' first
    | with_reducible assumption | with_reducible apply keeps_elapseTo | with_reducible apply keeps_rawMissing
    | with_reducible apply keeps_rawPacket | with_reducible apply keeps_ite | with_reducible apply keepsX_next
    | with_reducible exact keepsX_fault | with_reducible apply keepsX_ite
    | (simp only [keeps_mk]; first | with_reducible apply Keeps.parts | refine Keeps.parts' ?_ rfl) | dsimp only | split

theorem keeps_linePackets {base : State} {s : State} {n : Nat} (h0 : Keeps base s) :
    Keeps base (State.linePackets s n) := by
  unfold State.linePackets
  try dsimp only
  repeat' first
    | with_reducible assumption | with_reducible apply keeps_bump | with_reducible apply keeps_newPackets
    | with_reducible apply keeps_sendStream | with_reducible apply keeps_ite | with_reducible apply keeps_foldl
    | with_reducible apply keeps_foldl_fst | dsimp only | split | (intro _; intros; try dsimp only)

theorem keeps_execLinePacketSend {base : State} {s : State} (h0 : Keeps base s) :
    KeepsX base (execLinePacketSend s) := by
  unfold execLinePacketSend
  try dsimp only
  repeat' first
    | with_reducible assumption | with_reducible apply keeps_bump | with_reducible apply keeps_linePackets | with_reducible apply keeps_ite
    | with_reducible apply keepsX_next | with_reducible exact keepsX_fault | with_reducible apply keepsX_ite
    | with_reducible apply keepsO_ite | with_reducible apply keepsO_some | with_reducible exact keepsO_none
    | (simp only [keeps_mk]; first | with_reducible apply Keeps.parts | refine Keeps.parts' ?_ rfl) | dsimp only | split

end Sys2Proof.Laws
end

