-- ==== Sys2Proof/Laws/PerInstr.lean ====
section
/-!
SUPPORT. The family `Forms`, one lemma per command: no table word spells it, since the table gives its row no bits, so that a command
reaches the block through its queue alone.
-/
namespace Sys2Proof.Laws.Forms

/-- No word of the table spells the command. -/
def Statement (i : Instr) : Prop := ∀ nbits w, decodeTableWord nbits w ≠ some i

theorem no_word (i : Instr) : Statement i := by
  intro _ _ h
  cases h

theorem startUp (f : FlashFacts) (k : KeepFacts) (h : HoldupFacts) : Statement (.startUp f k h) := no_word _
theorem rstNPulse (ns : Nat) : Statement (.rstNPulse ns) := no_word _
theorem pllLock : Statement (.pllLock) := no_word _
theorem imageRecordCheck (r : ImageRecord) : Statement (.imageRecordCheck r) := no_word _
theorem commit : Statement (.commit) := no_word _
theorem lsyncStartTimeout : Statement (.lsyncStartTimeout) := no_word _
theorem settlingEvaluation : Statement (.settlingEvaluation) := no_word _
theorem cfgReload (slot : Nat) : Statement (.cfgReload slot) := no_word _
theorem reloadDrained : Statement (.reloadDrained) := no_word _
theorem reloadTimeout : Statement (.reloadTimeout) := no_word _
theorem cfgOwnershipWrite (addr value : Nat) : Statement (.cfgOwnershipWrite addr value) := no_word _
theorem pfiNRecognised (mv : Nat) : Statement (.pfiNRecognised mv) := no_word _
theorem vkeepLowRecognised (mv : Nat) : Statement (.vkeepLowRecognised mv) := no_word _
theorem saveBulkStoreCommit (w mv : Nat) : Statement (.saveBulkStoreCommit w mv) := no_word _
theorem heldExit : Statement (.heldExit) := no_word _
theorem vkeepCollapse : Statement (.vkeepCollapse) := no_word _
theorem lineBoundary : Statement (.lineBoundary) := no_word _
theorem lsyncPulse (w : Nat) : Statement (.lsyncPulse w) := no_word _
theorem lsyncLost : Statement (.lsyncLost) := no_word _
theorem ftachPulse (w : Nat) : Statement (.ftachPulse w) := no_word _
theorem ppsInEdge (w : Nat) : Statement (.ppsInEdge w) := no_word _
theorem ppsOutPulse : Statement (.ppsOutPulse) := no_word _
theorem rowSlot : Statement (.rowSlot) := no_word _
theorem groupFrameReceived (lane : Nat) (f : LinkFrame) : Statement (.groupFrameReceived lane f) := no_word _
theorem blockLockLost (lane : Nat) : Statement (.blockLockLost lane) := no_word _
theorem furrowSubstitute (group furrow : Nat) : Statement (.furrowSubstitute group furrow) := no_word _
theorem furrowRestore (group furrow : Nat) : Statement (.furrowRestore group furrow) := no_word _
theorem rdoClrCounters : Statement (.rdoClrCounters) := no_word _
theorem biasWrite (value : Nat) : Statement (.biasWrite value) := no_word _
theorem thermStale (k : Nat) : Statement (.thermStale k) := no_word _
theorem pixelIssue : Statement (.pixelIssue) := no_word _
theorem laneResult (lane w transit : Nat) (mismatch : Bool) (err : Int) : Statement (.laneResult lane w transit mismatch err) := no_word _
theorem laneStall (lane : Nat) : Statement (.laneStall lane) := no_word _
theorem bankSwap : Statement (.bankSwap) := no_word _
theorem tableSwap : Statement (.tableSwap) := no_word _
theorem corClrCounters : Statement (.corClrCounters) := no_word _
theorem coefficientWindowWrite (addr : Nat) (words : List (BitVec 32)) : Statement (.coefficientWindowWrite addr words) := no_word _
theorem lagTableBuilt : Statement (.lagTableBuilt) := no_word _
theorem fieldLineComplete (w : Nat) (ecc : List EccFact) : Statement (.fieldLineComplete w ecc) := no_word _
theorem sheafImageComplete (w slot : Nat) : Statement (.sheafImageComplete w slot) := no_word _
theorem aggregateRecord : Statement (.aggregateRecord) := no_word _
theorem intervalRequest : Statement (.intervalRequest) := no_word _
theorem calEventRequest : Statement (.calEventRequest) := no_word _
theorem calCancel : Statement (.calCancel) := no_word _
theorem calRun (script : Nat) : Statement (.calRun script) := no_word _
theorem calClrCounters : Statement (.calClrCounters) := no_word _
theorem shutterScriptStart : Statement (.shutterScriptStart) := no_word _
theorem calGapTimeout : Statement (.calGapTimeout) := no_word _
theorem crocusEnd (code : Nat) : Statement (.crocusEnd code) := no_word _
theorem crocusWait (lines : Nat) : Statement (.crocusWait lines) := no_word _
theorem crocusGap : Statement (.crocusGap) := no_word _
theorem crocusPlate (lines : Nat) : Statement (.crocusPlate lines) := no_word _
theorem crocusClose : Statement (.crocusClose) := no_word _
theorem crocusSettle (lines : Nat) : Statement (.crocusSettle lines) := no_word _
theorem crocusFlag (lines : Nat) : Statement (.crocusFlag lines) := no_word _
theorem crocusOpen : Statement (.crocusOpen) := no_word _
theorem crocusResume : Statement (.crocusResume) := no_word _
theorem crocusSolve (sel : Nat) : Statement (.crocusSolve sel) := no_word _
theorem solveComplete : Statement (.solveComplete) := no_word _
theorem crocusSwap : Statement (.crocusSwap) := no_word _
theorem crocusTrimCap : Statement (.crocusTrimCap) := no_word _
theorem crocusTrimSkim : Statement (.crocusTrimSkim) := no_word _
theorem crocusTrimDac (dac : Nat) : Statement (.crocusTrimDac dac) := no_word _
theorem crocusJumpIf (cond target : Nat) : Statement (.crocusJumpIf cond target) := no_word _
theorem crocusEvent (code : Nat) : Statement (.crocusEvent code) := no_word _
theorem scriptLinesDone (biasMv : Nat) : Statement (.scriptLinesDone biasMv) := no_word _
theorem flagOpenRetry : Statement (.flagOpenRetry) := no_word _
theorem qualTimeout : Statement (.qualTimeout) := no_word _
theorem trimWrite (addr value : Nat) : Statement (.trimWrite addr value) := no_word _
theorem scriptWrite (addr value : Nat) : Statement (.scriptWrite addr value) := no_word _
theorem engineAccept (w : Nat) (ecc : List EccFact) : Statement (.engineAccept w ecc) := no_word _
theorem asterAdd (x : EngStep) (d a b : Nat) : Statement (.asterAdd x d a b) := no_word _
theorem asterSub (x : EngStep) (d a b : Nat) : Statement (.asterSub x d a b) := no_word _
theorem asterMul (x : EngStep) (d a b : Nat) : Statement (.asterMul x d a b) := no_word _
theorem asterMuls (x : EngStep) (d a b fn : Nat) : Statement (.asterMuls x d a b fn) := no_word _
theorem asterDiv (x : EngStep) (d a b : Nat) : Statement (.asterDiv x d a b) := no_word _
theorem asterAnd (x : EngStep) (d a b : Nat) : Statement (.asterAnd x d a b) := no_word _
theorem asterOr (x : EngStep) (d a b : Nat) : Statement (.asterOr x d a b) := no_word _
theorem asterXor (x : EngStep) (d a b : Nat) : Statement (.asterXor x d a b) := no_word _
theorem asterMin (x : EngStep) (d a b : Nat) : Statement (.asterMin x d a b) := no_word _
theorem asterMax (x : EngStep) (d a b : Nat) : Statement (.asterMax x d a b) := no_word _
theorem asterAbs (x : EngStep) (d a : Nat) : Statement (.asterAbs x d a) := no_word _
theorem asterSqrt (x : EngStep) (d a : Nat) : Statement (.asterSqrt x d a) := no_word _
theorem asterSlt (x : EngStep) (d a b : Nat) : Statement (.asterSlt x d a b) := no_word _
theorem asterShl (x : EngStep) (d a b : Nat) : Statement (.asterShl x d a b) := no_word _
theorem asterSra (x : EngStep) (d a b : Nat) : Statement (.asterSra x d a b) := no_word _
theorem asterAddi (x : EngStep) (d a imm : Nat) : Statement (.asterAddi x d a imm) := no_word _
theorem asterLi (x : EngStep) (d imm : Nat) : Statement (.asterLi x d imm) := no_word _
theorem asterLih (x : EngStep) (d imm : Nat) : Statement (.asterLih x d imm) := no_word _
theorem asterAndi (x : EngStep) (d a imm : Nat) : Statement (.asterAndi x d a imm) := no_word _
theorem asterSlti (x : EngStep) (d a imm : Nat) : Statement (.asterSlti x d a imm) := no_word _
theorem asterShli (x : EngStep) (d a imm : Nat) : Statement (.asterShli x d a imm) := no_word _
theorem asterSrai (x : EngStep) (d a imm : Nat) : Statement (.asterSrai x d a imm) := no_word _
theorem asterLdw (x : EngStep) (d a imm : Nat) : Statement (.asterLdw x d a imm) := no_word _
theorem asterLdh (x : EngStep) (d a imm : Nat) : Statement (.asterLdh x d a imm) := no_word _
theorem asterLds (x : EngStep) (d a imm : Nat) : Statement (.asterLds x d a imm) := no_word _
theorem asterSts (x : EngStep) (d a imm : Nat) : Statement (.asterSts x d a imm) := no_word _
theorem asterWin (x : EngStep) (a b fn : Nat) : Statement (.asterWin x a b fn) := no_word _
theorem asterPix (x : EngStep) (d a b : Nat) : Statement (.asterPix x d a b) := no_word _
theorem asterRed (x : EngStep) (d a mode : Nat) : Statement (.asterRed x d a mode) := no_word _
theorem asterHist (x : EngStep) (a b : Nat) : Statement (.asterHist x a b) := no_word _
theorem asterBr (x : EngStep) (cond a b target : Nat) : Statement (.asterBr x cond a b target) := no_word _
theorem asterFeat (x : EngStep) (k a : Nat) : Statement (.asterFeat x k a) := no_word _
theorem asterVerd (x : EngStep) (verdict a sel cls : Nat) : Statement (.asterVerd x verdict a sel cls) := no_word _
theorem deadlinePassed (slot : Nat) : Statement (.deadlinePassed slot) := no_word _
theorem engineStall (e : Nat) : Statement (.engineStall e) := no_word _
theorem engineSelftest (e w : Nat) (pass : Bool) : Statement (.engineSelftest e w pass) := no_word _
theorem engineRestore (e : Nat) (pass : Bool) : Statement (.engineRestore e pass) := no_word _
theorem astClrCounters : Statement (.astClrCounters) := no_word _
theorem slotProgWrite (n value : Nat) : Statement (.slotProgWrite n value) := no_word _
theorem asterMemoryWrite (addr : Nat) (words : List (BitVec 32)) : Statement (.asterMemoryWrite addr words) := no_word _
theorem pullInRequest (v : Nat) : Statement (.pullInRequest v) := no_word _
theorem pullInStart (v w : Nat) : Statement (.pullInStart v w) := no_word _
theorem deferralLimit (v : Nat) (arrive : Bool) : Statement (.deferralLimit v arrive) := no_word _
theorem vboostStale : Statement (.vboostStale) := no_word _
theorem drlClrCounters : Statement (.drlClrCounters) := no_word _
theorem peakReached (v w blank : Nat) (codes : List Nat) : Statement (.peakReached v w blank codes) := no_word _
theorem peakTimeout (v blank : Nat) (codes : List Nat) : Statement (.peakTimeout v blank codes) := no_word _
theorem chopPeriod (c w : Nat) (codes : List Nat) : Statement (.chopPeriod c w codes) := no_word _
theorem dipFound (v w first : Nat) (codes : List Nat) : Statement (.dipFound v w first codes) := no_word _
theorem openLoadCheck (v : Nat) (codes : Nat × Nat) (gsn : Nat) : Statement (.openLoadCheck v codes gsn) := no_word _
theorem actuationEnd (v blank : Nat) (codes : List Nat) : Statement (.actuationEnd v blank codes) := no_word _
theorem valveReleased (v : Nat) : Statement (.valveReleased v) := no_word _
theorem valveFault (w code index : Nat) (codes : Nat × Nat) : Statement (.valveFault w code index codes) := no_word _
theorem idleScan (w : Nat) (gsn : List (Nat × Nat)) (cols : List Nat) : Statement (.idleScan w gsn cols) := no_word _
theorem valveEnable (target index code : Nat) : Statement (.valveEnable target index code) := no_word _
theorem matrixResume : Statement (.matrixResume) := no_word _
theorem vlvClrCounters : Statement (.vlvClrCounters) := no_word _
theorem armAssert : Statement (.armAssert) := no_word _
theorem armDeassert : Statement (.armDeassert) := no_word _
theorem auxCommand (value : Nat) : Statement (.auxCommand value) := no_word _
theorem auxDurationEnd (x : ChannelSamples) : Statement (.auxDurationEnd x) := no_word _
theorem recordRelease (w : Nat) (ecc : List EccFact) : Statement (.recordRelease w ecc) := no_word _
theorem recFlushTimeout : Statement (.recFlushTimeout) := no_word _
theorem nvmeCommandComplete (a : NvmeAnswer) : Statement (.nvmeCommandComplete a) := no_word _
theorem nvmeTimeout : Statement (.nvmeTimeout) := no_word _
theorem pcieLinkLoss : Statement (.pcieLinkLoss) := no_word _
theorem driveRetry : Statement (.driveRetry) := no_word _
theorem pcieLinkUp (gen width : Nat) (e : Endpoint) : Statement (.pcieLinkUp gen width e) := no_word _
theorem controllerReady : Statement (.controllerReady) := no_word _
theorem smartPoll (warning used kelvin : Nat) : Statement (.smartPoll warning used kelvin) := no_word _
theorem nvhFormat : Statement (.nvhFormat) := no_word _
theorem nvhRestart : Statement (.nvhRestart) := no_word _
theorem nvhClrCounters : Statement (.nvhClrCounters) := no_word _
theorem dmaStart (n : Nat) : Statement (.dmaStart n) := no_word _
theorem dmaPause (n units : Nat) (rd : List (BitVec 8)) : Statement (.dmaPause n units rd) := no_word _
theorem channelResume (n : Nat) : Statement (.channelResume n) := no_word _
theorem dmaAbort (n units : Nat) (rd : List (BitVec 8)) : Statement (.dmaAbort n units rd) := no_word _
theorem channelComplete (n : Nat) (rd : List (BitVec 8)) : Statement (.channelComplete n rd) := no_word _
theorem busError (n code units : Nat) (rd : List (BitVec 8)) : Statement (.busError n code units rd) := no_word _
theorem dataChannelHandover (n : Nat) : Statement (.dataChannelHandover n) := no_word _
theorem dmaIrqClear (mask : Nat) : Statement (.dmaIrqClear mask) := no_word _
theorem arpRequest (p : Nat) (f : RxFrame) : Statement (.arpRequest p f) := no_word _
theorem recordAck (p : Nat) (f : RxFrame) (seq : Nat) (nack : Bool) : Statement (.recordAck p f seq nack) := no_word _
theorem frameDropped (p : Nat) (f : RxFrame) : Statement (.frameDropped p f) := no_word _
theorem ptpAnnounce (p : Nat) (f : RxFrame) (m : Announce) : Statement (.ptpAnnounce p f m) := no_word _
theorem ptpSync (p : Nat) (f : RxFrame) (m : SyncMsg) : Statement (.ptpSync p f m) := no_word _
theorem ptpFollowUp (p : Nat) (f : RxFrame) (m : FollowMsg) : Statement (.ptpFollowUp p f m) := no_word _
theorem ptpDelayResp (p : Nat) (f : RxFrame) (m : RespMsg) : Statement (.ptpDelayResp p f m) := no_word _
theorem ptpDelayReq : Statement (.ptpDelayReq) := no_word _
theorem ptpHoldover : Statement (.ptpHoldover) := no_word _
theorem holdoverExpiry : Statement (.holdoverExpiry) := no_word _
theorem portLinkChange (p : Nat) (link localFault remoteFault hiBer : Bool) (corrected uncorrected : Nat) : Statement (.portLinkChange p link localFault remoteFault hiBer corrected uncorrected) := no_word _
theorem portReady (p : Nat) : Statement (.portReady p) := no_word _
theorem portCtrlWrite (p value : Nat) : Statement (.portCtrlWrite p value) := no_word _
theorem streamAssign (st value : Nat) : Statement (.streamAssign st value) := no_word _
theorem portRetain (p : Nat) : Statement (.portRetain p) := no_word _
theorem portWake (p : Nat) : Statement (.portWake p) := no_word _
theorem recordPacketSend : Statement (.recordPacketSend) := no_word _
theorem retransmitTimeout : Statement (.retransmitTimeout) := no_word _
theorem keepalive : Statement (.keepalive) := no_word _
theorem recordFailover : Statement (.recordFailover) := no_word _
theorem ethReturn : Statement (.ethReturn) := no_word _
theorem ethClrCounters : Statement (.ethClrCounters) := no_word _
theorem linePacketSend : Statement (.linePacketSend) := no_word _
theorem eventPacketSend : Statement (.eventPacketSend) := no_word _
theorem frameNop (h : FrameHeader) : Statement (.frameNop h) := no_word _
theorem frameRead (h : FrameHeader) (env : ReadEnv) : Statement (.frameRead h env) := no_word _
theorem frameWrite (h : FrameHeader) (words : List (BitVec 32)) (dcrc : BitVec 16) (heldToStart : Bool) : Statement (.frameWrite h words dcrc heldToStart) := no_word _
theorem frameSync (h : FrameHeader) : Statement (.frameSync h) := no_word _
theorem invalidHeader : Statement .invalidHeader := no_word _
theorem masterCollision : Statement (.masterCollision) := no_word _
theorem flashTransferResume : Statement (.flashTransferResume) := no_word _
theorem flashRead (lenM1 : Nat) : Statement (.flashRead lenM1) := no_word _
theorem flashProgram (lenM1 : Nat) : Statement (.flashProgram lenM1) := no_word _
theorem flashErase4k : Statement (.flashErase4k) := no_word _
theorem flashErase64k : Statement (.flashErase64k) := no_word _
theorem flashReadStatus : Statement (.flashReadStatus) := no_word _
theorem flashStatusPoll (sr : Nat) : Statement (.flashStatusPoll sr) := no_word _
theorem flashOpDone (r : FlashResult) : Statement (.flashOpDone r) := no_word _
theorem flashOpTimeout : Statement (.flashOpTimeout) := no_word _
theorem alertClear (mask : Nat) : Statement (.alertClear mask) := no_word _
theorem mptClrCounters : Statement (.mptClrCounters) := no_word _
theorem keepPageWrite (addr : Nat) (words : List (BitVec 32)) : Statement (.keepPageWrite addr words) := no_word _
theorem storeCommit : Statement (.storeCommit) := no_word _
theorem storeComplete : Statement (.storeComplete) := no_word _
theorem countPeriodStore : Statement (.countPeriodStore) := no_word _
theorem keepStore : Statement (.keepStore) := no_word _
theorem counterIncrement (idx : Nat) : Statement (.counterIncrement idx) := no_word _
theorem counterClear (idx : Nat) : Statement (.counterClear idx) := no_word _
theorem kepClrErrors : Statement (.kepClrErrors) := no_word _
theorem operationMinute : Statement (.operationMinute) := no_word _
theorem hkcPassStart : Statement (.hkcPassStart) := no_word _
theorem hkcEntryDone (code : Int) (ovr : Bool) : Statement (.hkcEntryDone code ovr) := no_word _
theorem selfCal (gain : Nat) : Statement (.selfCal gain) := no_word _
theorem excCal : Statement (.excCal) := no_word _
theorem calPhaseDone (factor : Nat) : Statement (.calPhaseDone factor) := no_word _
theorem vcoreEvaluation (lanes : List Nat) (walk : Int) (engines : List Nat) : Statement (.vcoreEvaluation lanes walk engines) := no_word _
theorem tempSensorConvert (cs : List (Bool × Int)) : Statement (.tempSensorConvert cs) := no_word _
theorem ballastUpdate (works : List Nat) : Statement (.ballastUpdate works) := no_word _
theorem throttleEvaluation (mv : Nat) : Statement (.throttleEvaluation mv) := no_word _
theorem thermalTripRestart : Statement (.thermalTripRestart) := no_word _
theorem holdupCheck : Statement (.holdupCheck) := no_word _
theorem holdupCheckDone (h : HoldupFacts) : Statement (.holdupCheckDone h) := no_word _
theorem readoutReset : Statement (.readoutReset) := no_word _
theorem correctionReset : Statement (.correctionReset) := no_word _
theorem walkReset : Statement (.walkReset) := no_word _
theorem detectionReset : Statement (.detectionReset) := no_word _
theorem asterReset : Statement (.asterReset) := no_word _
theorem drillReset : Statement (.drillReset) := no_word _
theorem valveReset : Statement (.valveReset) := no_word _
theorem recordReset : Statement (.recordReset) := no_word _
theorem archiveReset : Statement (.archiveReset) := no_word _
theorem nvmeReset : Statement (.nvmeReset) := no_word _
theorem ethernetReset : Statement (.ethernetReset) := no_word _
theorem ptpReset : Statement (.ptpReset) := no_word _
theorem hkcReset : Statement (.hkcReset) := no_word _
theorem calibrationReset : Statement (.calibrationReset) := no_word _
theorem watchdogExpiry (f : Nat) : Statement (.watchdogExpiry f) := no_word _
theorem funcResetDone (f : Nat) : Statement (.funcResetDone f) := no_word _
theorem rstClrCounters : Statement (.rstClrCounters) := no_word _
theorem tbsClrCounters : Statement (.tbsClrCounters) := no_word _
theorem tbsFlagsClear (mask : Nat) : Statement (.tbsFlagsClear mask) := no_word _
theorem trkClrCounters : Statement (.trkClrCounters) := no_word _
theorem walkClrCounters : Statement (.walkClrCounters) := no_word _
theorem controllerFatal : Statement (.controllerFatal) := no_word _
theorem capToExpiry : Statement (.capToExpiry) := no_word _
theorem blockLockGained (lane : Nat) : Statement (.blockLockGained lane) := no_word _
theorem vkinChargeThreshold (above : Bool) : Statement (.vkinChargeThreshold above) := no_word _

end Sys2Proof.Laws.Forms
end

