-- ==== Sys2Proof/Laws/State.lean ====
section
/-! SUPPORT. One lemma per field and named update of State: the update leaves the field as it was. -/

namespace Sys2Proof.Laws

open Sys2Proof.Machine

@[simp] theorem setWord_pending (s : State) (a : Nat) (w : Word) : (s.setWord a w).pending = s.pending := rfl
@[simp] theorem setWord_shadow (s : State) (a : Nat) (w : Word) : (s.setWord a w).shadow = s.shadow := rfl
@[simp] theorem setWord_mem (s : State) (a : Nat) (w : Word) : (s.setWord a w).mem = s.mem := rfl
@[simp] theorem setWord_free (s : State) (a : Nat) (w : Word) : (s.setWord a w).free = s.free := rfl
@[simp] theorem setWord_time (s : State) (a : Nat) (w : Word) : (s.setWord a w).time = s.time := rfl
@[simp] theorem setWord_cfg (s : State) (a : Nat) (w : Word) : (s.setWord a w).cfg = s.cfg := rfl
@[simp] theorem setWord_mpt (s : State) (a : Nat) (w : Word) : (s.setWord a w).mpt = s.mpt := rfl
@[simp] theorem setWord_keep (s : State) (a : Nat) (w : Word) : (s.setWord a w).keep = s.keep := rfl
@[simp] theorem setWord_pwr (s : State) (a : Nat) (w : Word) : (s.setWord a w).pwr = s.pwr := rfl
@[simp] theorem setWord_rst (s : State) (a : Nat) (w : Word) : (s.setWord a w).rst = s.rst := rfl
@[simp] theorem setWord_eth (s : State) (a : Nat) (w : Word) : (s.setWord a w).eth = s.eth := rfl
@[simp] theorem setWord_ptp (s : State) (a : Nat) (w : Word) : (s.setWord a w).ptp = s.ptp := rfl
@[simp] theorem setWord_nvh (s : State) (a : Nat) (w : Word) : (s.setWord a w).nvh = s.nvh := rfl
@[simp] theorem setWord_dma (s : State) (a : Nat) (w : Word) : (s.setWord a w).dma = s.dma := rfl
@[simp] theorem setWord_stg (s : State) (a : Nat) (w : Word) : (s.setWord a w).stg = s.stg := rfl
@[simp] theorem setWord_hkc (s : State) (a : Nat) (w : Word) : (s.setWord a w).hkc = s.hkc := rfl
@[simp] theorem setWord_rdo (s : State) (a : Nat) (w : Word) : (s.setWord a w).rdo = s.rdo := rfl
@[simp] theorem setWord_cor (s : State) (a : Nat) (w : Word) : (s.setWord a w).cor = s.cor := rfl
@[simp] theorem setWord_walk (s : State) (a : Nat) (w : Word) : (s.setWord a w).walk = s.walk := rfl
@[simp] theorem setWord_cal (s : State) (a : Nat) (w : Word) : (s.setWord a w).cal = s.cal := rfl
@[simp] theorem setWord_trk (s : State) (a : Nat) (w : Word) : (s.setWord a w).trk = s.trk := rfl
@[simp] theorem setWord_ast (s : State) (a : Nat) (w : Word) : (s.setWord a w).ast = s.ast := rfl
@[simp] theorem setWord_drl (s : State) (a : Nat) (w : Word) : (s.setWord a w).drl = s.drl := rfl
@[simp] theorem setWord_vlv (s : State) (a : Nat) (w : Word) : (s.setWord a w).vlv = s.vlv := rfl

@[simp] theorem put_pending (s : State) (f : Field) (v : Nat) : (s.put f v).pending = s.pending := rfl
@[simp] theorem put_shadow (s : State) (f : Field) (v : Nat) : (s.put f v).shadow = s.shadow := rfl
@[simp] theorem put_mem (s : State) (f : Field) (v : Nat) : (s.put f v).mem = s.mem := rfl
@[simp] theorem put_free (s : State) (f : Field) (v : Nat) : (s.put f v).free = s.free := rfl
@[simp] theorem put_time (s : State) (f : Field) (v : Nat) : (s.put f v).time = s.time := rfl
@[simp] theorem put_cfg (s : State) (f : Field) (v : Nat) : (s.put f v).cfg = s.cfg := rfl
@[simp] theorem put_mpt (s : State) (f : Field) (v : Nat) : (s.put f v).mpt = s.mpt := rfl
@[simp] theorem put_keep (s : State) (f : Field) (v : Nat) : (s.put f v).keep = s.keep := rfl
@[simp] theorem put_pwr (s : State) (f : Field) (v : Nat) : (s.put f v).pwr = s.pwr := rfl
@[simp] theorem put_rst (s : State) (f : Field) (v : Nat) : (s.put f v).rst = s.rst := rfl
@[simp] theorem put_eth (s : State) (f : Field) (v : Nat) : (s.put f v).eth = s.eth := rfl
@[simp] theorem put_ptp (s : State) (f : Field) (v : Nat) : (s.put f v).ptp = s.ptp := rfl
@[simp] theorem put_nvh (s : State) (f : Field) (v : Nat) : (s.put f v).nvh = s.nvh := rfl
@[simp] theorem put_dma (s : State) (f : Field) (v : Nat) : (s.put f v).dma = s.dma := rfl
@[simp] theorem put_stg (s : State) (f : Field) (v : Nat) : (s.put f v).stg = s.stg := rfl
@[simp] theorem put_hkc (s : State) (f : Field) (v : Nat) : (s.put f v).hkc = s.hkc := rfl
@[simp] theorem put_rdo (s : State) (f : Field) (v : Nat) : (s.put f v).rdo = s.rdo := rfl
@[simp] theorem put_cor (s : State) (f : Field) (v : Nat) : (s.put f v).cor = s.cor := rfl
@[simp] theorem put_walk (s : State) (f : Field) (v : Nat) : (s.put f v).walk = s.walk := rfl
@[simp] theorem put_cal (s : State) (f : Field) (v : Nat) : (s.put f v).cal = s.cal := rfl
@[simp] theorem put_trk (s : State) (f : Field) (v : Nat) : (s.put f v).trk = s.trk := rfl
@[simp] theorem put_ast (s : State) (f : Field) (v : Nat) : (s.put f v).ast = s.ast := rfl
@[simp] theorem put_drl (s : State) (f : Field) (v : Nat) : (s.put f v).drl = s.drl := rfl
@[simp] theorem put_vlv (s : State) (f : Field) (v : Nat) : (s.put f v).vlv = s.vlv := rfl

@[simp] theorem putFlag_pending (s : State) (f : Field) (b : Bool) : (s.putFlag f b).pending = s.pending := rfl
@[simp] theorem putFlag_shadow (s : State) (f : Field) (b : Bool) : (s.putFlag f b).shadow = s.shadow := rfl
@[simp] theorem putFlag_mem (s : State) (f : Field) (b : Bool) : (s.putFlag f b).mem = s.mem := rfl
@[simp] theorem putFlag_free (s : State) (f : Field) (b : Bool) : (s.putFlag f b).free = s.free := rfl
@[simp] theorem putFlag_time (s : State) (f : Field) (b : Bool) : (s.putFlag f b).time = s.time := rfl
@[simp] theorem putFlag_cfg (s : State) (f : Field) (b : Bool) : (s.putFlag f b).cfg = s.cfg := rfl
@[simp] theorem putFlag_mpt (s : State) (f : Field) (b : Bool) : (s.putFlag f b).mpt = s.mpt := rfl
@[simp] theorem putFlag_keep (s : State) (f : Field) (b : Bool) : (s.putFlag f b).keep = s.keep := rfl
@[simp] theorem putFlag_pwr (s : State) (f : Field) (b : Bool) : (s.putFlag f b).pwr = s.pwr := rfl
@[simp] theorem putFlag_rst (s : State) (f : Field) (b : Bool) : (s.putFlag f b).rst = s.rst := rfl
@[simp] theorem putFlag_eth (s : State) (f : Field) (b : Bool) : (s.putFlag f b).eth = s.eth := rfl
@[simp] theorem putFlag_ptp (s : State) (f : Field) (b : Bool) : (s.putFlag f b).ptp = s.ptp := rfl
@[simp] theorem putFlag_nvh (s : State) (f : Field) (b : Bool) : (s.putFlag f b).nvh = s.nvh := rfl
@[simp] theorem putFlag_dma (s : State) (f : Field) (b : Bool) : (s.putFlag f b).dma = s.dma := rfl
@[simp] theorem putFlag_stg (s : State) (f : Field) (b : Bool) : (s.putFlag f b).stg = s.stg := rfl
@[simp] theorem putFlag_hkc (s : State) (f : Field) (b : Bool) : (s.putFlag f b).hkc = s.hkc := rfl
@[simp] theorem putFlag_rdo (s : State) (f : Field) (b : Bool) : (s.putFlag f b).rdo = s.rdo := rfl
@[simp] theorem putFlag_cor (s : State) (f : Field) (b : Bool) : (s.putFlag f b).cor = s.cor := rfl
@[simp] theorem putFlag_walk (s : State) (f : Field) (b : Bool) : (s.putFlag f b).walk = s.walk := rfl
@[simp] theorem putFlag_cal (s : State) (f : Field) (b : Bool) : (s.putFlag f b).cal = s.cal := rfl
@[simp] theorem putFlag_trk (s : State) (f : Field) (b : Bool) : (s.putFlag f b).trk = s.trk := rfl
@[simp] theorem putFlag_ast (s : State) (f : Field) (b : Bool) : (s.putFlag f b).ast = s.ast := rfl
@[simp] theorem putFlag_drl (s : State) (f : Field) (b : Bool) : (s.putFlag f b).drl = s.drl := rfl
@[simp] theorem putFlag_vlv (s : State) (f : Field) (b : Bool) : (s.putFlag f b).vlv = s.vlv := rfl

@[simp] theorem bump_pending (s : State) (f : Field) (n : Nat) : (s.bump f n).pending = s.pending := rfl
@[simp] theorem bump_shadow (s : State) (f : Field) (n : Nat) : (s.bump f n).shadow = s.shadow := rfl
@[simp] theorem bump_mem (s : State) (f : Field) (n : Nat) : (s.bump f n).mem = s.mem := rfl
@[simp] theorem bump_free (s : State) (f : Field) (n : Nat) : (s.bump f n).free = s.free := rfl
@[simp] theorem bump_time (s : State) (f : Field) (n : Nat) : (s.bump f n).time = s.time := rfl
@[simp] theorem bump_cfg (s : State) (f : Field) (n : Nat) : (s.bump f n).cfg = s.cfg := rfl
@[simp] theorem bump_mpt (s : State) (f : Field) (n : Nat) : (s.bump f n).mpt = s.mpt := rfl
@[simp] theorem bump_keep (s : State) (f : Field) (n : Nat) : (s.bump f n).keep = s.keep := rfl
@[simp] theorem bump_pwr (s : State) (f : Field) (n : Nat) : (s.bump f n).pwr = s.pwr := rfl
@[simp] theorem bump_rst (s : State) (f : Field) (n : Nat) : (s.bump f n).rst = s.rst := rfl
@[simp] theorem bump_eth (s : State) (f : Field) (n : Nat) : (s.bump f n).eth = s.eth := rfl
@[simp] theorem bump_ptp (s : State) (f : Field) (n : Nat) : (s.bump f n).ptp = s.ptp := rfl
@[simp] theorem bump_nvh (s : State) (f : Field) (n : Nat) : (s.bump f n).nvh = s.nvh := rfl
@[simp] theorem bump_dma (s : State) (f : Field) (n : Nat) : (s.bump f n).dma = s.dma := rfl
@[simp] theorem bump_stg (s : State) (f : Field) (n : Nat) : (s.bump f n).stg = s.stg := rfl
@[simp] theorem bump_hkc (s : State) (f : Field) (n : Nat) : (s.bump f n).hkc = s.hkc := rfl
@[simp] theorem bump_rdo (s : State) (f : Field) (n : Nat) : (s.bump f n).rdo = s.rdo := rfl
@[simp] theorem bump_cor (s : State) (f : Field) (n : Nat) : (s.bump f n).cor = s.cor := rfl
@[simp] theorem bump_walk (s : State) (f : Field) (n : Nat) : (s.bump f n).walk = s.walk := rfl
@[simp] theorem bump_cal (s : State) (f : Field) (n : Nat) : (s.bump f n).cal = s.cal := rfl
@[simp] theorem bump_trk (s : State) (f : Field) (n : Nat) : (s.bump f n).trk = s.trk := rfl
@[simp] theorem bump_ast (s : State) (f : Field) (n : Nat) : (s.bump f n).ast = s.ast := rfl
@[simp] theorem bump_drl (s : State) (f : Field) (n : Nat) : (s.bump f n).drl = s.drl := rfl
@[simp] theorem bump_vlv (s : State) (f : Field) (n : Nat) : (s.bump f n).vlv = s.vlv := rfl

@[simp] theorem wrapAdd_pending (s : State) (f : Field) (n : Nat) : (s.wrapAdd f n).pending = s.pending := rfl
@[simp] theorem wrapAdd_shadow (s : State) (f : Field) (n : Nat) : (s.wrapAdd f n).shadow = s.shadow := rfl
@[simp] theorem wrapAdd_mem (s : State) (f : Field) (n : Nat) : (s.wrapAdd f n).mem = s.mem := rfl
@[simp] theorem wrapAdd_free (s : State) (f : Field) (n : Nat) : (s.wrapAdd f n).free = s.free := rfl
@[simp] theorem wrapAdd_time (s : State) (f : Field) (n : Nat) : (s.wrapAdd f n).time = s.time := rfl
@[simp] theorem wrapAdd_cfg (s : State) (f : Field) (n : Nat) : (s.wrapAdd f n).cfg = s.cfg := rfl
@[simp] theorem wrapAdd_mpt (s : State) (f : Field) (n : Nat) : (s.wrapAdd f n).mpt = s.mpt := rfl
@[simp] theorem wrapAdd_keep (s : State) (f : Field) (n : Nat) : (s.wrapAdd f n).keep = s.keep := rfl
@[simp] theorem wrapAdd_pwr (s : State) (f : Field) (n : Nat) : (s.wrapAdd f n).pwr = s.pwr := rfl
@[simp] theorem wrapAdd_rst (s : State) (f : Field) (n : Nat) : (s.wrapAdd f n).rst = s.rst := rfl
@[simp] theorem wrapAdd_eth (s : State) (f : Field) (n : Nat) : (s.wrapAdd f n).eth = s.eth := rfl
@[simp] theorem wrapAdd_ptp (s : State) (f : Field) (n : Nat) : (s.wrapAdd f n).ptp = s.ptp := rfl
@[simp] theorem wrapAdd_nvh (s : State) (f : Field) (n : Nat) : (s.wrapAdd f n).nvh = s.nvh := rfl
@[simp] theorem wrapAdd_dma (s : State) (f : Field) (n : Nat) : (s.wrapAdd f n).dma = s.dma := rfl
@[simp] theorem wrapAdd_stg (s : State) (f : Field) (n : Nat) : (s.wrapAdd f n).stg = s.stg := rfl
@[simp] theorem wrapAdd_hkc (s : State) (f : Field) (n : Nat) : (s.wrapAdd f n).hkc = s.hkc := rfl
@[simp] theorem wrapAdd_rdo (s : State) (f : Field) (n : Nat) : (s.wrapAdd f n).rdo = s.rdo := rfl
@[simp] theorem wrapAdd_cor (s : State) (f : Field) (n : Nat) : (s.wrapAdd f n).cor = s.cor := rfl
@[simp] theorem wrapAdd_walk (s : State) (f : Field) (n : Nat) : (s.wrapAdd f n).walk = s.walk := rfl
@[simp] theorem wrapAdd_cal (s : State) (f : Field) (n : Nat) : (s.wrapAdd f n).cal = s.cal := rfl
@[simp] theorem wrapAdd_trk (s : State) (f : Field) (n : Nat) : (s.wrapAdd f n).trk = s.trk := rfl
@[simp] theorem wrapAdd_ast (s : State) (f : Field) (n : Nat) : (s.wrapAdd f n).ast = s.ast := rfl
@[simp] theorem wrapAdd_drl (s : State) (f : Field) (n : Nat) : (s.wrapAdd f n).drl = s.drl := rfl
@[simp] theorem wrapAdd_vlv (s : State) (f : Field) (n : Nat) : (s.wrapAdd f n).vlv = s.vlv := rfl

@[simp] theorem putS_pending (s : State) (f : Field) (x : Int) : (s.putS f x).pending = s.pending := rfl
@[simp] theorem putS_shadow (s : State) (f : Field) (x : Int) : (s.putS f x).shadow = s.shadow := rfl
@[simp] theorem putS_mem (s : State) (f : Field) (x : Int) : (s.putS f x).mem = s.mem := rfl
@[simp] theorem putS_free (s : State) (f : Field) (x : Int) : (s.putS f x).free = s.free := rfl
@[simp] theorem putS_time (s : State) (f : Field) (x : Int) : (s.putS f x).time = s.time := rfl
@[simp] theorem putS_cfg (s : State) (f : Field) (x : Int) : (s.putS f x).cfg = s.cfg := rfl
@[simp] theorem putS_mpt (s : State) (f : Field) (x : Int) : (s.putS f x).mpt = s.mpt := rfl
@[simp] theorem putS_keep (s : State) (f : Field) (x : Int) : (s.putS f x).keep = s.keep := rfl
@[simp] theorem putS_pwr (s : State) (f : Field) (x : Int) : (s.putS f x).pwr = s.pwr := rfl
@[simp] theorem putS_rst (s : State) (f : Field) (x : Int) : (s.putS f x).rst = s.rst := rfl
@[simp] theorem putS_eth (s : State) (f : Field) (x : Int) : (s.putS f x).eth = s.eth := rfl
@[simp] theorem putS_ptp (s : State) (f : Field) (x : Int) : (s.putS f x).ptp = s.ptp := rfl
@[simp] theorem putS_nvh (s : State) (f : Field) (x : Int) : (s.putS f x).nvh = s.nvh := rfl
@[simp] theorem putS_dma (s : State) (f : Field) (x : Int) : (s.putS f x).dma = s.dma := rfl
@[simp] theorem putS_stg (s : State) (f : Field) (x : Int) : (s.putS f x).stg = s.stg := rfl
@[simp] theorem putS_hkc (s : State) (f : Field) (x : Int) : (s.putS f x).hkc = s.hkc := rfl
@[simp] theorem putS_rdo (s : State) (f : Field) (x : Int) : (s.putS f x).rdo = s.rdo := rfl
@[simp] theorem putS_cor (s : State) (f : Field) (x : Int) : (s.putS f x).cor = s.cor := rfl
@[simp] theorem putS_walk (s : State) (f : Field) (x : Int) : (s.putS f x).walk = s.walk := rfl
@[simp] theorem putS_cal (s : State) (f : Field) (x : Int) : (s.putS f x).cal = s.cal := rfl
@[simp] theorem putS_trk (s : State) (f : Field) (x : Int) : (s.putS f x).trk = s.trk := rfl
@[simp] theorem putS_ast (s : State) (f : Field) (x : Int) : (s.putS f x).ast = s.ast := rfl
@[simp] theorem putS_drl (s : State) (f : Field) (x : Int) : (s.putS f x).drl = s.drl := rfl
@[simp] theorem putS_vlv (s : State) (f : Field) (x : Int) : (s.putS f x).vlv = s.vlv := rfl

@[simp] theorem putSat_pending (s : State) (f : Field) (v : Nat) : (s.putSat f v).pending = s.pending := rfl
@[simp] theorem putSat_shadow (s : State) (f : Field) (v : Nat) : (s.putSat f v).shadow = s.shadow := rfl
@[simp] theorem putSat_mem (s : State) (f : Field) (v : Nat) : (s.putSat f v).mem = s.mem := rfl
@[simp] theorem putSat_free (s : State) (f : Field) (v : Nat) : (s.putSat f v).free = s.free := rfl
@[simp] theorem putSat_time (s : State) (f : Field) (v : Nat) : (s.putSat f v).time = s.time := rfl
@[simp] theorem putSat_cfg (s : State) (f : Field) (v : Nat) : (s.putSat f v).cfg = s.cfg := rfl
@[simp] theorem putSat_mpt (s : State) (f : Field) (v : Nat) : (s.putSat f v).mpt = s.mpt := rfl
@[simp] theorem putSat_keep (s : State) (f : Field) (v : Nat) : (s.putSat f v).keep = s.keep := rfl
@[simp] theorem putSat_pwr (s : State) (f : Field) (v : Nat) : (s.putSat f v).pwr = s.pwr := rfl
@[simp] theorem putSat_rst (s : State) (f : Field) (v : Nat) : (s.putSat f v).rst = s.rst := rfl
@[simp] theorem putSat_eth (s : State) (f : Field) (v : Nat) : (s.putSat f v).eth = s.eth := rfl
@[simp] theorem putSat_ptp (s : State) (f : Field) (v : Nat) : (s.putSat f v).ptp = s.ptp := rfl
@[simp] theorem putSat_nvh (s : State) (f : Field) (v : Nat) : (s.putSat f v).nvh = s.nvh := rfl
@[simp] theorem putSat_dma (s : State) (f : Field) (v : Nat) : (s.putSat f v).dma = s.dma := rfl
@[simp] theorem putSat_stg (s : State) (f : Field) (v : Nat) : (s.putSat f v).stg = s.stg := rfl
@[simp] theorem putSat_hkc (s : State) (f : Field) (v : Nat) : (s.putSat f v).hkc = s.hkc := rfl
@[simp] theorem putSat_rdo (s : State) (f : Field) (v : Nat) : (s.putSat f v).rdo = s.rdo := rfl
@[simp] theorem putSat_cor (s : State) (f : Field) (v : Nat) : (s.putSat f v).cor = s.cor := rfl
@[simp] theorem putSat_walk (s : State) (f : Field) (v : Nat) : (s.putSat f v).walk = s.walk := rfl
@[simp] theorem putSat_cal (s : State) (f : Field) (v : Nat) : (s.putSat f v).cal = s.cal := rfl
@[simp] theorem putSat_trk (s : State) (f : Field) (v : Nat) : (s.putSat f v).trk = s.trk := rfl
@[simp] theorem putSat_ast (s : State) (f : Field) (v : Nat) : (s.putSat f v).ast = s.ast := rfl
@[simp] theorem putSat_drl (s : State) (f : Field) (v : Nat) : (s.putSat f v).drl = s.drl := rfl
@[simp] theorem putSat_vlv (s : State) (f : Field) (v : Nat) : (s.putSat f v).vlv = s.vlv := rfl

@[simp] theorem setPair_pending (s : State) (a v : Nat) : (s.setPair a v).pending = s.pending := rfl
@[simp] theorem setPair_shadow (s : State) (a v : Nat) : (s.setPair a v).shadow = s.shadow := rfl
@[simp] theorem setPair_mem (s : State) (a v : Nat) : (s.setPair a v).mem = s.mem := rfl
@[simp] theorem setPair_free (s : State) (a v : Nat) : (s.setPair a v).free = s.free := rfl
@[simp] theorem setPair_time (s : State) (a v : Nat) : (s.setPair a v).time = s.time := rfl
@[simp] theorem setPair_cfg (s : State) (a v : Nat) : (s.setPair a v).cfg = s.cfg := rfl
@[simp] theorem setPair_mpt (s : State) (a v : Nat) : (s.setPair a v).mpt = s.mpt := rfl
@[simp] theorem setPair_keep (s : State) (a v : Nat) : (s.setPair a v).keep = s.keep := rfl
@[simp] theorem setPair_pwr (s : State) (a v : Nat) : (s.setPair a v).pwr = s.pwr := rfl
@[simp] theorem setPair_rst (s : State) (a v : Nat) : (s.setPair a v).rst = s.rst := rfl
@[simp] theorem setPair_eth (s : State) (a v : Nat) : (s.setPair a v).eth = s.eth := rfl
@[simp] theorem setPair_ptp (s : State) (a v : Nat) : (s.setPair a v).ptp = s.ptp := rfl
@[simp] theorem setPair_nvh (s : State) (a v : Nat) : (s.setPair a v).nvh = s.nvh := rfl
@[simp] theorem setPair_dma (s : State) (a v : Nat) : (s.setPair a v).dma = s.dma := rfl
@[simp] theorem setPair_stg (s : State) (a v : Nat) : (s.setPair a v).stg = s.stg := rfl
@[simp] theorem setPair_hkc (s : State) (a v : Nat) : (s.setPair a v).hkc = s.hkc := rfl
@[simp] theorem setPair_rdo (s : State) (a v : Nat) : (s.setPair a v).rdo = s.rdo := rfl
@[simp] theorem setPair_cor (s : State) (a v : Nat) : (s.setPair a v).cor = s.cor := rfl
@[simp] theorem setPair_walk (s : State) (a v : Nat) : (s.setPair a v).walk = s.walk := rfl
@[simp] theorem setPair_cal (s : State) (a v : Nat) : (s.setPair a v).cal = s.cal := rfl
@[simp] theorem setPair_trk (s : State) (a v : Nat) : (s.setPair a v).trk = s.trk := rfl
@[simp] theorem setPair_ast (s : State) (a v : Nat) : (s.setPair a v).ast = s.ast := rfl
@[simp] theorem setPair_drl (s : State) (a v : Nat) : (s.setPair a v).drl = s.drl := rfl
@[simp] theorem setPair_vlv (s : State) (a v : Nat) : (s.setPair a v).vlv = s.vlv := rfl

@[simp] theorem setByte_pending (s : State) (a : Nat) (b : Byte) : (s.setByte a b).pending = s.pending := rfl
@[simp] theorem setByte_regs (s : State) (a : Nat) (b : Byte) : (s.setByte a b).regs = s.regs := rfl
@[simp] theorem setByte_shadow (s : State) (a : Nat) (b : Byte) : (s.setByte a b).shadow = s.shadow := rfl
@[simp] theorem setByte_free (s : State) (a : Nat) (b : Byte) : (s.setByte a b).free = s.free := rfl
@[simp] theorem setByte_time (s : State) (a : Nat) (b : Byte) : (s.setByte a b).time = s.time := rfl
@[simp] theorem setByte_cfg (s : State) (a : Nat) (b : Byte) : (s.setByte a b).cfg = s.cfg := rfl
@[simp] theorem setByte_mpt (s : State) (a : Nat) (b : Byte) : (s.setByte a b).mpt = s.mpt := rfl
@[simp] theorem setByte_keep (s : State) (a : Nat) (b : Byte) : (s.setByte a b).keep = s.keep := rfl
@[simp] theorem setByte_pwr (s : State) (a : Nat) (b : Byte) : (s.setByte a b).pwr = s.pwr := rfl
@[simp] theorem setByte_rst (s : State) (a : Nat) (b : Byte) : (s.setByte a b).rst = s.rst := rfl
@[simp] theorem setByte_eth (s : State) (a : Nat) (b : Byte) : (s.setByte a b).eth = s.eth := rfl
@[simp] theorem setByte_ptp (s : State) (a : Nat) (b : Byte) : (s.setByte a b).ptp = s.ptp := rfl
@[simp] theorem setByte_nvh (s : State) (a : Nat) (b : Byte) : (s.setByte a b).nvh = s.nvh := rfl
@[simp] theorem setByte_dma (s : State) (a : Nat) (b : Byte) : (s.setByte a b).dma = s.dma := rfl
@[simp] theorem setByte_stg (s : State) (a : Nat) (b : Byte) : (s.setByte a b).stg = s.stg := rfl
@[simp] theorem setByte_hkc (s : State) (a : Nat) (b : Byte) : (s.setByte a b).hkc = s.hkc := rfl
@[simp] theorem setByte_rdo (s : State) (a : Nat) (b : Byte) : (s.setByte a b).rdo = s.rdo := rfl
@[simp] theorem setByte_cor (s : State) (a : Nat) (b : Byte) : (s.setByte a b).cor = s.cor := rfl
@[simp] theorem setByte_walk (s : State) (a : Nat) (b : Byte) : (s.setByte a b).walk = s.walk := rfl
@[simp] theorem setByte_cal (s : State) (a : Nat) (b : Byte) : (s.setByte a b).cal = s.cal := rfl
@[simp] theorem setByte_trk (s : State) (a : Nat) (b : Byte) : (s.setByte a b).trk = s.trk := rfl
@[simp] theorem setByte_ast (s : State) (a : Nat) (b : Byte) : (s.setByte a b).ast = s.ast := rfl
@[simp] theorem setByte_drl (s : State) (a : Nat) (b : Byte) : (s.setByte a b).drl = s.drl := rfl
@[simp] theorem setByte_vlv (s : State) (a : Nat) (b : Byte) : (s.setByte a b).vlv = s.vlv := rfl

@[simp] theorem setMemWord_pending (s : State) (a : Nat) (w : Word) : (s.setMemWord a w).pending = s.pending := rfl
@[simp] theorem setMemWord_regs (s : State) (a : Nat) (w : Word) : (s.setMemWord a w).regs = s.regs := rfl
@[simp] theorem setMemWord_shadow (s : State) (a : Nat) (w : Word) : (s.setMemWord a w).shadow = s.shadow := rfl
@[simp] theorem setMemWord_free (s : State) (a : Nat) (w : Word) : (s.setMemWord a w).free = s.free := rfl
@[simp] theorem setMemWord_time (s : State) (a : Nat) (w : Word) : (s.setMemWord a w).time = s.time := rfl
@[simp] theorem setMemWord_cfg (s : State) (a : Nat) (w : Word) : (s.setMemWord a w).cfg = s.cfg := rfl
@[simp] theorem setMemWord_mpt (s : State) (a : Nat) (w : Word) : (s.setMemWord a w).mpt = s.mpt := rfl
@[simp] theorem setMemWord_keep (s : State) (a : Nat) (w : Word) : (s.setMemWord a w).keep = s.keep := rfl
@[simp] theorem setMemWord_pwr (s : State) (a : Nat) (w : Word) : (s.setMemWord a w).pwr = s.pwr := rfl
@[simp] theorem setMemWord_rst (s : State) (a : Nat) (w : Word) : (s.setMemWord a w).rst = s.rst := rfl
@[simp] theorem setMemWord_eth (s : State) (a : Nat) (w : Word) : (s.setMemWord a w).eth = s.eth := rfl
@[simp] theorem setMemWord_ptp (s : State) (a : Nat) (w : Word) : (s.setMemWord a w).ptp = s.ptp := rfl
@[simp] theorem setMemWord_nvh (s : State) (a : Nat) (w : Word) : (s.setMemWord a w).nvh = s.nvh := rfl
@[simp] theorem setMemWord_dma (s : State) (a : Nat) (w : Word) : (s.setMemWord a w).dma = s.dma := rfl
@[simp] theorem setMemWord_stg (s : State) (a : Nat) (w : Word) : (s.setMemWord a w).stg = s.stg := rfl
@[simp] theorem setMemWord_hkc (s : State) (a : Nat) (w : Word) : (s.setMemWord a w).hkc = s.hkc := rfl
@[simp] theorem setMemWord_rdo (s : State) (a : Nat) (w : Word) : (s.setMemWord a w).rdo = s.rdo := rfl
@[simp] theorem setMemWord_cor (s : State) (a : Nat) (w : Word) : (s.setMemWord a w).cor = s.cor := rfl
@[simp] theorem setMemWord_walk (s : State) (a : Nat) (w : Word) : (s.setMemWord a w).walk = s.walk := rfl
@[simp] theorem setMemWord_cal (s : State) (a : Nat) (w : Word) : (s.setMemWord a w).cal = s.cal := rfl
@[simp] theorem setMemWord_trk (s : State) (a : Nat) (w : Word) : (s.setMemWord a w).trk = s.trk := rfl
@[simp] theorem setMemWord_ast (s : State) (a : Nat) (w : Word) : (s.setMemWord a w).ast = s.ast := rfl
@[simp] theorem setMemWord_drl (s : State) (a : Nat) (w : Word) : (s.setMemWord a w).drl = s.drl := rfl
@[simp] theorem setMemWord_vlv (s : State) (a : Nat) (w : Word) : (s.setMemWord a w).vlv = s.vlv := rfl

@[simp] theorem putBytes_pending (s : State) (a : Nat) (bs : List Byte) : (s.putBytes a bs).pending = s.pending := rfl
@[simp] theorem putBytes_regs (s : State) (a : Nat) (bs : List Byte) : (s.putBytes a bs).regs = s.regs := rfl
@[simp] theorem putBytes_shadow (s : State) (a : Nat) (bs : List Byte) : (s.putBytes a bs).shadow = s.shadow := rfl
@[simp] theorem putBytes_free (s : State) (a : Nat) (bs : List Byte) : (s.putBytes a bs).free = s.free := rfl
@[simp] theorem putBytes_time (s : State) (a : Nat) (bs : List Byte) : (s.putBytes a bs).time = s.time := rfl
@[simp] theorem putBytes_cfg (s : State) (a : Nat) (bs : List Byte) : (s.putBytes a bs).cfg = s.cfg := rfl
@[simp] theorem putBytes_mpt (s : State) (a : Nat) (bs : List Byte) : (s.putBytes a bs).mpt = s.mpt := rfl
@[simp] theorem putBytes_keep (s : State) (a : Nat) (bs : List Byte) : (s.putBytes a bs).keep = s.keep := rfl
@[simp] theorem putBytes_pwr (s : State) (a : Nat) (bs : List Byte) : (s.putBytes a bs).pwr = s.pwr := rfl
@[simp] theorem putBytes_rst (s : State) (a : Nat) (bs : List Byte) : (s.putBytes a bs).rst = s.rst := rfl
@[simp] theorem putBytes_eth (s : State) (a : Nat) (bs : List Byte) : (s.putBytes a bs).eth = s.eth := rfl
@[simp] theorem putBytes_ptp (s : State) (a : Nat) (bs : List Byte) : (s.putBytes a bs).ptp = s.ptp := rfl
@[simp] theorem putBytes_nvh (s : State) (a : Nat) (bs : List Byte) : (s.putBytes a bs).nvh = s.nvh := rfl
@[simp] theorem putBytes_dma (s : State) (a : Nat) (bs : List Byte) : (s.putBytes a bs).dma = s.dma := rfl
@[simp] theorem putBytes_stg (s : State) (a : Nat) (bs : List Byte) : (s.putBytes a bs).stg = s.stg := rfl
@[simp] theorem putBytes_hkc (s : State) (a : Nat) (bs : List Byte) : (s.putBytes a bs).hkc = s.hkc := rfl
@[simp] theorem putBytes_rdo (s : State) (a : Nat) (bs : List Byte) : (s.putBytes a bs).rdo = s.rdo := rfl
@[simp] theorem putBytes_cor (s : State) (a : Nat) (bs : List Byte) : (s.putBytes a bs).cor = s.cor := rfl
@[simp] theorem putBytes_walk (s : State) (a : Nat) (bs : List Byte) : (s.putBytes a bs).walk = s.walk := rfl
@[simp] theorem putBytes_cal (s : State) (a : Nat) (bs : List Byte) : (s.putBytes a bs).cal = s.cal := rfl
@[simp] theorem putBytes_trk (s : State) (a : Nat) (bs : List Byte) : (s.putBytes a bs).trk = s.trk := rfl
@[simp] theorem putBytes_ast (s : State) (a : Nat) (bs : List Byte) : (s.putBytes a bs).ast = s.ast := rfl
@[simp] theorem putBytes_drl (s : State) (a : Nat) (bs : List Byte) : (s.putBytes a bs).drl = s.drl := rfl
@[simp] theorem putBytes_vlv (s : State) (a : Nat) (bs : List Byte) : (s.putBytes a bs).vlv = s.vlv := rfl

@[simp] theorem draw_pending (s : State) : (s.draw).pending = s.pending := rfl
@[simp] theorem draw_regs (s : State) : (s.draw).regs = s.regs := rfl
@[simp] theorem draw_shadow (s : State) : (s.draw).shadow = s.shadow := rfl
@[simp] theorem draw_mem (s : State) : (s.draw).mem = s.mem := rfl
@[simp] theorem draw_time (s : State) : (s.draw).time = s.time := rfl
@[simp] theorem draw_cfg (s : State) : (s.draw).cfg = s.cfg := rfl
@[simp] theorem draw_mpt (s : State) : (s.draw).mpt = s.mpt := rfl
@[simp] theorem draw_keep (s : State) : (s.draw).keep = s.keep := rfl
@[simp] theorem draw_pwr (s : State) : (s.draw).pwr = s.pwr := rfl
@[simp] theorem draw_rst (s : State) : (s.draw).rst = s.rst := rfl
@[simp] theorem draw_eth (s : State) : (s.draw).eth = s.eth := rfl
@[simp] theorem draw_ptp (s : State) : (s.draw).ptp = s.ptp := rfl
@[simp] theorem draw_nvh (s : State) : (s.draw).nvh = s.nvh := rfl
@[simp] theorem draw_dma (s : State) : (s.draw).dma = s.dma := rfl
@[simp] theorem draw_stg (s : State) : (s.draw).stg = s.stg := rfl
@[simp] theorem draw_hkc (s : State) : (s.draw).hkc = s.hkc := rfl
@[simp] theorem draw_rdo (s : State) : (s.draw).rdo = s.rdo := rfl
@[simp] theorem draw_cor (s : State) : (s.draw).cor = s.cor := rfl
@[simp] theorem draw_walk (s : State) : (s.draw).walk = s.walk := rfl
@[simp] theorem draw_cal (s : State) : (s.draw).cal = s.cal := rfl
@[simp] theorem draw_trk (s : State) : (s.draw).trk = s.trk := rfl
@[simp] theorem draw_ast (s : State) : (s.draw).ast = s.ast := rfl
@[simp] theorem draw_drl (s : State) : (s.draw).drl = s.drl := rfl
@[simp] theorem draw_vlv (s : State) : (s.draw).vlv = s.vlv := rfl

@[simp] theorem elapse_pending (s : State) (n : Nat) : (s.elapse n).pending = s.pending := rfl
@[simp] theorem elapse_regs (s : State) (n : Nat) : (s.elapse n).regs = s.regs := rfl
@[simp] theorem elapse_shadow (s : State) (n : Nat) : (s.elapse n).shadow = s.shadow := rfl
@[simp] theorem elapse_mem (s : State) (n : Nat) : (s.elapse n).mem = s.mem := rfl
@[simp] theorem elapse_free (s : State) (n : Nat) : (s.elapse n).free = s.free := rfl
@[simp] theorem elapse_cfg (s : State) (n : Nat) : (s.elapse n).cfg = s.cfg := rfl
@[simp] theorem elapse_mpt (s : State) (n : Nat) : (s.elapse n).mpt = s.mpt := rfl
@[simp] theorem elapse_keep (s : State) (n : Nat) : (s.elapse n).keep = s.keep := rfl
@[simp] theorem elapse_pwr (s : State) (n : Nat) : (s.elapse n).pwr = s.pwr := rfl
@[simp] theorem elapse_rst (s : State) (n : Nat) : (s.elapse n).rst = s.rst := rfl
@[simp] theorem elapse_eth (s : State) (n : Nat) : (s.elapse n).eth = s.eth := rfl
@[simp] theorem elapse_ptp (s : State) (n : Nat) : (s.elapse n).ptp = s.ptp := rfl
@[simp] theorem elapse_nvh (s : State) (n : Nat) : (s.elapse n).nvh = s.nvh := rfl
@[simp] theorem elapse_dma (s : State) (n : Nat) : (s.elapse n).dma = s.dma := rfl
@[simp] theorem elapse_stg (s : State) (n : Nat) : (s.elapse n).stg = s.stg := rfl
@[simp] theorem elapse_hkc (s : State) (n : Nat) : (s.elapse n).hkc = s.hkc := rfl
@[simp] theorem elapse_rdo (s : State) (n : Nat) : (s.elapse n).rdo = s.rdo := rfl
@[simp] theorem elapse_cor (s : State) (n : Nat) : (s.elapse n).cor = s.cor := rfl
@[simp] theorem elapse_walk (s : State) (n : Nat) : (s.elapse n).walk = s.walk := rfl
@[simp] theorem elapse_cal (s : State) (n : Nat) : (s.elapse n).cal = s.cal := rfl
@[simp] theorem elapse_trk (s : State) (n : Nat) : (s.elapse n).trk = s.trk := rfl
@[simp] theorem elapse_ast (s : State) (n : Nat) : (s.elapse n).ast = s.ast := rfl
@[simp] theorem elapse_drl (s : State) (n : Nat) : (s.elapse n).drl = s.drl := rfl
@[simp] theorem elapse_vlv (s : State) (n : Nat) : (s.elapse n).vlv = s.vlv := rfl

@[simp] theorem arm_pending (s : State) (k n : Nat) : (s.arm k n).pending = s.pending := rfl
@[simp] theorem arm_regs (s : State) (k n : Nat) : (s.arm k n).regs = s.regs := rfl
@[simp] theorem arm_shadow (s : State) (k n : Nat) : (s.arm k n).shadow = s.shadow := rfl
@[simp] theorem arm_mem (s : State) (k n : Nat) : (s.arm k n).mem = s.mem := rfl
@[simp] theorem arm_free (s : State) (k n : Nat) : (s.arm k n).free = s.free := rfl
@[simp] theorem arm_cfg (s : State) (k n : Nat) : (s.arm k n).cfg = s.cfg := rfl
@[simp] theorem arm_mpt (s : State) (k n : Nat) : (s.arm k n).mpt = s.mpt := rfl
@[simp] theorem arm_keep (s : State) (k n : Nat) : (s.arm k n).keep = s.keep := rfl
@[simp] theorem arm_pwr (s : State) (k n : Nat) : (s.arm k n).pwr = s.pwr := rfl
@[simp] theorem arm_rst (s : State) (k n : Nat) : (s.arm k n).rst = s.rst := rfl
@[simp] theorem arm_eth (s : State) (k n : Nat) : (s.arm k n).eth = s.eth := rfl
@[simp] theorem arm_ptp (s : State) (k n : Nat) : (s.arm k n).ptp = s.ptp := rfl
@[simp] theorem arm_nvh (s : State) (k n : Nat) : (s.arm k n).nvh = s.nvh := rfl
@[simp] theorem arm_dma (s : State) (k n : Nat) : (s.arm k n).dma = s.dma := rfl
@[simp] theorem arm_stg (s : State) (k n : Nat) : (s.arm k n).stg = s.stg := rfl
@[simp] theorem arm_hkc (s : State) (k n : Nat) : (s.arm k n).hkc = s.hkc := rfl
@[simp] theorem arm_rdo (s : State) (k n : Nat) : (s.arm k n).rdo = s.rdo := rfl
@[simp] theorem arm_cor (s : State) (k n : Nat) : (s.arm k n).cor = s.cor := rfl
@[simp] theorem arm_walk (s : State) (k n : Nat) : (s.arm k n).walk = s.walk := rfl
@[simp] theorem arm_cal (s : State) (k n : Nat) : (s.arm k n).cal = s.cal := rfl
@[simp] theorem arm_trk (s : State) (k n : Nat) : (s.arm k n).trk = s.trk := rfl
@[simp] theorem arm_ast (s : State) (k n : Nat) : (s.arm k n).ast = s.ast := rfl
@[simp] theorem arm_drl (s : State) (k n : Nat) : (s.arm k n).drl = s.drl := rfl
@[simp] theorem arm_vlv (s : State) (k n : Nat) : (s.arm k n).vlv = s.vlv := rfl

@[simp] theorem disarm_pending (s : State) (k : Nat) : (s.disarm k).pending = s.pending := rfl
@[simp] theorem disarm_regs (s : State) (k : Nat) : (s.disarm k).regs = s.regs := rfl
@[simp] theorem disarm_shadow (s : State) (k : Nat) : (s.disarm k).shadow = s.shadow := rfl
@[simp] theorem disarm_mem (s : State) (k : Nat) : (s.disarm k).mem = s.mem := rfl
@[simp] theorem disarm_free (s : State) (k : Nat) : (s.disarm k).free = s.free := rfl
@[simp] theorem disarm_cfg (s : State) (k : Nat) : (s.disarm k).cfg = s.cfg := rfl
@[simp] theorem disarm_mpt (s : State) (k : Nat) : (s.disarm k).mpt = s.mpt := rfl
@[simp] theorem disarm_keep (s : State) (k : Nat) : (s.disarm k).keep = s.keep := rfl
@[simp] theorem disarm_pwr (s : State) (k : Nat) : (s.disarm k).pwr = s.pwr := rfl
@[simp] theorem disarm_rst (s : State) (k : Nat) : (s.disarm k).rst = s.rst := rfl
@[simp] theorem disarm_eth (s : State) (k : Nat) : (s.disarm k).eth = s.eth := rfl
@[simp] theorem disarm_ptp (s : State) (k : Nat) : (s.disarm k).ptp = s.ptp := rfl
@[simp] theorem disarm_nvh (s : State) (k : Nat) : (s.disarm k).nvh = s.nvh := rfl
@[simp] theorem disarm_dma (s : State) (k : Nat) : (s.disarm k).dma = s.dma := rfl
@[simp] theorem disarm_stg (s : State) (k : Nat) : (s.disarm k).stg = s.stg := rfl
@[simp] theorem disarm_hkc (s : State) (k : Nat) : (s.disarm k).hkc = s.hkc := rfl
@[simp] theorem disarm_rdo (s : State) (k : Nat) : (s.disarm k).rdo = s.rdo := rfl
@[simp] theorem disarm_cor (s : State) (k : Nat) : (s.disarm k).cor = s.cor := rfl
@[simp] theorem disarm_walk (s : State) (k : Nat) : (s.disarm k).walk = s.walk := rfl
@[simp] theorem disarm_cal (s : State) (k : Nat) : (s.disarm k).cal = s.cal := rfl
@[simp] theorem disarm_trk (s : State) (k : Nat) : (s.disarm k).trk = s.trk := rfl
@[simp] theorem disarm_ast (s : State) (k : Nat) : (s.disarm k).ast = s.ast := rfl
@[simp] theorem disarm_drl (s : State) (k : Nat) : (s.disarm k).drl = s.drl := rfl
@[simp] theorem disarm_vlv (s : State) (k : Nat) : (s.disarm k).vlv = s.vlv := rfl

@[simp] theorem setDomain_pending (s : State) (d v : Nat) : (s.setDomain d v).pending = s.pending := rfl
@[simp] theorem setDomain_shadow (s : State) (d v : Nat) : (s.setDomain d v).shadow = s.shadow := rfl
@[simp] theorem setDomain_mem (s : State) (d v : Nat) : (s.setDomain d v).mem = s.mem := rfl
@[simp] theorem setDomain_free (s : State) (d v : Nat) : (s.setDomain d v).free = s.free := rfl
@[simp] theorem setDomain_time (s : State) (d v : Nat) : (s.setDomain d v).time = s.time := rfl
@[simp] theorem setDomain_cfg (s : State) (d v : Nat) : (s.setDomain d v).cfg = s.cfg := rfl
@[simp] theorem setDomain_mpt (s : State) (d v : Nat) : (s.setDomain d v).mpt = s.mpt := rfl
@[simp] theorem setDomain_keep (s : State) (d v : Nat) : (s.setDomain d v).keep = s.keep := rfl
@[simp] theorem setDomain_pwr (s : State) (d v : Nat) : (s.setDomain d v).pwr = s.pwr := rfl
@[simp] theorem setDomain_rst (s : State) (d v : Nat) : (s.setDomain d v).rst = s.rst := rfl
@[simp] theorem setDomain_eth (s : State) (d v : Nat) : (s.setDomain d v).eth = s.eth := rfl
@[simp] theorem setDomain_ptp (s : State) (d v : Nat) : (s.setDomain d v).ptp = s.ptp := rfl
@[simp] theorem setDomain_nvh (s : State) (d v : Nat) : (s.setDomain d v).nvh = s.nvh := rfl
@[simp] theorem setDomain_dma (s : State) (d v : Nat) : (s.setDomain d v).dma = s.dma := rfl
@[simp] theorem setDomain_stg (s : State) (d v : Nat) : (s.setDomain d v).stg = s.stg := rfl
@[simp] theorem setDomain_hkc (s : State) (d v : Nat) : (s.setDomain d v).hkc = s.hkc := rfl
@[simp] theorem setDomain_rdo (s : State) (d v : Nat) : (s.setDomain d v).rdo = s.rdo := rfl
@[simp] theorem setDomain_cor (s : State) (d v : Nat) : (s.setDomain d v).cor = s.cor := rfl
@[simp] theorem setDomain_walk (s : State) (d v : Nat) : (s.setDomain d v).walk = s.walk := rfl
@[simp] theorem setDomain_cal (s : State) (d v : Nat) : (s.setDomain d v).cal = s.cal := rfl
@[simp] theorem setDomain_trk (s : State) (d v : Nat) : (s.setDomain d v).trk = s.trk := rfl
@[simp] theorem setDomain_ast (s : State) (d v : Nat) : (s.setDomain d v).ast = s.ast := rfl
@[simp] theorem setDomain_drl (s : State) (d v : Nat) : (s.setDomain d v).drl = s.drl := rfl
@[simp] theorem setDomain_vlv (s : State) (d v : Nat) : (s.setDomain d v).vlv = s.vlv := rfl

@[simp] theorem bumpCounter_pending (s : State) (i n : Nat) : (s.bumpCounter i n).pending = s.pending := setPair_pending _ _ _
@[simp] theorem bumpCounter_shadow (s : State) (i n : Nat) : (s.bumpCounter i n).shadow = s.shadow := setPair_shadow _ _ _
@[simp] theorem bumpCounter_mem (s : State) (i n : Nat) : (s.bumpCounter i n).mem = s.mem := setPair_mem _ _ _
@[simp] theorem bumpCounter_free (s : State) (i n : Nat) : (s.bumpCounter i n).free = s.free := setPair_free _ _ _
@[simp] theorem bumpCounter_time (s : State) (i n : Nat) : (s.bumpCounter i n).time = s.time := setPair_time _ _ _
@[simp] theorem bumpCounter_cfg (s : State) (i n : Nat) : (s.bumpCounter i n).cfg = s.cfg := setPair_cfg _ _ _
@[simp] theorem bumpCounter_mpt (s : State) (i n : Nat) : (s.bumpCounter i n).mpt = s.mpt := setPair_mpt _ _ _
@[simp] theorem bumpCounter_keep (s : State) (i n : Nat) : (s.bumpCounter i n).keep = s.keep := setPair_keep _ _ _
@[simp] theorem bumpCounter_pwr (s : State) (i n : Nat) : (s.bumpCounter i n).pwr = s.pwr := setPair_pwr _ _ _
@[simp] theorem bumpCounter_rst (s : State) (i n : Nat) : (s.bumpCounter i n).rst = s.rst := setPair_rst _ _ _
@[simp] theorem bumpCounter_eth (s : State) (i n : Nat) : (s.bumpCounter i n).eth = s.eth := setPair_eth _ _ _
@[simp] theorem bumpCounter_ptp (s : State) (i n : Nat) : (s.bumpCounter i n).ptp = s.ptp := setPair_ptp _ _ _
@[simp] theorem bumpCounter_nvh (s : State) (i n : Nat) : (s.bumpCounter i n).nvh = s.nvh := setPair_nvh _ _ _
@[simp] theorem bumpCounter_dma (s : State) (i n : Nat) : (s.bumpCounter i n).dma = s.dma := setPair_dma _ _ _
@[simp] theorem bumpCounter_stg (s : State) (i n : Nat) : (s.bumpCounter i n).stg = s.stg := setPair_stg _ _ _
@[simp] theorem bumpCounter_hkc (s : State) (i n : Nat) : (s.bumpCounter i n).hkc = s.hkc := setPair_hkc _ _ _
@[simp] theorem bumpCounter_rdo (s : State) (i n : Nat) : (s.bumpCounter i n).rdo = s.rdo := setPair_rdo _ _ _
@[simp] theorem bumpCounter_cor (s : State) (i n : Nat) : (s.bumpCounter i n).cor = s.cor := setPair_cor _ _ _
@[simp] theorem bumpCounter_walk (s : State) (i n : Nat) : (s.bumpCounter i n).walk = s.walk := setPair_walk _ _ _
@[simp] theorem bumpCounter_cal (s : State) (i n : Nat) : (s.bumpCounter i n).cal = s.cal := setPair_cal _ _ _
@[simp] theorem bumpCounter_trk (s : State) (i n : Nat) : (s.bumpCounter i n).trk = s.trk := setPair_trk _ _ _
@[simp] theorem bumpCounter_ast (s : State) (i n : Nat) : (s.bumpCounter i n).ast = s.ast := setPair_ast _ _ _
@[simp] theorem bumpCounter_drl (s : State) (i n : Nat) : (s.bumpCounter i n).drl = s.drl := setPair_drl _ _ _
@[simp] theorem bumpCounter_vlv (s : State) (i n : Nat) : (s.bumpCounter i n).vlv = s.vlv := setPair_vlv _ _ _

end Sys2Proof.Laws
end

