-- ==== Sys2Proof/Laws/Registers.lean ====
section
/-!
SUPPORT. Reads after writes: sparse maps, registers, fields and window bytes. Each lemma says once what a write does to a read of the same
place and of another one.
-/
namespace Sys2Proof.Laws

open Sys2Proof.Machine

/-! ### Sparse maps -/

theorem find_erase_self {α : Type} {m : Map α} {k : Nat} : Map.find (Map.erase m k) k = none := by
  induction m with
  | nil => rfl
  | cons e m ih =>
    obtain ⟨j, v⟩ := e
    unfold Map.erase
    split
    · exact ih
    · rename_i h
      simp [Map.find, h, ih]

theorem find_erase_ne {α : Type} {m : Map α} {k l : Nat} (h : l ≠ k) : Map.find (Map.erase m k) l = Map.find m l := by
  induction m with
  | nil => rfl
  | cons e m ih =>
    obtain ⟨j, v⟩ := e
    unfold Map.erase
    split
    · rename_i hj
      subst hj
      rw [ih]
      simp [Map.find, Ne.symm h]
    · simp [Map.find, ih]

theorem find_insert_self {α : Type} {m : Map α} {k : Nat} {w : α} : Map.find (Map.insert m k w) k = some w := by
  induction m with
  | nil => simp [Map.insert, Map.find]
  | cons e m ih =>
    obtain ⟨j, v⟩ := e
    unfold Map.insert
    split
    · simp [Map.find]
    · split
      · simp [Map.find]
      · rename_i h
        simp [Map.find, Ne.symm h, ih]

theorem find_insert_ne {α : Type} {m : Map α} {k l : Nat} {w : α} (h : l ≠ k) : Map.find (Map.insert m k w) l = Map.find m l := by
  induction m with
  | nil => simp [Map.insert, Map.find, Ne.symm h]
  | cons e m ih =>
    obtain ⟨j, v⟩ := e
    unfold Map.insert
    split
    · simp [Map.find, Ne.symm h]
    · split
      · rename_i hj
        subst hj
        simp [Map.find, Ne.symm h]
      · simp [Map.find, ih]

/-- A key reads the value written to it. -/
theorem read_write_self {α : Type} [DecidableEq α] {d : Nat → α} {m : Map α} {k : Nat} {v : α} : Map.read d (Map.write d m k v) k = v := by
  unfold Map.write Map.read
  split
  · rename_i h
    rw [find_erase_self]
    exact h.symm
  · rw [find_insert_self]
    rfl

/-- Every other key reads as before. -/
theorem read_write_ne {α : Type} [DecidableEq α] {d : Nat → α} {m : Map α} {k l : Nat} {v : α} (h : l ≠ k) :
    Map.read d (Map.write d m k v) l = Map.read d m l := by
  unfold Map.write Map.read
  split
  · rw [find_erase_ne h]
  · rw [find_insert_ne h]

/-! ### Registers and fields -/

@[simp] theorem word_setWord_self (s : State) (a : Nat) (w : Word) : (s.setWord a w).word a = w := read_write_self

theorem word_setWord_ne {s : State} {a b : Nat} {w : Word} (h : b ≠ a) : (s.setWord a w).word b = s.word b := read_write_ne h

theorem word_put_self (s : State) (f : Field) (v : Nat) : (s.put f v).word f.addr = f.into (s.word f.addr) v := read_write_self

theorem word_put_ne {s : State} {f : Field} {v b : Nat} (h : b ≠ f.addr) : (s.put f v).word b = s.word b := read_write_ne h

theorem get_put_ne {s : State} {f g : Field} {v : Nat} (h : g.addr ≠ f.addr) : (s.put f v).get g = s.get g := by
  unfold State.get
  rw [word_put_ne h]

/-- A field's bits as an equation of numbers. -/
theorem bits_eq (n lo w : Nat) : bits n lo w = n / 2 ^ lo % 2 ^ w := rfl

/-- What stands below, in and above a field sums to the word. -/
theorem field_split (n lo w : Nat) : n = n % 2 ^ lo + 2 ^ lo * (n / 2 ^ lo % 2 ^ w) + 2 ^ (lo + w) * (n / 2 ^ (lo + w)) := by
  have h1 := Nat.div_add_mod n (2 ^ lo)
  have h2 := Nat.div_add_mod (n / 2 ^ lo) (2 ^ w)
  rw [Nat.div_div_eq_div_mul, ← Nat.pow_add] at h2
  have h3 : 2 ^ (lo + w) = 2 ^ lo * 2 ^ w := Nat.pow_add 2 lo w
  rw [h3, Nat.mul_assoc]
  rw [h3] at h2
  calc n = 2 ^ lo * (n / 2 ^ lo) + n % 2 ^ lo := h1.symm
    _ = 2 ^ lo * (2 ^ w * (n / (2 ^ lo * 2 ^ w)) + n / 2 ^ lo % 2 ^ w) + n % 2 ^ lo := by rw [h2]
    _ = n % 2 ^ lo + 2 ^ lo * (n / 2 ^ lo % 2 ^ w) + 2 ^ lo * (2 ^ w * (n / (2 ^ lo * 2 ^ w))) := by rw [Nat.mul_add]; omega

/-- Replacing a field: what stands below and above it stays. -/
theorem into_toNat (f : Field) (w : Word) (v : Nat) (h : f.lo + f.width ≤ 32) :
    (f.into w v).toNat = w.toNat % 2 ^ f.lo + 2 ^ f.lo * (v % 2 ^ f.width) + 2 ^ (f.lo + f.width) * (w.toNat / 2 ^ (f.lo + f.width)) := by
  have hs := field_split w.toNat f.lo f.width
  have hv : v % 2 ^ f.width < 2 ^ f.width := Nat.mod_lt _ (Nat.two_pow_pos _)
  have hl : w.toNat % 2 ^ f.lo < 2 ^ f.lo := Nat.mod_lt _ (Nat.two_pow_pos _)
  have hw : w.toNat < 2 ^ 32 := w.isLt
  have hp : 2 ^ (f.lo + f.width) = 2 ^ f.lo * 2 ^ f.width := Nat.pow_add 2 _ _
  have hq : 2 ^ 32 = 2 ^ (f.lo + f.width) * 2 ^ (32 - (f.lo + f.width)) := by rw [← Nat.pow_add]; congr 1; omega
  have hb : w.toNat / 2 ^ (f.lo + f.width) < 2 ^ (32 - (f.lo + f.width)) :=
    Nat.div_lt_of_lt_mul (by rw [← hq]; exact hw)
  unfold Field.into Field.of
  rw [bits_eq, BitVec.toNat_ofNat]
  have e : w.toNat - w.toNat / 2 ^ f.lo % 2 ^ f.width * 2 ^ f.lo + v % 2 ^ f.width * 2 ^ f.lo =
      w.toNat % 2 ^ f.lo + 2 ^ f.lo * (v % 2 ^ f.width) + 2 ^ (f.lo + f.width) * (w.toNat / 2 ^ (f.lo + f.width)) := by
    rw [Nat.mul_comm (w.toNat / 2 ^ f.lo % 2 ^ f.width), Nat.mul_comm (v % 2 ^ f.width)]
    omega
  rw [e]
  apply Nat.mod_eq_of_lt
  have c1 : w.toNat % 2 ^ f.lo + 2 ^ f.lo * (v % 2 ^ f.width) < 2 ^ (f.lo + f.width) := by
    rw [hp]
    calc w.toNat % 2 ^ f.lo + 2 ^ f.lo * (v % 2 ^ f.width) < 2 ^ f.lo + 2 ^ f.lo * (v % 2 ^ f.width) := by omega
      _ = 2 ^ f.lo * (v % 2 ^ f.width + 1) := by rw [Nat.mul_add]; omega
      _ ≤ 2 ^ f.lo * 2 ^ f.width := Nat.mul_le_mul_left _ hv
  calc _ < 2 ^ (f.lo + f.width) + 2 ^ (f.lo + f.width) * (w.toNat / 2 ^ (f.lo + f.width)) := by omega
    _ = 2 ^ (f.lo + f.width) * (w.toNat / 2 ^ (f.lo + f.width) + 1) := by rw [Nat.mul_add]; omega
    _ ≤ 2 ^ (f.lo + f.width) * 2 ^ (32 - (f.lo + f.width)) := Nat.mul_le_mul_left _ hb
    _ = 2 ^ 32 := hq.symm

/-- A field reads what was put into it, cut to its width. -/
theorem of_into_self (f : Field) (w : Word) (v : Nat) (h : f.lo + f.width ≤ 32) : f.of (f.into w v) = v % 2 ^ f.width := by
  have hl : w.toNat % 2 ^ f.lo < 2 ^ f.lo := Nat.mod_lt _ (Nat.two_pow_pos _)
  unfold Field.of
  rw [into_toNat f w v h, bits_eq, Nat.pow_add, Nat.mul_assoc, Nat.add_assoc, ← Nat.mul_add,
    Nat.add_mul_div_left _ _ (Nat.two_pow_pos _), Nat.div_eq_of_lt hl, Nat.zero_add, Nat.add_mul_mod_self_left, Nat.mod_mod]

theorem get_put_self (s : State) (f : Field) (v : Nat) (h : f.lo + f.width ≤ 32) : (s.put f v).get f = v % 2 ^ f.width := by
  unfold State.get
  rw [word_put_self, of_into_self f _ v h]

/-! ### Pairs of registers, and what leaves registers alone -/

theorem pair_setPair_self (s : State) (a v : Nat) : (s.setPair a v).pair a = v % 2 ^ 64 := by
  unfold State.pair State.setPair
  rw [word_setWord_ne (by omega), word_setWord_self, word_setWord_self, BitVec.toNat_ofNat, BitVec.toNat_ofNat]
  omega

theorem word_setPair_ne {s : State} {a v b : Nat} (h : b ≠ a) (h2 : b ≠ a + 4) : (s.setPair a v).word b = s.word b := by
  unfold State.setPair
  rw [word_setWord_ne h2, word_setWord_ne h]

/-- A wear counter after an increment (R377). -/
theorem pair_bumpCounter_self (s : State) (i n : Nat) :
    (s.bumpCounter i n).pair (Reg.KEP_CNT_LO i) = Nat.min (s.pair (Reg.KEP_CNT_LO i) + n) (2 ^ 48 - 1) := by
  unfold State.bumpCounter
  rw [pair_setPair_self, Nat.mod_eq_of_lt]
  exact Nat.lt_of_le_of_lt (Nat.min_le_right _ _) (by decide)

@[simp] theorem word_applied (s : State) (a : Nat) : s.applied.word a = s.word a := rfl
@[simp] theorem pair_applied (s : State) (a : Nat) : s.applied.pair a = s.pair a := rfl
@[simp] theorem get_applied (s : State) (f : Field) : s.applied.get f = s.get f := rfl
@[simp] theorem byte_applied (s : State) (a : Nat) : s.applied.byte a = s.byte a := rfl
@[simp] theorem word_elapse (s : State) (n a : Nat) : (s.elapse n).word a = s.word a := rfl
@[simp] theorem get_elapse (s : State) (n : Nat) (f : Field) : (s.elapse n).get f = s.get f := rfl
@[simp] theorem word_elapseTo (s : State) (n a : Nat) : (s.elapseTo n).word a = s.word a := by unfold State.elapseTo; split <;> rfl
@[simp] theorem get_elapseTo (s : State) (n : Nat) (f : Field) : (s.elapseTo n).get f = s.get f := by
  unfold State.elapseTo; split <;> rfl
@[simp] theorem word_arm (s : State) (k n a : Nat) : (s.arm k n).word a = s.word a := rfl
@[simp] theorem get_arm (s : State) (k n : Nat) (f : Field) : (s.arm k n).get f = s.get f := rfl
@[simp] theorem word_disarm (s : State) (k a : Nat) : (s.disarm k).word a = s.word a := rfl
@[simp] theorem get_disarm (s : State) (k : Nat) (f : Field) : (s.disarm k).get f = s.get f := rfl

/-- A timer just started falls due n ticks from now. -/
@[simp] theorem due_arm_self (s : State) (k n : Nat) : (s.arm k n).due k = some (s.time.ticks + n) := find_insert_self

/-- A host word that was taken. -/
theorem host_some {s t : State} {a : Nat} (h : s.reaches a = true) : s.host a (some t) = t.applied := by
  simp [State.host, State.hostDone, State.judged, h]

/-- A host word that was REFUSED. -/
theorem host_none {s : State} {a : Nat} (h : s.reaches a = true) : s.host a none = s.refuse a := by
  simp [State.host, State.hostDone, State.judged, h]

/-- A pair written and the word applied: nothing but registers and the status differs. -/
theorem onlyApplied_setPair (s : State) (a v : Nat) : Safety.OnlyApplied s (s.setPair a v).applied := rfl

/-! ### Window bytes -/

@[simp] theorem byte_setByte_self (s : State) (a : Nat) (b : Byte) : (s.setByte a b).byte a = b := read_write_self

theorem byte_setByte_ne {s : State} {a c : Nat} {b : Byte} (h : c ≠ a) : (s.setByte a b).byte c = s.byte c := read_write_ne h

/-- A run of bytes leaves every other byte alone. -/
theorem read_writeBytes_out {m : List Host.Cell} {a c : Nat} {bs : List Byte} (h : c < a ∨ a + bs.length ≤ c) :
    Map.read memDefault (Memory.writeBytes m a bs) c = Map.read memDefault m c := by
  induction bs generalizing m a with
  | nil => rfl
  | cons b bs ih =>
    simp only [List.length_cons] at h
    unfold Memory.writeBytes
    rw [ih (by omega), read_write_ne (by omega)]

/-- A run of bytes is read back. -/
theorem read_writeBytes_in {m : List Host.Cell} {a i : Nat} {bs : List Byte} (h : i < bs.length) :
    Map.read memDefault (Memory.writeBytes m a bs) (a + i) = bs[i] := by
  induction bs generalizing m a i with
  | nil => simp at h
  | cons b bs ih =>
    unfold Memory.writeBytes
    cases i with
    | zero =>
      rw [read_writeBytes_out (by omega)]
      exact read_write_self
    | succ i =>
      have := ih (m := Map.write memDefault m a b) (a := a + 1) (i := i) (by simpa using h)
      rw [Nat.add_right_comm] at this
      simpa [Nat.add_assoc] using this

theorem byte_putBytes_out {s : State} {a c : Nat} {bs : List Byte} (h : c < a ∨ a + bs.length ≤ c) : (s.putBytes a bs).byte c = s.byte c :=
  read_writeBytes_out h

theorem byte_setMemWord_out {s : State} {a c : Nat} {w : Word} (h : c < a ∨ a + 4 ≤ c) : (s.setMemWord a w).byte c = s.byte c :=
  read_writeBytes_out h

end Sys2Proof.Laws
end

