-- ==== Sys2Proof/Tests/Slice0.lean ====
section
/-!
SUPPORT. Tests of single steps, and for every statement with hypotheses a state and operands that meet them.
-/
namespace Sys2Proof.Tests

open Sys2Proof.Machine Sys2Proof.Safety

/-- The block right after start-up, with nothing else done. -/
def ready : State := { State.reset with cfg := { CfgState.reset with stage := .running } }

/-- The outcome is a next state that passes a test. -/
def nextIs (o : Host.Outcome State Fault Refusal) (p : State → Bool) : Bool :=
  match o with
  | .next t => p t
  | _ => false

/-! StepTakesTheFrontCommand -/

theorem wit_StepTakesTheFrontCommand : State.reset.pending = [] := by decide

/-! QueueGivesItsCommandsInOrder -/

theorem wit_QueueGivesItsCommandsInOrder :
    nextIs (step { ready with pending := [.kepClrErrors] }) (fun t => decide (t.pending = [])) := by decide

/-! StepsKeepTheCanonicalForm -/

theorem wit_StepsKeepTheCanonicalForm :
    (Memory.wf ready.mem = true ∧ Memory.wf ready.keep.shadow = true ∧ Map.wf Reg.resetWord ready.regs = true) ∧
    nextIs (step { ready with pending := [.kepClrErrors] }) (fun t => decide (t.pending = [])) := by decide

/-! StepsKeepOneActuationPerValve -/

theorem wit_StepsKeepOneActuationPerValve : oneActPerValve ready ∧
    nextIs (step { ready with pending := [.kepClrErrors] }) (fun t => decide (t.pending = [])) := by decide

/-! WellFormedCommandsAnswer -/

theorem wit_WellFormedCommandsAnswer : (Instr.startUp ⟨false, false, false, false, false, false, none, none, none, none⟩ ⟨[], 0⟩ ⟨0, 0, 0⟩).wf = true ∧
    (Instr.blockLockLost 3).wf = true ∧ (Instr.crocusJumpIf 65535 255).wf = true := by decide

/-! StartUpReadsTheSlotsInOrder -/

/-- A header of Table 2-2 with the given generation, its CRC among the bytes. -/
def slotHeader (gen : Nat) : List Byte :=
  let b := leBytes 4 0x544C5256 ++ leBytes 2 1 ++ leBytes 2 0 ++ leBytes 4 64 ++ leBytes 4 gen ++ leBytes 4 0 ++ leBytes 4 0x4A544096 ++ leBytes 4 1
  b ++ leBytes 4 (crc32 b).toNat
theorem wit_StartUpReadsTheSlotsInOrder : State.reset.cfg.stage = .off ∧ State.reset.pwr.pfi = false ∧ State.reset.flag Reg.PWR_STATUS_VKEEP_LOW = false ∧ State.reset.cfg.force = 0 ∧
    slotOrder (readHeader (some (slotHeader 3))).toOption (readHeader (some (slotHeader 4))).toOption 0 = [1, 0] ∧
    slotOrder (readHeader none).toOption (readHeader none).toOption 0 = [] ∧ ready.cfg.stage ≠ .off := by decide +kernel

/-! PowerOnInputs -/

theorem wit_PowerOnInputs : ready.cfg.stage ≠ .off ∧ ready.flag Reg.TBS_STATUS_PLL_LOCK = false ∧ keptRegister Reg.PWR_SAVE_LAST = true ∧
    Reg.PWR_SAVE_LAST ≠ Reg.HKC_STATUS ∧ keptRegister Reg.CFG_STATUS = false ∧ 9999 < 10000 := by decide

/-! ImageRecordsAreCheckedInOrder -/

/-- A part that loads slot A, whose header names 200 bytes of records. -/
def loadingA : State := { State.reset with cfg := { CfgState.reset with stage := .loading, headA := some ⟨200, 3, 0, 1⟩, offset := 32, next := [1] } }
def recordOf (type attr plen rcrc : Nat) (b : List Byte) : ImageRecord := ⟨true, type, attr, plen, b, rcrc⟩
theorem wit_ImageRecordsAreCheckedInOrder : (loadingA.cfg.stage = .loading ∧ loadingA.mpt.abandoned = false ∧ loadingA.cfg.next ≠ []) ∧
    (recordOf 1 0 2 0 []).plen % 4 ≠ 0 ∧ loadingA.cfg.offset + 12 + 8 ≤ loadingA.loadingHeader.length ∧
    (knownType 0x55 = false) ∧ (knownType 1 = true) ∧
    (let r := recordOf 1 0 0 0 []
     r.rcrc ≠ (crc32 (imageHead r)).toNat) ∧
    (let r := recordOf 3 0 0 (crc32 (leBytes 2 3 ++ leBytes 2 0 ++ leBytes 4 0)).toNat []
     r.rcrc = (crc32 (imageHead r)).toNat ∧ contentCode r ≠ 0) ∧
    (let r := recordOf 1 0 0 (crc32 (leBytes 2 1 ++ leBytes 2 0 ++ leBytes 4 0)).toNat []
     r.rcrc = (crc32 (imageHead r)).toNat ∧ contentCode r = 0 ∧ r.type ≠ 0xFF ∧ loadingA.cfg.offset + 12 + r.plen < loadingA.loadingHeader.length) := by decide +kernel

/-! CommitPutsTheImageInForce -/

theorem wit_CommitPutsTheImageInForce :
    ({ State.reset with cfg := { CfgState.reset with stage := .accepted } } : State).cfg.stage = .accepted ∧ ready.cfg.stage ≠ .accepted := by decide

/-! LinesFollowPeriodOrPulse -/

/-- Lines run, with internal sync. -/
def lining : State := { ready with time := { TimeState.reset with lines := true, line := 7, lineTick := 100 } }
/-- The same with external sync and a pin and a timer that own LSYNC. -/
def following : State := ((lining.put Reg.TBS_CTRL_SYNC 1).put (Reg.CFG_PIN_FUNCTION 0) 4).put (Reg.CFG_TMR_FUNCTION 0) 4
theorem wit_LinesFollowPeriodOrPulse : (lining.time.lines = true ∧ lining.extSync = false) ∧
    (let s := { following with time := { following.time with lsync := [50] } }
     s.time.lines = true ∧ s.extSync = true ∧ s.time.lsync = [50]) ∧
    (following.time.lines = true ∧ following.extSync = true ∧ following.time.lsync = []) ∧
    (ready.cfg.stage = .running ∧ ready.time.lines = false ∧ ready.time.lsync = []) := by decide

/-! LsyncPulsesAreCountedAndCleared -/

theorem wit_LsyncPulsesAreCountedAndCleared :
    (following.cfg.stage = .running ∧ following.ownsAll 4 = true ∧ following.flag Reg.TBS_CTRL_SYNC = true ∧ following.time.lines = true) ∧
    (following.time.lsync = [] ∧ following.time.lineTick + following.get Reg.TBS_STATUS_PERIOD_NOW ≤ following.time.ticks + 100000 + 20) ∧
    (let s := following.put Reg.TBS_STATUS_PERIOD_NOW 6000
     s.time.lsync.length < 15 ∧ s.ownsAll 4 = true ∧ s.time.ticks + 5 + 20 < s.time.lineTick + s.get Reg.TBS_STATUS_PERIOD_NOW) ∧
    (ready.reaches Reg.TBS_CMD = true ∧ ready.reaches Reg.TBS_FLAGS = true) := by decide

/-! ScriptStepsThatTakeLines -/

/-- The running script's word 0 is a given word; lines run, and the moment is no boundary. -/
def scripting (w : Nat) : State :=
  { ({ lining with time := { lining.time with ticks := 200 } }.put Reg.CAL_STATUS_RUNNING 1).setWord (Reg.CAL_SCRIPT_MEM 0 0) (BitVec.ofNat 32 w) with
    cal := { CalState.reset with flagOk := true, plateOk := true } }
/-- The same at the moment of a boundary. -/
def scriptingAt (w : Nat) : State := { scripting w with time := { lining.time with ticks := 100 } }
theorem wit_ScriptStepsThatTakeLines :
    (scripting 0x01000009).fetches 1 (fun a => decide (a % 65536 = 9)) = true ∧ (scripting 0x02000000).fetches 2 (fun _ => true) = true ∧
    (scripting 0x03000000).fetches 3 (fun a => decide (a % 2048 = 0)) = true ∧ (scripting 0x030007FF).fetches 3 (fun a => decide (a % 2048 = 2047)) = true ∧
    (scripting 0).time.lines = true ∧ (scripting 0).atBoundary = false ∧
    (let s := { scripting 0x04000000 with cal := { (scripting 0x04000000).cal with gapPc := some 0 } }
     s.fetches 4 (fun _ => true) = true ∧ s.cal.gapPc.isSome = true ∧ s.quiet = true) ∧
    ((scripting 0x04000000).fetches 4 (fun _ => true) = true ∧ (scripting 0x04000000).cal.gapPc = none ∧ EndsHere (scripting 0x04000000) ∧
      (scripting 0x04000000).cal.during = false) ∧
    (let s := { scripting 0x04000000 with cal := { (scripting 0x04000000).cal with during := true, reason := 3, plateOk := false } }
     s.fetches 4 (fun _ => true) = true ∧ s.quiet = false ∧ EndsHere s) ∧
    (scripting 0x05000008).fetches 5 (fun a => decide (a % 256 = 8)) = true ∧ (scripting 0x06000040).fetches 6 (fun a => decide (a % 2048 = 64)) = true ∧
    (scripting 0x07000000).fetches 7 (fun _ => true) = true ∧
    ((scriptingAt 0x08000000).fetches 8 (fun _ => true) = true ∧ (scriptingAt 0x08000000).atBoundary = true ∧ WordAt (scriptingAt 0x08000000) 1) ∧
    ((scripting 0x08000000).fetches 8 (fun _ => true) = true ∧ (scripting 0x08000000).atBoundary = false) := by decide +kernel
theorem test_gap_owns_the_pin : nextIs (exec .crocusGap ((scripting 0x02000000).put (Reg.CFG_PIN_FUNCTION 3) 1))
    (fun t => t.cal.fgap && decide (t.cal.op = some 2)) = true := by decide +kernel

/-! ScriptInstructionsThatDecide -/

/-- Both averages of the run are made. -/
def averagedAt (w : Nat) (x : Option Solved) : State :=
  { scripting w with cal := { (scripting w).cal with sawPlate := true, sawFlag := true, solved := x } }
theorem wit_ScriptInstructionsThatDecide :
    ((scripting 0x00000005).fetches 0 (fun a => decide (a % 256 = 5)) = true ∧ EndsHere (scripting 5)) ∧
    ((averagedAt 0x09000003 none).fetches 9 (fun a => decide (a % 4 = 3)) = true ∧ WordAt (averagedAt 0x09000003 none) 1) ∧
    (scripting 0x09000000).fetches 9 (fun a => decide (a % 4 = 0)) = true ∧
    (averagedAt 0x0A000000 (some ⟨0, 0, 0, 0, 0, false⟩)).fetches 10 (fun _ => true) = true ∧ (averagedAt 0 none).cal.reason = 0 ∧
    (0 ≤ (scripting 0).get Reg.CAL_LIM_FAIL_FAIL_MAX ∧ (scripting 0).get Reg.CAL_LIM_FAIL_FAIL_MAX < 65536) ∧
    (let s := { scripting 0x0B000000 with cal := { (scripting 0).cal with solving := some 1 } }
     s.cal.solving = some 1 ∧ s.cal.op ≠ some 10) ∧
    ((scripting 0x0E030009).fetches 14 (fun a => decide (bits a 16 8 = 3 ∧ bits a 0 8 = 9)) = true ∧ WordAt (scripting 0x0E030009) 1) ∧
    (scripting 0x0E030009).jumpHolds 3 = true ∧ (scripting 0x0E020001).jumpHolds 2 = false ∧ WordAt (scripting 0x0E030005) 5 ∧
    ((scripting 0x0F00007F).fetches 15 (fun a => decide (a % 256 = 127)) = true ∧ WordAt (scripting 0x0F00007F) 1) ∧
    (scripting 0x0B000000).fetches 11 (fun _ => true) = true ∧ (scripting 0x0C000000).fetches 12 (fun _ => true) = true ∧
    (scripting 0x0D000002).fetches 13 (fun a => decide (a = 2)) = true ∧ (scripting 0).admitting = false ∧
    ((scripting 0x0B000000).put Reg.CFG_PHASE_PHASE 6).fetches 11 (fun _ => true) = true ∧
    (let s := { scripting 0 with cal := { (scripting 0).cal with op := some 7, untilLine := 7 } }
     s.cal.op = some 7 ∧ s.flag Reg.CAL_STATUS_RUNNING = true ∧ s.cal.untilLine ≤ s.time.line ∧ WordAt s 1) := by decide +kernel

/-! ShutterRequestsAndCalibrationCommands -/

theorem wit_ShutterRequestsAndCalibrationCommands :
    (ready.reaches Reg.CAL_CMD = true ∧ ready.get Reg.CFG_PHASE_PHASE ≠ 4 ∧ ready.shutterRuns = false) ∧
    (let s := { ready.put Reg.CAL_STATUS_RUNNING 1 with cal := { CalState.reset with shutter := true } }
     s.shutterRuns = true ∧ s.cal.closed = false) ∧
    (ready.put Reg.CAL_STATUS_FIRST_DONE 1).flag Reg.CAL_STATUS_FIRST_DONE = true ∧ bits (ready.scriptWord 15 0) 24 8 ≤ 0x0F ∧ 0 < ready.cal.lens.getD 15 256 ∧
    (let s := { ready.put Reg.CAL_TRIG_MAX_INTERVAL 7 with cal := { CalState.reset with acceptedTick := some 3 } }
     s.cal.acceptedTick = some 3 ∧ s.get Reg.CAL_TRIG_MAX_INTERVAL ≠ 0) ∧
    (ready.put Reg.CAL_STATUS_PENDING 1).flag Reg.CAL_STATUS_PENDING = true ∧ (ready.arm Timer.gapTimeout 9).due Timer.gapTimeout = some 9 ∧
    (ready.arm Timer.flagRetry 9).due Timer.flagRetry = some 9 ∧ 0 < peakMa ((ready.setWord (Reg.VLV_PROF_0 17) 5).profile 17) ∧
    (let s := (ready.arm Timer.qual 9).put Reg.CAL_STATUS_QUAL_BUSY 1
     s.due Timer.qual = some 9 ∧ s.flag Reg.CAL_STATUS_QUAL_BUSY = true) ∧
    (let old := List.replicate 8 (some (0 : Int))
     let s := { ((ready.arm Timer.settling (msTicks 60000)).put Reg.CAL_SETTLE_RATE 1) with
       cal := { CalState.reset with settle := List.replicate 60 old }
       rdo := { RdoState.reset with therms := List.replicate 8 ⟨some 0, some 0⟩ } }
     s.due Timer.settling = some (msTicks 60000) ∧ settlingRate ((s.healthyReadings :: s.cal.settle).take 61) = some 0 ∧
       0 < 10000 * s.get Reg.CAL_SETTLE_RATE) := by decide

/-! ScriptAndTrimWrites -/

theorem wit_ScriptAndTrimWrites :
    (ready.reaches (Reg.CAL_SCRIPT_MEM 15 255) = true ∧ Reg.CAL_SCRIPT_MEM 0 0 ≤ Reg.CAL_SCRIPT_MEM 15 255 ∧
      Reg.CAL_SCRIPT_MEM 15 255 < Reg.CAL_SCRIPT_MEM 16 0 ∧ Reg.CAL_SCRIPT_MEM 15 255 % 4 = 0 ∧ ready.get Reg.CFG_PHASE_PHASE ≠ 4) ∧
    ((scripting 0).flag Reg.CAL_STATUS_RUNNING = true ∧ (scripting 0).scriptNo = (Reg.CAL_SCRIPT_MEM 0 7 - Reg.CAL_SCRIPT_MEM 0 0) / 1024) ∧
    (isTrim Reg.CAL_DAC_BIAS = true ∧ ready.admitting = false ∧ (regRow Reg.CAL_DAC_BIAS).isSome = true) ∧
    (isTrim (Reg.CAL_FTRIM 1056) = true ∧ (regRow (Reg.CAL_FTRIM 1056)).isSome = true) := by decide +kernel

/-! CountersOfTheHost -/

theorem wit_CountersOfTheHost : ready.reaches Reg.KEP_CMD = true ∧ 1032 ≤ 1055 ∧ 1055 ≤ 1055 ∧ 1023 ≤ 1023 ∧ 1031 < 1032 ∧ 1055 < 1056 ∧
    1023 < 1024 := by decide

/-! CounterSetStoreTakesASnapshot -/

theorem wit_CounterSetStoreTakesASnapshot :
    (ready.keep.run = none ∧ ready.reaches Reg.KEP_CMD = true ∧ ready.keep.setTick = none) ∧
    (let s := { ready with keep := { KeepState.reset with setTick := some 0 } }
     s.keep.run = none ∧ s.reaches Reg.KEP_CMD = true ∧ s.time.ticks < 0 + msTicks 10000) ∧
    (ready.arm Timer.countPeriod 5).due Timer.countPeriod = some 5 ∧ (ready.arm Timer.countPeriod 5).keep.run = none := by decide

/-! StoreCommitAndCompletion -/

def storeOf (k : StoreKind) (c : Bool) : State :=
  { ready with keep := { KeepState.reset with run := some ⟨k, [(1280, [7])], 1, 2, 3, 4, c⟩ } }
theorem wit_StoreCommitAndCompletion :
    ((storeOf .host false).keep.run = some ⟨.host, [(1280, [7])], 1, 2, 3, 4, false⟩ ∧ StoreKind.host ≠ .save) ∧
    ((storeOf .mark false).keep.run = some ⟨.mark, [(1280, [7])], 1, 2, 3, 4, false⟩ ∧ StoreKind.mark ≠ .save) ∧
    ((storeOf .counters false).keep.run = some ⟨.counters, [(1280, [7])], 1, 2, 3, 4, false⟩ ∧ StoreKind.counters ≠ .save) ∧
    ((storeOf .host true).keep.run = some ⟨.host, [(1280, [7])], 1, 2, 3, 4, true⟩ ∧ (storeOf .host true).keep.queue = []) := by decide

/-! CountersCountMinutesAndErrorsClear -/

theorem wit_CountersCountMinutesAndErrorsClear :
    (ready.arm Timer.minute 5).due Timer.minute = some 5 ∧ ready.reaches Reg.KEP_CMD = true := by decide

/-! KeepPageWriteThenCommit -/

theorem wit_KeepPageWriteThenCommit :
    (ready.reaches 0x0403FFC0 = true ∧ 0x04000000 ≤ 0x0403FFC0 ∧ hostPage ((0x0403FFC0 - 0x04000000) / 64) = true ∧
      protectedPage (ready.get Reg.KEP_CTRL_BP) ((0x0403FFC0 - 0x04000000) / 64) = false ∧ ready.keep.run = none ∧ ready.keep.queue = []) ∧
    (ready.reaches 0x04013FFC = true ∧ hostPage ((0x04013FFC - 0x04000000) / 64) = false) ∧
    (let s := ready.put Reg.KEP_CTRL_BP 3
     s.reaches 0x04014000 = true ∧ protectedPage (s.get Reg.KEP_CTRL_BP) ((0x04014000 - 0x04000000) / 64) = true) := by decide

/-! SaveSequenceAndRestart -/

/-- The part is held after a save sequence of a given cause. -/
def heldAfter (cause : Nat) : State :=
  { ready with
    cfg := { CfgState.reset with stage := .held }, pwr := { PwrState.reset with save := some ⟨cause, 0, 0, 0, 0, 0⟩, coolSince := some 5 } }
theorem wit_SaveSequenceAndRestart : (ready.canSave = true ∧ ready.keep.run = none) ∧ State.reset.canSave = false ∧
    (let s := { storeOf .save false with pwr := { PwrState.reset with save := some ⟨1, 0, 0, 0, 0, 0⟩ } }
     s.pwr.save = some ⟨1, 0, 0, 0, 0, 0⟩ ∧ s.keep.run = some ⟨.save, [(1280, [7])], 1, 2, 3, 4, false⟩) ∧
    ((heldAfter 1).cfg.stage = .held ∧ (heldAfter 1).pwr.save.map (fun v => v.cause) ≠ some 3) ∧
    ((heldAfter 3).cfg.stage = .held ∧ (heldAfter 3).pwr.save.map (fun v => v.cause) = some 3 ∧ (heldAfter 3).pwr.coolSince = some 5) := by decide

/-! PowerControllerEvaluations -/

theorem wit_PowerControllerEvaluations : (ready.arm Timer.vcore 3).due Timer.vcore = some 3 ∧ (ready.cfg.stage ≠ .off ∧ (ready.pwr.readings.getD 0 []).length < 9) ∧
    (ready.broken 22 = false ∧ ready.broken 23 = false) ∧ (ready.arm Timer.ballast 3).due Timer.ballast = some 3 ∧
    (ready.arm Timer.throttle 3).due Timer.throttle = some 3 ∧ (ready.reaches Reg.PWR_CMD = true ∧ ready.admitting = false) ∧
    (let s := { (ready.put Reg.CFG_PHASE_PHASE 6).setPair Reg.KEP_SEQ_MARK_LO 5 with cfg := ready.cfg }
     s.reaches Reg.PWR_CMD = true ∧ s.admitting = true) ∧
    ({ ready with pwr := { PwrState.reset with checking := true } } : State).pwr.checking = true ∧ (ready.pwr.checking = false ∧ ready.pwr.save = none) := by decide +kernel
theorem test_no_region_trips : (let u := ((((ready.arm Timer.throttle 3).elapseTo 3).disarm Timer.throttle).arm Timer.throttle (msTicks 1)).throttleStep
    u.regionsAt u.tTrip) = [] := by decide +kernel

/-! ConverterRunsItsSequence -/

/-- An entry and a phase in conversion. -/
def converting (j : HkcJob) : State := { (ready.arm Timer.hkcEntry 5).arm Timer.hkcPhase 6 with hkc := { HkcState.reset with job := some j } }
theorem wit_ConverterRunsItsSequence :
    (let s := { ready.arm Timer.hkcPass 5 with hkc := { HkcState.reset with inPass := false } }
     s.due Timer.hkcPass = some 5 ∧ s.hkc.inPass = false ∧ s.hkc.job = none ∧ s.hkc.phases = [] ∧ s.resetting 12 = false ∧
     (List.range 24).find? (fun k => (s.transfer inSetHkc).entryOn k) = some 0) ∧
    ((converting (.entry 3 16 0 0 0)).hkc.job = some (.entry 3 16 0 0 0) ∧ (converting (.entry 3 16 0 0 0)).due Timer.hkcEntry = some 5) ∧
    seqField 16 (Reg.HKC_SEQ_SOURCE 0) = 16 ∧ (ready.reaches Reg.HKC_CMD = true ∧ ready.calibrating = false) ∧
    (ready.put Reg.HKC_STATUS_CAL_BUSY 1).calibrating = true ∧
    ((converting (.phase (.gain 5))).hkc.job = some (.phase (.gain 5)) ∧ (converting (.phase (.gain 5))).due Timer.hkcPhase = some 6) := by decide +kernel
/-- The flag conversion of chapter 15: code 5,750,625 at gain 3 with 250.12 microampere gives 24,734,991 microkelvin. -/
theorem test_flag_conversion : pt1000 (pinMicrovolt 5750625 0 1073741824 3 * 100000 / 25012000) = some 24734991 := by decide +kernel

/-! Pt1000InvertsItsRelation -/

theorem wit_Pt1000InvertsItsRelation : pt1000Below (-2147483648) < (-1 / 2 : Rat) ∧ (-1 / 2 : Rat) ≤ pt1000Below 0 ∧ (500 : Rat) < 1000 := by decide +kernel

/-! FunctionResetsBegin -/

/-- All the domains of the functions are ON. -/
def powered : State := ready.setDomains (List.range 36) 2
theorem wit_FunctionResetsBegin : (∀ f ∈ List.range 14, powered.cfg.stage = .running ∧ powered.resetting f = false ∧ powered.funcFallow f = false) ∧
    ready.funcFallow 0 = true ∧ ({ State.reset with cfg := { CfgState.reset with stage := .unconfigured } } : State).cfg.stage = .unconfigured := by
  decide +kernel
theorem test_walk_reset_empties_history :
    nextIs (exec .walkReset { powered with walk := { WalkState.reset with lag := [(7, (3, 0))] } })
      (fun t => decide (t.walk.lag = [(7, (0, Pf.lost))] ∧ t.walk.hist = [] ∧ t.get Reg.RST_LAST_FUNC = 2)) = true := by decide +kernel

/-! FunctionResetsDiscardTheirWork -/

theorem wit_FunctionResetsDiscardTheirWork : (converting (.phase (.exc 1))).hkc.job = some (.phase (.exc 1)) := by decide

/-! WatchdogsAndResetEnds -/

theorem wit_WatchdogsAndResetEnds :
    (let s := powered.put Reg.RST_AUTO_AUTO_EN 0x3FFF
     hasWatchdog 8 = true ∧ bit (s.get Reg.RST_AUTO_AUTO_EN) 8 = true ∧ s.resetting 8 = false ∧ s.funcFallow 8 = false ∧ s.cfg.stage = .running) ∧
    (let s := { ready with rst := { RstState.reset with dogs := [(8, 0), (8, 0)] } }
     2 ≤ (s.rst.dogs.filter (fun d => decide (d.1 = 8 ∧ s.time.ticks < d.2 + msTicks 10000))).length) ∧
    (let s := { ready with rst := { RstState.reset with running := [⟨2, 0, 0, 0⟩] } }
     s.rst.running.find? (fun x => decide (x.func = 2)) = some ⟨2, 0, 0, 0⟩ ∧ s.resetReady 2 = true) ∧
    ready.reaches Reg.RST_CMD = true := by decide +kernel

/-! PtpMessagesSteerTheServo -/

/-- PTP is on at port 1, in domain 0, and the port is READY. -/
def ptpPart : State :=
  { (((ready.put Reg.PTP_CTRL_EN 1).put Reg.PTP_CTRL_PORT 1).put (Reg.ETH_P_STATUS_READY 1) 1).put (Reg.ETH_P_CTRL_MODE 1) 1 with
    ptp := { PtpState.reset with
      selected := some 9, sync := some ⟨0, 9, 3, true, 5, 0, 0, 100⟩, delayReq := some (4, 20), lastSync := some (10, 30) } }
/-- A PTP frame that passes the checks. -/
def ptpFrame : RxFrame := ⟨true, 90, 0x01005E000181, 7, none, 0x0800, false, 0, true, 1, 0xE0000181, 17, true, 320, 320, 0⟩
theorem wit_PtpMessagesSteerTheServo :
    (ptpPart.rxFails 1 ptpFrame = none ∧ ptpPart.ptpOn = true ∧ ptpPart.get Reg.PTP_CTRL_PORT = 1 ∧ ptpPart.get Reg.PTP_CTRL_DOMAIN = 0) ∧
    (let m : Announce := ⟨0, 9, 1, 2, 3, 4, 5, 6, 0, 0⟩
     bestMaster (noteMaster ptpPart.ptp.masters m 1 0) 0 = none ∧
     (bestMaster (noteMaster [⟨m, 1, 1, 0⟩] m 1 0) 0).isSome = true) ∧
    (ptpPart.ptp.selected = some 9 ∧ ptpPart.ptp.sync.isSome = true ∧ ptpPart.time.ticks ≤ ptpPart.ptp.syncTick + msTicks 1000) ∧
    ready.rxFails 1 ptpFrame = some (Reg.ETH_P_DROP_EARLY 1) ∧ ptpFrame.etherType = 0x0800 ∧ ptpFrame.dstPort = 320 := by decide +kernel
theorem test_sync_enters_offset : nextIs (exec (.ptpSync 1 ptpFrame ⟨0, 9, 3, false, 500, 20, 0, 700⟩) ptpPart)
    (fun t => decide (t.getS Reg.PTP_OFFSET_OFFSET = 180)) = true := by decide +kernel

/-! ServoTimersAndPulses -/

theorem wit_ServoTimersAndPulses :
    (let s := ptpPart.arm Timer.delayReq 9
     s.due Timer.delayReq = some 9 ∧ s.ptpOn = true ∧ s.ptp.selected.isSome = true ∧ s.portReady (s.get Reg.PTP_CTRL_PORT) = true) ∧
    (let s := (ready.arm Timer.ptpHold 9).put Reg.PTP_STATUS_STATE 2
     s.due Timer.ptpHold = some 9 ∧ s.get Reg.PTP_STATUS_STATE = 2) ∧
    (let s := (ready.arm Timer.ptpFree 9).put Reg.PTP_STATUS_STATE 3
     s.due Timer.ptpFree = some 9 ∧ s.get Reg.PTP_STATUS_STATE = 3) ∧
    (let s := (ready.put (Reg.CFG_PIN_FUNCTION 2) 5).put (Reg.CFG_TMR_FUNCTION 1) 5
     s.cfg.stage = .running ∧ s.ownsAll 5 = true ∧ (accumulate s.time.ftachAt s.time.ftachN (s.time.ticks + 4)).2 = true) ∧
    (ready.cfg.stage ≠ .off ∧ (ready.flag Reg.PTP_CTRL_EN && ready.flag Reg.PTP_CTRL_SOURCE) = false ∧
      (accumulate ready.time.ppsAt ready.time.ppsN (ready.time.ticks + 4)).2 = true) ∧
    (let s := ((ready.put (Reg.CFG_PIN_FUNCTION 2) 3).put (Reg.CFG_TMR_FUNCTION 1) 3).put Reg.TBS_STATUS_PLL_LOCK 1
     s.ownsAll 3 = true ∧ s.flag Reg.TBS_STATUS_PLL_LOCK = true ∧ 0 < s.tickInc) := by decide +kernel

/-! ReceivedFramesAndPorts -/

/-- A frame with an ARP request for address 0. -/
def arpFrame : RxFrame := ⟨true, 64, 2 ^ 48 - 1, 7, none, 0x0806, true, 0, false, 1, 0, 0, false, 0, 0, 0⟩
/-- Port 3 is ON, with a good MAC. -/
def portThree : State := ((ready.setDomain 28 2).put (Reg.ETH_P_CTRL_MODE 3) 1).setWord Reg.ETH_MAC_LO 0x11
theorem wit_ReceivedFramesAndPorts : ready.rxFails 3 arpFrame = some (Reg.ETH_P_DROP_EARLY 3) ∧
    (let s := (ready.put (Reg.ETH_P_STATUS_READY 3) 1).setWord Reg.ETH_IP 0
     s.rxFails 3 arpFrame = none) ∧
    (portThree.domain 28 = 2 ∧ portThree.flag (Reg.ETH_P_STATUS_LINK 3) = false ∧ portThree.get (Reg.ETH_P_CTRL_MODE 3) ≠ 0) ∧
    ((portThree.arm (Timer.portReady 3) 4).due (Timer.portReady 3) = some 4 ∧ portThree.macGood = true) ∧
    (ready.setDomain 28 3).domain 28 = 3 ∧ (ready.reaches (Reg.ETH_P_CTRL 3) = true ∧ 0 % 4 ≠ 3 ∧ 7 % 4 = 3 ∧ bit 6 2 = true ∧ 6 % 4 = 2 ∧ bit 5 2 = true ∧ 5 % 4 ≠ 2) ∧
    ((List.range 4).all (fun st => !ready.flag (Reg.ETH_S_CTRL_EN st)) = true ∧ arpFrame.dstPort ≠ 319 ∧ arpFrame.dstPort ≠ 320 ∧
      ready.get (Reg.ETH_P_CTRL_MODE 3) = 0) := by decide +kernel

/-! RecordStreamDelivers -/

/-- The record stream is on at the READY port 0, with backup port 1; records 0 to 9 are released and records below 5 were sent. -/
def streaming : State :=
  { ((((ready.put (Reg.ETH_S_CTRL_EN 2) 1).put (Reg.ETH_S_CTRL_BACKUP 2) 1).put (Reg.ETH_S_CTRL_BACKUP_EN 2) 1).put (Reg.ETH_P_STATUS_READY 0) 1).put
      Reg.ETH_REC_PER_PKT 5 with
    eth := { EthState.reset with maxSent := 5, nextSend := 5, events := List.replicate 33 ⟨0, 0, 0x0307, 1, 0, 0, 0⟩ }
    stg := { RecState.reset with nextRpos := 10 } }
/-- A record acknowledgement that passes the checks. -/
def ackFrame (s : State) : RxFrame :=
  ⟨true, 90, s.mac, 7, none, 0x0800, false, 0, true, s.get (Reg.ETH_S_DIP_DIP 2), s.get Reg.ETH_IP_ADDR, 17, true, 5, s.get Reg.ETH_CTRL_BASE_PORT + 2, 1⟩
theorem wit_RecordStreamDelivers :
    (streaming.rxFails 0 (ackFrame streaming) = none ∧ streaming.acked < 5 ∧ 5 ≤ streaming.eth.maxSent ∧ streaming.eth.maxSent < 6) ∧
    (streaming.recordsFlow = true ∧ streaming.eth.nextSend + streaming.perPacket ≤ streaming.sendLimit ∧ 0 < streaming.perPacket ∧
      streaming.eth.resendTo ≤ streaming.eth.nextSend) ∧
    ((streaming.arm Timer.rto 3).due Timer.rto = some 3 ∧ streaming.outstanding = true ∧ streaming.recordStreamOn = true) ∧
    (streaming.arm Timer.noRecord 3).due Timer.noRecord = some 3 ∧
    (streaming.flag (Reg.ETH_S_CTRL_BACKUP_EN 2) = true ∧ streaming.flag Reg.ETH_STATUS_FAILED_OVER = false ∧
      (streaming.arm (Timer.failover 0) 3).due (Timer.failover (streaming.get Reg.ETH_STATUS_REC_PORT)) = some 3) ∧
    ((streaming.put Reg.ETH_STATUS_FAILED_OVER 1).flag Reg.ETH_STATUS_FAILED_OVER = true ∧ streaming.reaches Reg.ETH_CMD = true) ∧
    (32 ≤ streaming.eth.events.length ∧ streaming.portReady (streaming.get (Reg.ETH_S_CTRL_PORT 3)) = true ∧
      (streaming.put (Reg.ETH_S_CTRL_PORT 3) 2).portReady 2 = false) ∧
    (let ctrl := fun (v i : Nat) => if i = 0 then v else streaming.streamCtrl i
     streamGood (ctrl 0) streaming.portCtrl streaming.ptpPortNow 0 = true ∧ streamGood (ctrl 3) streaming.portCtrl streaming.ptpPortNow 0 = false) := by decide +kernel

/-! DriveComesUpAndFails -/

/-- The drive in a given state, with its timers running and its first admin command outstanding. -/
def driveAt (d : Nat) : State :=
  { (((ready.put Reg.NVH_STATUS_DRIVE d).arm Timer.driveRetry 3).arm Timer.capTo 5).arm Timer.smart 6 with
    nvh := { NvhState.reset with outstanding := true, cmds := [⟨0, 0x06, 1, 0, 0, false, 4⟩] } }
/-- An endpoint that the root port supports, and one that it does not. -/
def goodEnd : Endpoint := ⟨true, 0, 0x010802, 512, 0, 4, 63⟩
def badEnd : Endpoint := { goodEnd with classCode := 0x010601 }
theorem wit_DriveComesUpAndFails : (driveAt 4).due Timer.driveRetry = some 3 ∧ (driveAt 1).reaches Reg.NVH_CMD = true ∧
    ((driveAt 1).get Reg.NVH_STATUS_DRIVE = 1 ∧ supportedEnd 3 4 goodEnd = true ∧ supportedEnd 3 4 badEnd = false ∧ supportedEnd 3 3 goodEnd = false) ∧ ((driveAt 2).get Reg.NVH_STATUS_DRIVE = 2 ∧ (driveAt 2).enumerating = true) ∧
    ((driveAt 3).nvmeDue = some 4 ∧ (driveAt 3).due Timer.capTo = some 5 ∧ (driveAt 3).due Timer.smart = some 6) ∧
    ((driveAt 3).flag Reg.NVH_STATUS_ARCHIVING = false ∧ (driveAt 3).get Reg.NVH_STATUS_DRIVE = 3 ∧ (driveAt 3).layoutBad = false) ∧
    ((driveAt 3).put Reg.NVH_STATUS_ARCHIVING 1).flag Reg.NVH_STATUS_ARCHIVING = true := by decide +kernel

/-! RecordsReachTheDrive -/

/-- Records 0 to 9 are released, and region 0 is in use. -/
def archivingPart : State :=
  { (((((ready.put Reg.NVH_CTRL_ARCH_MODE 1).put (Reg.NVH_R_SIZE_SIZE_LOG2 0) 4).put (Reg.NVH_R_START_START 0) 16).arm Timer.recFlush 7).put
      Reg.NVH_STATUS_ARCHIVING 1).put Reg.NVH_STATUS_DRIVE 3 with
    stg := { RecState.reset with nextRpos := 10 }, nvh := { NvhState.reset with writes := [⟨0, 16, [], 10, 0, true, none⟩] } }
set_option maxRecDepth 100000 in
theorem wit_RecordsReachTheDrive :
    (archivingPart.due Timer.recFlush = some 7 ∧ archivingPart.get Reg.NVH_CTRL_ARCH_MODE ≠ 0 ∧ archivingPart.regionUsed 0 = true ∧
      archivingPart.stg.flushed < archivingPart.stg.nextRpos ∧ archivingPart.driveCannot = false) ∧
    ((archivingPart.put Reg.NVH_STATUS_DRIVE 4).driveCannot = true) ∧
    (let s := { driveAt 2 with nvh := { (driveAt 2).nvh with labelOk := true } }
     s.enumerating = true ∧ s.layoutBad = false ∧ s.nvh.labelOk = true ∧ s.nvh.writes = [] ∧ s.search [] = some (0, 0, 0, 0, [])) ∧
    (labelValid (archivingPart.labelBytes) = true ∧ (archivingPart.labelBytes).take 0x64 ≠ ready.labelBytes.take 0x64) ∧
    (archivingPart.flag Reg.NVH_STATUS_ARCHIVING = true ∧ archivingPart.chState 0 < 2 ∧ archivingPart.resetting 8 = false ∧
      archivingPart.nvh.writes = [⟨0, 16, [], 10, 0, true, none⟩] ∧ archivingPart.archived < 2 ^ 64 ∧ archivingPart.archived < 1 ∧
      archivingPart.eth.first < 1) := by decide +kernel

/-! ChannelsStartPauseAndComplete -/

/-- Channel 7 runs a fill of one word into the standby bank. -/
def filling : State :=
  { ready.put (Reg.DMA_CH_STATUS_STATE 7) 1 with
    dma := { DmaState.reset with channels := DmaState.reset.channels.set 7 ⟨0, bankBase 1, 1, 0, bankBase 1, [], 1 + 64 * 2 + 256 * 2, 0x01020304, false, 0⟩ } }
theorem wit_ChannelsStartPauseAndComplete :
    (ready.reaches (Reg.DMA_CH_CTRL 4) = true ∧ ready.chState 4 = 0 ∧ 4 ∉ ready.dma.queue ∧ (ready.transfer (inSetDma 4)).maintBusy = false ∧
      (ready.pendingChannel 4).dst % (ready.pendingChannel 4).dstW = 0) ∧
    ((filling.transfer (inSetDma 4)).maintBusy = true ∧ filling.chState 4 = 0) ∧ (filling.moveUnits 7 0 []).chState 7 = 1 ∧
    7 ∉ (filling.moveUnits 7 0 []).dma.queue ∧
    (let s := { ready with dma := { DmaState.reset with queue := [4] } }
     4 ∈ (s.moveUnits 4 0 []).dma.queue) ∧
    2 ≤ (ready.put (Reg.DMA_CH_STATUS_STATE 0) 3).chState 0 ∧
    ((filling.channel 7).snapshotType 7 = 0 ∧ (filling.moveUnits 7 (filling.channel 7).left []).moves 7 = true ∧
      ((filling.moveUnits 7 (filling.channel 7).left []).channel 7).left = 0) ∧
    (let s := ready.put (Reg.DMA_CH_STATUS_RETRIES 4) 3
     s.get (Reg.DMA_CH_MODE_RETRY 4) ≤ s.get (Reg.DMA_CH_STATUS_RETRIES 4)) ∧
    (let s := { ready with shadow := [(Reg.DMA_CH_MODE 2, 8)] }
     s.setWaits (inSetDma 2) = true) ∧
    (let s := ready.put (Reg.DMA_CH_MODE_RETRY 0) 7
     s.get (Reg.DMA_CH_STATUS_RETRIES 0) < s.get (Reg.DMA_CH_MODE_RETRY 0)) := by decide +kernel
theorem test_fill_writes_the_word : nextIs (exec (.channelComplete 7 []) filling)
    (fun t => decide (t.memWord (bankBase 1) = 0x01020304) && bit (t.get Reg.DMA_IRQ_DONE) 7 && decide (t.chState 7 = 0)) = true := by decide +kernel

/-! OwnershipWritesAndReload -/

theorem wit_OwnershipWritesAndReload :
    (ready.reaches (Reg.CFG_PIN 7) = true ∧ ready.reaches (Reg.CFG_TMR 3) = true ∧ ready.reaches Reg.CFG_AUX1 = true) ∧
    (let u := (ready.put (Reg.CFG_PIN_FUNCTION 7) 4).put (Reg.CFG_PIN_INVERT 7) 1
     pinFunction 4 = true ∧ countsOk (ownersOf u.word).1 (ownersOf u.word).2.1 = true ∧ ready.get (Reg.CFG_PIN_FUNCTION 7) = 0) ∧
    (ready.reaches Reg.CFG_CTRL = true ∧ ready.cfg.reloading = false ∧ ready.mpt.flash = none ∧ ready.mayReload = true) ∧
    (let s := { ready with cfg := { CfgState.reset with stage := .running, reloading := true } }
     s.cfg.reloading = true ∧ s.mayReload = true ∧ s.allReleased = true ∧ s.stagingEmpty = true ∧
     ({ s with stg := { RecState.reset with nextRpos := 1 } }).stagingEmpty = false) := by decide

/-! LinkFramesEnterTheirGroup -/

/-- A group frame with a right CRC and one code in every furrow's place (R86). -/
def linkFrame (group slot line code : Nat) : LinkFrame :=
  let body : BitVec 544 := (BitVec.ofNat 16 (group * 512 + slot * 16 + line)).append
    (BitVec.ofNat 528 ((List.replicate 33 code).foldl (fun a c => a * 65536 + c) 0))
  ⟨true, body.append (crc32c ((List.range 68).map (fun i => body.extractLsb' (536 - 8 * i) 8)))⟩
/-- Lines run and every lane holds block lock, parity among them. -/
def linked : State :=
  { lining.put Reg.RDO_LINK_STATUS_PARITY_ACTIVE 1 with
    rdo := { RdoState.reset with input := ⟨7, 0, 0, none, none, none⟩, lanes := List.replicate 4 ⟨[true, true, true], true, 0, false⟩ } }
set_option maxRecDepth 100000 in
theorem wit_LinkFramesEnterTheirGroup :
    (linked.time.lines = true ∧ (linked.linkLane 1).lock = true ∧ (linked.linkLane 1).retraining = false ∧ linked.resetting 0 = false ∧
      linked.rdo.waitLines = false ∧ linked.linkSingle = false ∧ linked.rdo.input.par = none) ∧
    (linked.frameRoles.getD 0 none = some 0 ∧ linked.frameRoles.getD 1 none = some 1 ∧ some 1 ∈ linked.frameRoles ∧ some 2 ∈ linked.frameRoles) ∧
    (linked.frameBad (linkFrame 0 0 7 9) false = false ∧ linked.frameBad ⟨true, (linkFrame 0 0 7 9).bits + 1⟩ false = true ∧
      (((linked.linkLane 1).recent.take 15).filter id).length = 3 ∧ linked.laneDead 1 = false) ∧
    ({ linked with rdo := { RdoState.reset with lanes := List.replicate 4 ⟨[], false, 5, true⟩ } }.linkLane 3).retraining = true := by decide +kernel

/-! ReadoutCommandsOfTheHost -/

theorem wit_ReadoutCommandsOfTheHost :
    (ready.reaches Reg.RDO_CMD = true ∧ ready.rdoOpen = true ∧ ready.spareInUse 64 = false ∧ ready.flag (Reg.RDO_GROUP_SPARE_FAILED 64) = false ∧
      ready.rdo.spareNow = [] ∧ ready.rdo.restoreNow = [] ∧ ready.rdo.spareDead = [] ∧ ready.rdo.declared = [] ∧
      ((ready.put (Reg.RDO_GROUP_SPARE_IN_USE 64) 1).put (Reg.RDO_GROUP_SUBST 64) 63).sparedFurrow 64 63 = true) ∧
    (ready.put Reg.CFG_PHASE_PHASE 4).rdoOpen = false ∧ (ready.reaches Reg.RDO_BIAS = true ∧ ready.admitting = false) ∧
    ((ready.arm (Timer.thermStale 7) 5).due (Timer.thermStale 7) = some 5 ∧ ready.thermFailed 7 = false) := by decide

/-! RowSlotsAndStreamPackets -/

/-- Both sensor streams are on at the READY port 0; a raw row and a field line wait. -/
def sending : State :=
  { ((lining.put (Reg.ETH_S_CTRL_EN 0) 1).put (Reg.ETH_S_CTRL_EN 1) 1).put (Reg.ETH_P_STATUS_READY 0) 1 with
    rdo := { RdoState.reset with slot := 24, rawReady := [(3, 24, some [])] }, walk := { WalkState.reset with formed := [9] } }
theorem wit_RowSlotsAndStreamPackets :
    (lining.time.lines = true ∧ ({ lining with rdo := { RdoState.reset with slot := 0 } }).rdo.slot < 25 ∧ lining.linkLostNow = false) ∧
    (sending.time.lines = true ∧ sending.rdo.slot < 25 ∧ sending.linkLostNow = false ∧ sending.rdo.rawReady = [(3, 24, some [])] ∧
      (dropStep sending.pwr.rawAcc (sending.stageLevel 2)).2 = false ∧ sending.streamReady 1 = true) ∧
    (sending.flag (Reg.ETH_S_CTRL_EN 0) = true ∧ sending.nextLine = some 9 ∧ (dropStep sending.pwr.lineAcc (sending.stageLevel 2)).2 = false ∧
      sending.streamReady 0 = true ∧ (sending.put (Reg.ETH_P_STATUS_READY 0) 0).streamReady 0 = false) ∧
    (dropStep 1 (sending.stageLevel 2)).2 = true := by decide +kernel

/-! PixelsPassTheLanes -/

/-- Lane 5 holds a pixel of line 7, whose row is being collected; another waits in the issue buffer. -/
def correcting : State :=
  { lining with cor := { CorState.reset with
    env := [lining.lineEnv true], buffer := [⟨7, 0, 41, 100, 0, false, [], [], none⟩],
    lanes := CorState.reset.lanes.set 5 (some ⟨7, 0, 40, 100, 0, false, [], [], some ⟨9, 0, 0, false, 0, false⟩⟩), rows := [⟨7, 0, some (0, false), 0, []⟩] } }
theorem wit_PixelsPassTheLanes :
    (correcting.resetting 1 = false ∧ correcting.cor.again = [] ∧ correcting.nextLane = some 0 ∧ correcting.rowHeld ⟨7, 0, 41, 100, 0, false, [], [], none⟩ = true ∧
      correcting.cor.swapLine = none ∧ correcting.cor.tableLine = none ∧ correcting.cal.due = []) ∧
    (let s := { correcting with cor := { correcting.cor with again := [⟨7, 0, 42, 100, 0, false, [3], [8], none⟩] } }
     (s.recomputeLane ⟨7, 0, 42, 100, 0, false, [3], [8], none⟩).isSome = true) ∧
    (correcting.corLane 5 = some ⟨7, 0, 40, 100, 0, false, [], [], some ⟨9, 0, 0, false, 0, false⟩⟩ ∧ findEnv correcting.cor.env 7 = some (lining.lineEnv true) ∧
      correcting.cor.rows.find? (fun x => x.line = 7 ∧ x.row = 0) = some ⟨7, 0, some (0, false), 0, []⟩ ∧
      (∀ x ∈ correcting.cor.rows, x.got + 1 < 4160)) ∧
    (let s := correcting.put Reg.COR_CTRL_MISMATCH_LIMIT 4
     s.cor.lineMiss.getD 5 0 + 1 < s.get Reg.COR_CTRL_MISMATCH_LIMIT ∧
     (s.put Reg.COR_CTRL_MISMATCH_LIMIT 1).get Reg.COR_CTRL_MISMATCH_LIMIT ≤ s.cor.lineMiss.getD 5 0 + 1) ∧
    (correcting.laneFailed 5 = false ∧ (correcting.put Reg.COR_STATUS_SPARE_FREE 1).flag Reg.COR_STATUS_SPARE_FREE = true ∧
      (correcting.put Reg.COR_STATUS_SPARE_FREE 0).flag Reg.COR_STATUS_SPARE_FREE = false) := by decide +kernel

/-! CoefficientStoreOfTheHost -/

theorem wit_CoefficientStoreOfTheHost :
    (ready.reaches Reg.COR_CMD = true ∧ ready.flag Reg.CAL_STATUS_OWN_STANDBY = false ∧ ready.flag Reg.COR_STATUS_SWAP_PENDING = false ∧
      ready.flag Reg.COR_STATUS_TABLE_SWAP_PENDING = false) ∧
    ((ready.put Reg.COR_STATUS_SWAP_PENDING 1).flag Reg.COR_STATUS_SWAP_PENDING = true ∧
      (ready.put Reg.COR_STATUS_TABLE_SWAP_PENDING 1).flag Reg.COR_STATUS_TABLE_SWAP_PENDING = true) ∧
    (storePart 0x01400020 = .bank 1 0x20 ∧ storePart 0x01400038 = .bank 1 0x38 ∧ 1 ≠ ready.activeBank ∧ storePart 0x01000000 = .bank 0 0 ∧
      0 = ready.activeBank ∧ ready.reaches 0x01400020 = true) ∧
    ((∀ i, i < 2 → storePart (0x017F1FF8 + 4 * i) = .table 1) ∧ 1 ≠ ready.activeTable ∧ storePart 0x017F0FFC = .table 0 ∧
      0 = ready.activeTable) ∧
    (let s := { ready with walk := { WalkState.reset with building := some (3, 10000) } }
     s.walk.building = some (3, 10000) ∧ s.walk.wanted = none) ∧
    (ready.reaches Reg.COR_WALK_CMD = true ∧ ready.reaches Reg.TRK_CMD = true) := by decide +kernel

/-! FieldLinesImagesAndRecords -/

/-- A sheaf of one line and one column in slot 9, in a state. -/
def someSheaf (st : Nat) : Sheaf :=
  { slot := 9, seq := 0, prevSeq := none, state := st,
    ctx := ⟨0, 1, 5, 0, 100, 100, 0, [(100, 100)], 5, 0, 1 / 100, 1 / 100, false, 0, 0, 256, 0, 1, 10000, 1⟩,
    lines := 1, area := 1, peak := 0, pixflags := 0, tiles := [(6, 0)], dir := none, img := [(imgKey 5 100, 300, false, 0)],
    tSeal := 100, tOutcome := 0, rflags := 0, tstat := 0, engine := 0, verdict := 0, disp := 0, klass := 0, status := 0, runs := 0,
    cycles := 0, feats := [0, 0, 0, 0], bound := none, deadline := none, used := [], reruns := 0,
    plan := ⟨0, 0, 0, none, 0, 0, 0, 0, 0, false, [], false, [], false, 0, 0, 0, []⟩, admitted := 0 }
/-- A state that holds it. -/
def holding (st : Nat) : State := { ready with trk := { TrkState.reset with sheaves := [(9, someSheaf st)] } }
theorem wit_FieldLinesImagesAndRecords :
    (let s := { correcting with walk := { WalkState.reset with nextField := 7, lineDone := [7] } }
     (s.elapse 3).walk.nextField = 7 ∧ 7 ∈ s.walk.lineDone ∧ s.resetting 2 = false ∧ s.linkLostNow = false ∧
     findEnv s.cor.env 7 = some (lining.lineEnv true)) ∧
    (holding 2).sheaf 9 = some (someSheaf 2) ∧
    (let s := (holding 6).setPair Reg.KEP_RPOS_MARK_LO 5
     (s.elapse 3).mayRelease = true ∧ (s.elapse 3).nextRecord = some (.object (someSheaf 6))) ∧
    (let s := { holding 6 with stg := { RecState.reset with nextRpos := 32768 } }
     (s.elapse 3).mayRelease = false ∧ s.nextRecord ≠ none ∧ s.slotFree = false) ∧
    (ready.arm Timer.aggregate 9).due Timer.aggregate = some 9 := by decide +kernel

/-! AsterArithmetic -/

/-- Engine 3 runs the sheaf of slot 9, of one line and one column, under a binding of area 0; its next word is w. -/
def judged : Sheaf := { someSheaf 4 with bound := some ⟨0, 0, 8, 8000, 0, 0, 64⟩ }
def judging (w : Nat) : State :=
  { ((holding 4).put (Reg.AST_ENG_STATE 3) 1).setMemWord (progAddr 0 0 0) (BitVec.ofNat 32 w) with
    trk := { TrkState.reset with sheaves := [(9, judged)] }
    ast := { AstState.reset with engines := AstState.reset.engines.set 3 (Engine.start judged 0 0 []) } }
def engStep : EngStep := ⟨3, 1, false, false, false, false, []⟩
theorem wit_AsterArithmetic : ∀ op ∈ [0x01, 0x02, 0x03, 0x04, 0x05, 0x06, 0x07, 0x08, 0x09, 0x0A, 0x0D, 0x0E, 0x0F],
    Fetches (judging (op * 2 ^ 26 + 31 * 2 ^ 21 + 2 * 2 ^ 16 + 5 * 2 ^ 11)) engStep 9 judged ⟨0, 0, 8, 8000, 0, 0, 64⟩ (isR op 31 2 5 0) := by
  unfold Fetches
  decide +kernel
theorem wit_AsterArithmetic_unary : ∀ op ∈ [0x0B, 0x0C],
    Fetches (judging (op * 2 ^ 26 + 31 * 2 ^ 21 + 2 * 2 ^ 16)) engStep 9 judged ⟨0, 0, 8, 8000, 0, 0, 64⟩ (isR op 31 2 0 0) ∧
      ((judging 0).engine 3).cycles + 12 ≤ 8000 ∧ 0 < ((judging 0).engine 3).cycles + 1 := by
  unfold Fetches
  decide +kernel
/-- Index 12 of Table 8-9 is BR gt w19, w13, 22, and index 1 is RED w13, w12, CNTGT. -/
theorem test_table_8_9_words : isB 5 19 13 22 0xC2936816 = true ∧ isR 0x22 13 12 0 1 0x89AC0001 = true ∧ isI 0x11 12 0 1500 0x458005DC = true ∧
    isV 1 0 0 3 0xCD000003 = true ∧ isR 0x05 17 14 13 0 0x162E6800 = true := by decide
theorem test_worked_quotients : satS32 (rheS 27059200 8960) = 3020 ∧ satS32 (rheS 1524800 8960) = 170 ∧ satS32 (rheS 661500 3150) = 210 := by decide

/-! AsterImmediatesAndMemory -/

theorem wit_AsterImmediatesAndMemory :
    (∀ op ∈ [0x10, 0x13, 0x14, 0x15, 0x16, 0x18, 0x19, 0x1A, 0x1B],
      Fetches (judging (op * 2 ^ 26 + 7 * 2 ^ 21 + 31 * 2 ^ 16 + 12)) engStep 9 judged ⟨0, 0, 8, 8000, 0, 0, 64⟩ (isI op 7 31 12)) ∧
    (∀ op ∈ [0x11, 0x12],
      Fetches (judging (op * 2 ^ 26 + 7 * 2 ^ 21 + 65535)) engStep 9 judged ⟨0, 0, 8, 8000, 0, 0, 64⟩ (isI op 7 0 65535)) ∧
    ((12 : Int) = ((judging 0).engine 3).r 31 + immS 12 ∧ 12 < 64) ∧ ((judging 0).engine 3).r 31 + immS 65535 < 0 ∧
    asterOffset (((judging 0).engine 3).r 31) 60 4 64 ≠ none ∧ asterOffset (((judging 0).engine 3).r 31) 64 4 64 = none := by
  unfold Fetches
  decide +kernel

/-! AsterImageAndControl -/

theorem wit_AsterImageAndControl :
    (∀ w ∈ [(0x20 * 2 ^ 26 + 31 * 2 ^ 16 + 2 * 2 ^ 11, isR 0x20 0 31 2 0), (0x20 * 2 ^ 26 + 31 * 2 ^ 16 + 2 * 2 ^ 11 + 1, isR 0x20 0 31 2 1),
        (0x20 * 2 ^ 26 + 2, isR 0x20 0 0 0 2), (0x21 * 2 ^ 26 + 7 * 2 ^ 21, isR 0x21 7 0 0 0), (0x22 * 2 ^ 26 + 7 * 2 ^ 21 + 11, isR 0x22 7 0 0 11),
        (0x23 * 2 ^ 26, isR 0x23 0 0 0 0), (0x32 * 2 ^ 26 + 3, isR 0x32 0 0 0 3), (0x33 * 2 ^ 26 + 2 ^ 24 + 2, isV 1 0 0 2),
        (0x33 * 2 ^ 26 + 2 ^ 24 + 2 ^ 8, isV 1 0 1 0), (0x30 * 2 ^ 26 + 7 * 2 ^ 23 + 1023, isB 7 0 0 1023), (0x30 * 2 ^ 26, isB 0 0 0 0)],
      Fetches (judging w.1) engStep 9 judged ⟨0, 0, 8, 8000, 0, 0, 64⟩ w.2) ∧
    (judged.pixel 0 0 = some (300, false) ∧ judged.pixel 1 0 = none ∧ judged.pixel (((judging 0).engine 3).r 31) 0 = some (300, false)) ∧
    (⟨3, (judging 0).engine 3, judged, ⟨0, 0, 8, 8000, 0, 0, 64⟩⟩ : RunCtx).segments = 1 ∧ ((judging 0).engine 3).m = false := by
  unfold Fetches
  decide +kernel
/-- HIST shifts by b[3:0] (R217): with b = 16 a pixel of 300 stands in word 63. -/
theorem test_hist_shift : nextIs (exec (.asterHist engStep 31 30) (let s := judging (0x23 * 2 ^ 26 + 31 * 2 ^ 16 + 30 * 2 ^ 11)
    s.putEngine 3 ((s.engine 3).set 30 16))) (fun t => decide (t.memWord (scratchAddr 3 252) = 1)) = true := by decide +kernel

/-! EnginesRunTheQueuedSheaves -/

/-- Engine 3 has failed, and its domain is FALLOW. -/
def failedEngine : State := (ready.put Reg.AST_STATUS_FAILED 8).put (Reg.AST_ENG_STATE 3) 3
theorem wit_EnginesRunTheQueuedSheaves :
    (((holding 3).elapse 3).nextRun = some (someSheaf 3, 0) ∧ ((holding 3).elapse 3).resetting 4 = false) ∧
    (((holding 3).arm (Timer.deadline 9) 5).due (Timer.deadline 9) = some 5 ∧ (holding 3).sheaf 9 = some (someSheaf 3)) ∧
    (((judging 0).arm (Timer.deadline 9) 5).due (Timer.deadline 9) = some 5 ∧ (judging 0).runner 9 = some 3 ∧ (judging 0).sheaf 9 = some judged ∧
      judged.state = 4 ∧ (judging 0).engState 3 = 1) ∧
    (let s := (ready.put Reg.AST_CTRL_SELFTEST_ON 1).arm (Timer.selftest 15) 7
     s.engState 15 = 0 ∧ s.flag Reg.AST_CTRL_SELFTEST_ON = true ∧ bit (s.get Reg.AST_STATUS_FAILED) 15 = false ∧
       s.due (Timer.selftest 15) = some 7) ∧
    (ready.reaches Reg.AST_CMD = true ∧ bit (failedEngine.get Reg.AST_STATUS_FAILED) 3 = true ∧ failedEngine.engState 3 = 3) := by decide +kernel

/-! AsterMemoryAndSlotsOfTheHost -/

theorem wit_AsterMemoryAndSlotsOfTheHost :
    (ready.reaches (asterBase + 0x1FFFC) = true ∧ ready.areaLocked 0x1F = false ∧ (judging 0).areaLocked 0 = true) ∧
    (ready.reaches (Reg.AST_SLOT_PROG 15) = true ∧ ready.slotCheck 15 0 = 0 ∧ ready.slotCheck 15 (2 ^ (Reg.AST_SLOT_PROG_LEN 15).lo) = 2) := by decide +kernel
/-- A program of one VERD passes the check (R223), and one that ends in LI fails with code 4. -/
theorem test_program_check : programCheck 1 [0xCD000003] = 0 ∧ programCheck 2 [0xCD000003, 0x468000C8] = 4 ∧ programCheck 1 [0xC0000001] = 3 ∧
    programCheck 1 [0x0800001F] = 2 := by decide

/-! GatesAreGrantedAndFallBack -/

/-- A plan of one entry on valve 70, whose gate is requested at 2,000 ns. -/
def onePlan : Plan := { Plan.empty with start := 5000, onNs := 300000, minOn := 1000, entries := [⟨70, 0, 2000, 302000, none, 0, 30, none, .requested⟩] }
/-- Its pull-in, requested or waiting on what the bits say. -/
def onePull (waits : Bool) (unmet : Nat) : PullIn := ⟨[(9, 0)], 70, 2000, 2000, 302000, 1000, waits, unmet⟩
/-- The matrix is open and a reservoir of 4 J holds that pull-in. -/
def pulling (waits : Bool) (unmet : Nat) : State :=
  { (holding 5).setEnabled true with
    pwr := { PwrState.reset with arm := true }
    trk := { TrkState.reset with sheaves := [(9, { someSheaf 5 with plan := onePlan })] }
    drl := { DrlState.reset with vboost := some 65000, eEst := 4000000, pulls := [onePull waits unmet] } }
/-- Valve 6, in the same column and another group, holds. -/
def otherAct (v mode : Nat) : Act :=
  { valve := v, mode := mode, owners := [], gate := 100, planned := 9000000, stop := 9000000, minOn := 0, prof := ready.profile 0, opened := true, seen := 100, shares := [], boosted := true, alone := true, charge := 0, i2t := 0,
    lastOn := none, lastShared := false, dip := none, release := none, heldPast := false }
def beside (s : State) (v mode : Nat) : State := { s with vlv := { s.vlv with acts := s.vlv.acts ++ [otherAct v mode] } }
theorem wit_GatesAreGrantedAndFallBack :
    (let s := pulling false 0
     let u := (s.elapseDev 2000).endScan
     s.nextPull 70 = some (onePull false 0) ∧ s.resetting 5 = false ∧ s.resetting 6 = false ∧ u.matrixOpen = true ∧ u.valveDisabled 70 = false ∧
       s.waiting = [] ∧ s.drl.pulls.filter (fun q => decide (q.owners.head? = (onePull false 0).owners.head?)) = [onePull false 0] ∧
       u.groupOk 70 = true ∧ u.columnOk 70 = true ∧ u.energyOk 70 = true ∧ s.act 70 = none) ∧
    ((beside (pulling false 0) 6 2).elapseDev 2000).endScan.columnOk 70 = false ∧
    (let s := pulling true 32
     s.waitingPull 70 = some (onePull true 32) ∧ s.waiting = [onePull true 32] ∧ s.resetting 5 = false ∧ s.resetting 6 = false ∧
       (s.elapse 3).matrixOpen = true ∧ (s.elapse 3).valveDisabled 70 = false ∧ (s.elapse 3).groupOk 70 = true ∧ (s.elapse 3).columnOk 70 = true ∧
       (s.elapse 3).energyOk 70 = true) ∧ ((beside (pulling true 32) 6 2).elapse 3).columnOk 70 = false ∧
    (let s := (beside (pulling true 96) 6 2)
     let x := 2000 + 1000 * (s.get Reg.DRL_BOOST_DEFER_US : Int)
     let b := s.elapseDev (x - 100)
     let u := (b.grantPass (tick100 (b.nowI - 9))).elapseDev x
     s.waitingPull 70 = some (onePull true 96) ∧ s.drl.pulls = [onePull true 96] ∧ u.waitingPull 70 = some (onePull true 32) ∧ u.matrixOpen = true ∧
       u.valveDisabled 70 = false ∧ (s.groupOk 70 && s.columnOk 70 && s.energyOk 70) = false) ∧
    (let s := { pulling false 0 with pwr := PwrState.reset }
     (s.elapseDev 2000).endScan.matrixOpen = false) := by decide +kernel

/-! PlanningRequestsMergesAndLearns -/

theorem wit_PlanningRequestsMergesAndLearns :
    (let s := pulling false 0
     s.plan 9 = some onePlan ∧ s.matrixOpen = true ∧ plannedGate onePlan.start (s.useLead 7).2.1 < 0 ∧ s.nowI = 0 ∧ s.valveDisabled 7 = false) ∧
    (let s := pulling false 0
     let p := { onePlan with start := 3000000 }
     0 < plannedGate p.start (s.useLead 7).2.1 ∧ s.act 7 = none ∧ (∀ x ∈ s.drl.pulls, x.valve ≠ 7) ∧
       (∃ a, (beside s 7 2).act 7 = some a ∧ a.on = true ∧ plannedGate p.start (s.useLead 7).2.1 ≤ a.planned)) ∧
    (let s := pulling false 0
     let p := { onePlan with lateTol := 65535 }
     s.nowI ≤ plannedGate p.start (s.useLead 7).2.1 + 1000 * (p.lateTol : Int)) ∧
    ((pulling false 0).put (Reg.VLV_COLUMN_DISABLED 7) 1).valveDisabled 7 = true ∧
    (ready.arm Timer.boostStale 9).due Timer.boostStale = some 9 ∧ ready.reaches Reg.DRL_CMD = true := by
  refine ⟨by decide +kernel, ⟨by decide +kernel, by decide +kernel, by decide +kernel, _, rfl, by decide +kernel, by decide +kernel⟩, by decide +kernel,
    by decide +kernel, by decide +kernel, by decide +kernel⟩

/-! GateEdgesAreCounted -/

theorem wit_GateEdgesAreCounted :
    (let s := pulling true 0
     s.matrixOpen = true ∧ s.valveDisabled (onePull true 0).valve = false ∧ Map.find s.drl.lastGate 70 = none ∧
       Map.find { s.drl with lastGate := [(70, 1500)] }.lastGate 70 = some 1500) := by decide +kernel

/-! ActuationsBoostHoldAndRelease -/

/-- Valve 70 in a state, alone, with what its last on interval showed. -/
def working (mode : Nat) (stop : Int) (release : Option Int) : State :=
  let s := pulling false 0
  { s with drl := { s.drl with pulls := [] }
           vlv := { VlvState.reset with acts := [{ otherAct 70 mode with owners := [(9, 0)], stop := stop, release := release, lastOn := some 200 }] } }
/-- Twelve samples from 100 us after the gate edge that show a dip. -/
def dipCodes : List Nat := [400, 400, 400, 400, 300, 300, 300, 300, 400, 400, 400, 400]
theorem wit_ActuationsBoostHoldAndRelease :
    (let s := working 1 900000 none
     let a := { otherAct 70 1 with owners := [(9, 0)], stop := 900000, lastOn := some 200 }
     oneActPerValve s ∧ s.act 70 = some a ∧ (s.columnTarget (columnOf 70) : Rat) ≤ s.codeMa 820 ∧
       s.act 70 = some a ∧ dipEn a.prof = true ∧ a.dip = none ∧ s.sharedCol (columnOf 70) = false ∧
       (s.dipSearch a.prof 100000 dipCodes).found = true ∧ ((s.dipSearch a.prof 100000 dipCodes).low.map (fun e => (rhe e.2 100).toNat)) = some 1035 ∧
       (s.dipSearch a.prof 100000 (dipCodes.take 6)).found = false) ∧
    (let s := working 2 0 none
     let a := { otherAct 70 2 with owners := [(9, 0)], stop := 0, lastOn := some 200 }
     (s.onInterval (s.columnTarget (columnOf 70)) (s.columnPeriod (columnOf 70)) [10]).getLast? = some 10 ∧
       s.vlv.acts.filter (fun b => decide (columnOf b.valve = columnOf 70)) = [a] ∧ s.vlv.acts = [a] ∧ s.pwr.arm = true ∧
       a.stop ≤ (s.elapseDev a.stop).nowI ∧ a.heldPast = false) ∧
    (let s := beside (beside (working 2 0 none) 6 2) 71 2
     s.vlv.acts.any (fun b => b.on && decide (columnOf b.valve = columnOf 70 ∧ (s.elapseDev 0).nowI < b.stop)) = true ∧
       s.vlv.acts.any (fun b => b.on && decide (groupOf b.valve = groupOf 70 ∧ (s.elapseDev 0).nowI < b.stop)) = true) ∧
    ((working 3 0 (some 50)).act 70).map (fun a => a.release) = some (some 50) ∧
    (let s := { ready with vlv := { VlvState.reset with crossRel := [(70, 50)] } }
     s.act 70 = none ∧ s.vlv.crossRel.find? (fun e => decide (e.1 = 70)) = some (70, 50)) := by decide +kernel

/-! FaultsDisableTheirParts -/

/-- Both rails have been read: 12 V and 65 V. -/
def railed (s : State) : State := { s with vlv := { s.vlv with vhold := some 12000 } }
/-- The idle scan is due. -/
def scanDue : State := railed { (ready.setEnabled true) with drl := { DrlState.reset with vboost := some 65000 } }
theorem wit_FaultsDisableTheirParts :
    (let s := railed (working 2 900000 none)
     let a := { otherAct 70 2 with owners := [(9, 0)], stop := 900000, lastOn := some 200 }
     oneActPerValve s ∧ s.act 70 = some a ∧ a.on = true ∧ s.sharedCol (columnOf 70) = false ∧
       s.band 655 = some (s.groupDrive (groupOf 70) + 1) ∧ (openMa a.prof : Rat) ≤ s.codeMa 300 ∧ s.codeMa 3 < (openMa a.prof : Rat) ∧ s.codeMa 4 < (openMa a.prof : Rat) ∧
       Map.find s.vlv.openCols (columnOf 70) = none ∧ 1 < s.get Reg.VLV_CTRL_VALVE_OPEN_N ∧
       (s.put (Reg.VLV_VALVE_OPEN_RUN 70) 2).get Reg.VLV_CTRL_VALVE_OPEN_N ≤
         Nat.min 15 ((s.put (Reg.VLV_VALVE_OPEN_RUN 70) 2).get (Reg.VLV_VALVE_OPEN_RUN 70) + 1) ∧
       Map.find (Map.insert s.vlv.openCols (columnOf 70) 3) (columnOf 70) = some 3 ∧
       s.flag Reg.VLV_CTRL_STUCK_STOP = true) ∧
    (let r := railed (working 2 900000 none)
     let s := { r with vlv := { r.vlv with lsc := [(6, (true, -2000)), (5, (false, -3000)), (65, (false, -3000))], groupAt := List.replicate 16 (-60000) } }
     s.faultMet 3 6 4000 4000 = true ∧ s.faultMet 3 7 4000 4000 = false ∧ s.faultMet 4 5 100 100 = true ∧ s.faultMet 8 1 4000 4000 = true ∧
       s.faultMet 6 1 0 0 = true ∧ s.faultMet 11 2 700 700 = true ∧ s.faultMet 15 1 100 100 = true) ∧
    (scanDue.elapse 0).scanReady = false ∧ scanDue.vlv.scanCol = none ∧
    ({ scanDue with vlv := { scanDue.vlv with scanCol := some 62 } }).vlv.scanCol = some 62 ∧ (scanDue.elapse 200000000).scanReady = true ∧ (scanDue.elapse 200000000).band 300 = some 1 ∧
    ready.reaches Reg.VLV_CMD = true ∧ (ready.showCurrent 5 9).stillPresent 1 5 = false ∧
    ((ready.put (Reg.VLV_COLUMN_FAULT 5) 5).showCurrent 5 4000).stillPresent 1 5 = true := by decide +kernel

/-! ArmAuxAndMatrixCounters -/

/-- AUX1 belongs to the auxiliary drive and stands in a state. -/
def auxiliary (mode : Nat) : State :=
  { ((ready.put Reg.CFG_AUX1_FUNCTION 8).arm (Timer.auxEnd 1) 7).put Reg.VLV_AUX_STATUS_STATE1 mode with
    vlv := { VlvState.reset with aux := [none, some ⟨mode, ready.profile 18, true, 0, 50, none⟩] } }
theorem wit_ArmAuxAndMatrixCounters :
    ready.reaches Reg.VLV_CMD = true ∧ ready.reaches Reg.VLV_AUX_CMD = true ∧ ready.ownsAll 8 = false ∧
    (let s := auxiliary 1
     s.ownsAll 8 = true ∧ s.get Reg.VLV_AUX_STATUS_STATE1 ≠ 4 ∧ s.vlv.aux.length = 2 ∧ peakMa (s.profile 18) ≠ 0 ∧
       s.auxOf 1 = some ⟨1, ready.profile 18, true, 0, 50, none⟩ ∧ s.cfg.stage = .running ∧ blanked true 0 < [0, 0, 820].length ∧ s.due (Timer.auxEnd 1) = some 7 ∧ (peakMa (ready.profile 18) : Rat) ≤ s.codeMa 820) ∧
    (let s := (auxiliary 1).put (Reg.VLV_PROF_0_PEAK_MA 19) 0
     let t := s.put (Reg.VLV_PROF_0_HOLD_MA 19) 0
     peakMa (t.profile 19) = 0 ∧ holdMa (t.profile 19) = 0) ∧
    (auxiliary 3).auxOf 1 = some ⟨3, ready.profile 18, true, 0, 50, none⟩ := by decide +kernel

/-! FramesAreCountedAndAnswered -/

/-- A frame header on the wire, with its right CRC and no busy byte (Table 13-3). -/
def wire (op alive width addr len : Nat) : FrameHeader :=
  let b := BitVec.ofNat 64 (op * 2 ^ 60 + alive * 2 ^ 56 + width * 2 ^ 54 + addr * 2 ^ 16 + len)
  ⟨b, crc16 0xFFFF (beBytes 8 b.toNat), 0⟩
theorem wit_FramesAreCountedAndAnswered :
    ready.cfg.stage ≠ .off ∧ headerOk (wire 0 5 3 0 0) = false ∧ headerOk (wire 4 5 0 0 0) = false ∧
    (let h := wire 0 15 2 0x130028 0
     ready.cfg.stage = .running ∧ headerOk h = true ∧ h.opcode = 0 ∧ h.alive = 15 ∧ h.width = 2 ∧ h.addr = 0x130028 ∧
       h.busy ≤ ready.get Reg.MPT_CTRL_BUSY_LIMIT ∧ ready.get Reg.MPT_CTRL_BUSY_LIMIT < ({ h with busy := 5000 } : FrameHeader).busy) ∧
    (headerOk (wire 3 0 0 0 0) = true ∧ (wire 3 0 0 0 0).opcode = 3) ∧
    ready.flag Reg.MPT_STATUS_EXPECT_ANY = true ∧ ready.reaches Reg.MPT_ALERT = true ∧ ready.reaches Reg.MPT_CMD = true := by decide +kernel
/-- The check value of the frame CRC (R345). -/
theorem test_crc16_check : crc16 0xFFFF [0x31, 0x32, 0x33, 0x34, 0x35, 0x36, 0x37, 0x38, 0x39] = 0x29B1 := by decide +kernel
/-- A busy byte on two and on four lanes (R342). -/
theorem test_lanes : laneCycles 2 0xE7 = [3, 2, 1, 3] ∧ laneCycles 4 0xE7 = [14, 7] := by decide +kernel

/-! DiscardedFramesShowItAndChangeNothing -/

theorem wit_DiscardedFramesShowItAndChangeNothing :
    (ready.cfg.stage ≠ .off ∧ headerOk (wire 1 15 2 0x130028 0) = true ∧ (wire 1 15 2 0x130028 0).opcode = 1 ∧ headerOk (wire 2 6 0 0x50020 0) = true ∧
      (wire 2 6 0 0x50020 0).opcode = 2 ∧ dataCrcOk [7] 0 = false) ∧
    (let s := (ready.put Reg.MPT_STATUS_EXPECT_ANY 0).put Reg.MPT_STATUS_EXPECT 5
     (s.selFall.frameFacts (wire 2 6 0 0x50020 0) false 1 true).aliveErr = true ∧ (s.selFall.frameFacts (wire 2 5 0 0x50022 0) false 1 true).align = true) ∧
    (let s := { State.reset with cfg := { CfgState.reset with stage := .unconfigured } }
     (s.selFall.frameFacts (wire 1 5 0 0x130028 7) false 8 true).unconf = true) ∧
    ({ State.reset with cfg := { CfgState.reset with stage := .loading } }.selFall.frameFacts (wire 2 5 0 0x50020 0) false 1 true).timeout = true := by decide +kernel

/-! GoodFramesReadAndWriteTheirWords -/

/-- A flash operation runs. -/
def flashing (op : Nat) : State := ready.startFlash op 0x100 4
theorem wit_GoodFramesReadAndWriteTheirWords :
    (let h := wire 1 5 1 (Reg.MPT_FL_BUF 63) 1
     ready.cfg.stage = .running ∧ headerOk h = true ∧ h.opcode = 1 ∧ h.addr = Reg.MPT_FL_BUF 63 ∧ ready.aliveFits h.alive = true ∧
       h.busy ≤ ready.get Reg.MPT_CTRL_BUSY_LIMIT ∧ ready.mpt.flash = none) ∧
    (let h := wire 2 5 1 (Reg.MPT_FL_BUF 63) 1
     headerOk h = true ∧ h.opcode = 2 ∧ ([7, 8] : List (BitVec 32)).length = h.len + 1 ∧ dataCrcOk [7, 8] (crc16 0xFFFF (wordBytes [7, 8])) = true) ∧
    (flashing 1).mpt.flash ≠ none ∧ (flashing 1).aliveFits 5 = true := by decide +kernel
/-- R453, R355: a burst that starts between two banks' registers reads zeros with RANGE from its first word. -/
theorem test_range_outside_every_bank :
    nextIs (exec (.frameRead (wire 1 5 1 0x0004006C 3) ⟨0, false, []⟩) ready) (fun t =>
      decide (t.mpt.reply.map (fun r => (r.data.length, bit r.trailing 3)) = some (4, true))) = true := by decide +kernel

/-! FlashOperationsStartAndWait -/

theorem wit_FlashOperationsStartAndWait :
    (let s := { ready with cfg := { ready.cfg with erase4k := some 0x20, erase64k := some 0xD8 } }
     let t := s.put Reg.CFG_STATUS_SLOT_USED 2
     ready.reaches Reg.MPT_FL_CMD = true ∧ s.flashAllowed 1 0 1 = true ∧ s.flashAllowed 2 0 256 = true ∧ s.flashAllowed 2 1 256 = false ∧
       t.flashAllowed 3 0x7FF000 1 = true ∧ t.flashAllowed 4 0x800000 1 = false ∧ s.flashAllowed 4 0 1 = true ∧ s.flashAllowed 5 0 1 = true ∧
       ready.flashAllowed 3 0 1 = false) ∧
    ((flashing 2).mpt.flash = some ⟨2, 0x100, 4, .command, 0⟩ ∧ (flashing 2).mpt.abandoned = false ∧ (flashing 2).due Timer.flashPoll = some 1000 ∧
      (flashing 2).masters = true ∧ ready.masters = false ∧ ({ flashing 2 with mpt := { (flashing 2).mpt with abandoned := true } }.mpt.abandoned = true)) := by
  decide +kernel

/-! FlashOperationsEndWithTheirError -/

theorem wit_FlashOperationsEndWithTheirError :
    (let s := flashing 2
     s.mpt.flash = some ⟨2, 0x100, 4, .command, 0⟩ ∧ s.due Timer.flash = some 500000 ∧ s.mpt.abandoned = false ∧
       (s.disarm Timer.flashPoll).due Timer.flashPoll = none ∧ ([0, 0, 0, 0] : List Byte).take 4 = s.bufferBytes 4 ∧
       ([0, 0, 0, 1] : List Byte).take 4 ≠ s.bufferBytes 4) ∧
    (flashing 1).mpt.flash = some ⟨1, 0x100, 4, .command, 0⟩ ∧ (flashing 1).due Timer.flash = some 100000 ∧
    (flashing 5).mpt.flash = some ⟨5, 0x100, 4, .command, 0⟩ ∧
    ({ flashing 1 with cfg := { ready.cfg with reloadNext := some 2 } }.cfg.reloadNext = some 2) ∧ ready.cfg.reloading = false := by decide +kernel


/-! ### WellFormed: every check refuses a term that breaks it and nothing else -/

def goodRecord : ImageRecord := ⟨true, 1, 0, 4, [0, 0, 0, 0], 0⟩
def goodLink : LinkFrame := linkFrame 0 0 0 0
def goodRx : RxFrame := arpFrame
/-- Each command with checked operands, in a form that passes. -/
theorem test_wf_accepts : (
    [.imageRecordCheck goodRecord, .cfgReload 0, .cfgOwnershipWrite 0 0, .groupFrameReceived 0 goodLink, .blockLockLost 0,
      .furrowSubstitute 0 0, .furrowRestore 0 0, .biasWrite 0, .thermStale 0, .laneResult 0 0 0 false 0, .laneStall 0,
      .coefficientWindowWrite 0 [0], .fieldLineComplete 0 [], .sheafImageComplete 0 0, .calRun 0, .crocusEnd 0, .crocusWait 0,
      .crocusPlate 0, .crocusSettle 0, .crocusFlag 0, .crocusSolve 0, .crocusTrimDac 0, .crocusJumpIf 0 0, .crocusEvent 0,
      .trimWrite 0 0, .scriptWrite 0 0, .engineAccept 0 [], .asterAdd engStep 0 0 0, .asterSub engStep 0 0 0, .asterMul engStep 0 0 0,
      .asterMuls engStep 0 0 0 0, .asterDiv engStep 0 0 0, .asterAnd engStep 0 0 0, .asterOr engStep 0 0 0, .asterXor engStep 0 0 0,
      .asterMin engStep 0 0 0, .asterMax engStep 0 0 0, .asterAbs engStep 0 0, .asterSqrt engStep 0 0, .asterSlt engStep 0 0 0,
      .asterShl engStep 0 0 0, .asterSra engStep 0 0 0, .asterAddi engStep 0 0 0, .asterLi engStep 0 0, .asterLih engStep 0 0,
      .asterAndi engStep 0 0 0, .asterSlti engStep 0 0 0, .asterShli engStep 0 0 0, .asterSrai engStep 0 0 0, .asterLdw engStep 0 0 0,
      .asterLdh engStep 0 0 0, .asterLds engStep 0 0 0, .asterSts engStep 0 0 0, .asterWin engStep 0 0 0, .asterPix engStep 0 0 0,
      .asterRed engStep 0 0 0, .asterHist engStep 0 0, .asterBr engStep 0 0 0 0, .asterFeat engStep 0 0, .asterVerd engStep 0 0 0 0,
      .deadlinePassed 0, .engineStall 0, .engineSelftest 0 0 false, .engineRestore 0 false, .slotProgWrite 0 0, .asterMemoryWrite 0 [0],
      .pullInRequest 0, .pullInStart 0 0, .deferralLimit 0 false, .peakReached 0 0 0 [], .peakTimeout 0 0 [], .chopPeriod 0 0 [],
      .dipFound 0 0 0 [], .openLoadCheck 0 (0, 0) 0, .actuationEnd 0 0 [], .valveReleased 0, .valveFault 0 0 0 (0, 0),
      .idleScan 0 (List.replicate 16 (0, 0)) (List.replicate 64 0), .valveEnable 0 0 0, .auxCommand 0, .auxDurationEnd ⟨0, []⟩,
      .recordRelease 0 [], .dmaStart 0, .dmaPause 0 0 [], .channelResume 0, .dmaAbort 0 0 [], .channelComplete 0 [], .busError 0 0 0 [],
      .dataChannelHandover 0, .dmaIrqClear 0, .arpRequest 0 goodRx, .recordAck 0 goodRx 0 false, .frameDropped 0 goodRx,
      .ptpAnnounce 0 goodRx ⟨0, 0, 0, 0, 0, 0, 0, 0, 0, 0⟩, .ptpSync 0 goodRx ⟨0, 0, 0, false, 0, 0, 0, 0⟩,
      .ptpFollowUp 0 goodRx ⟨0, 0, 0, 0, 0⟩, .ptpDelayResp 0 goodRx ⟨0, 0, 0, false, 0, 0, 0⟩,
      .portLinkChange 0 false false false false 0 0, .portReady 0, .portCtrlWrite 0 0, .streamAssign 0 0, .portRetain 0, .portWake 0,
      .frameNop (wire 0 0 0 0 0), .frameRead (wire 1 0 0 0 0) ⟨0, false, []⟩, .frameWrite (wire 2 0 0 0 0) [0] 0 false,
      .frameSync (wire 3 0 0 0 0),
      .flashRead 0, .flashProgram 0, .flashStatusPoll 0, .alertClear 0, .keepPageWrite 0 [0], .counterIncrement 0, .counterClear 0,
      .selfCal 0, .watchdogExpiry 0, .funcResetDone 0, .tbsFlagsClear 0, .blockLockGained 0] : List Instr).all Instr.wf = true := by decide +kernel
theorem test_wf_refuses_readout : (
    [.imageRecordCheck { goodRecord with type := 65536 }, .imageRecordCheck { goodRecord with attr := 65536 },
      .imageRecordCheck { goodRecord with plen := 4294967296 }, .imageRecordCheck { goodRecord with plen := 8 },
      .imageRecordCheck { goodRecord with rcrc := 4294967296 }, .cfgReload 4, .cfgOwnershipWrite 4294967296 0,
      .cfgOwnershipWrite 0 4294967296, .groupFrameReceived 4 goodLink, .blockLockLost 4, .furrowSubstitute 128 0,
      .furrowSubstitute 0 64, .furrowRestore 128 0, .furrowRestore 0 64, .biasWrite 4294967296, .thermStale 8, .laneResult 9 0 0 false 0,
      .laneStall 9, .coefficientWindowWrite 4294967296 [0], .coefficientWindowWrite 0 []] : List Instr).any Instr.wf = false := by decide +kernel
theorem test_wf_refuses_calibration : (
    [.fieldLineComplete 0 [⟨8192, 0, true, true⟩], .sheafImageComplete 0 8192, .calRun 16, .crocusEnd 16777216, .crocusWait 16777216,
      .crocusPlate 16777216, .crocusSettle 16777216, .crocusFlag 16777216, .crocusSolve 16777216, .crocusTrimDac 16777216,
      .crocusJumpIf 65536 0, .crocusJumpIf 0 256, .crocusEvent 16777216, .trimWrite 4294967296 0, .trimWrite 0 4294967296,
      .scriptWrite 4294967296 0, .scriptWrite 0 4294967296] : List Instr).any Instr.wf = false := by decide +kernel
theorem test_wf_refuses_aster : (
    [.engineAccept 0 [⟨8192, 0, true, true⟩], .asterAdd { engStep with engine := 16 } 0 0 0, .asterAdd engStep 32 0 0,
      .asterAdd engStep 0 32 0, .asterAdd engStep 0 0 32, .asterSub { engStep with engine := 16 } 0 0 0, .asterSub engStep 32 0 0,
      .asterSub engStep 0 32 0, .asterSub engStep 0 0 32, .asterMul { engStep with engine := 16 } 0 0 0, .asterMul engStep 32 0 0,
      .asterMul engStep 0 32 0, .asterMul engStep 0 0 32, .asterMuls { engStep with engine := 16 } 0 0 0 0, .asterMuls engStep 32 0 0 0,
      .asterMuls engStep 0 32 0 0, .asterMuls engStep 0 0 32 0, .asterMuls engStep 0 0 0 2048,
      .asterDiv { engStep with engine := 16 } 0 0 0, .asterDiv engStep 32 0 0, .asterDiv engStep 0 32 0, .asterDiv engStep 0 0 32,
      .asterAnd { engStep with engine := 16 } 0 0 0, .asterAnd engStep 32 0 0, .asterAnd engStep 0 32 0, .asterAnd engStep 0 0 32,
      .asterOr { engStep with engine := 16 } 0 0 0, .asterOr engStep 32 0 0, .asterOr engStep 0 32 0, .asterOr engStep 0 0 32,
      .asterXor { engStep with engine := 16 } 0 0 0, .asterXor engStep 32 0 0, .asterXor engStep 0 32 0, .asterXor engStep 0 0 32,
      .asterMin { engStep with engine := 16 } 0 0 0, .asterMin engStep 32 0 0, .asterMin engStep 0 32 0, .asterMin engStep 0 0 32,
      .asterMax { engStep with engine := 16 } 0 0 0, .asterMax engStep 32 0 0, .asterMax engStep 0 32 0, .asterMax engStep 0 0 32,
      .asterAbs { engStep with engine := 16 } 0 0, .asterAbs engStep 32 0, .asterAbs engStep 0 32,
      .asterSqrt { engStep with engine := 16 } 0 0, .asterSqrt engStep 32 0, .asterSqrt engStep 0 32,
      .asterSlt { engStep with engine := 16 } 0 0 0, .asterSlt engStep 32 0 0, .asterSlt engStep 0 32 0, .asterSlt engStep 0 0 32,
      .asterShl { engStep with engine := 16 } 0 0 0, .asterShl engStep 32 0 0, .asterShl engStep 0 32 0, .asterShl engStep 0 0 32,
      .asterSra { engStep with engine := 16 } 0 0 0, .asterSra engStep 32 0 0, .asterSra engStep 0 32 0, .asterSra engStep 0 0 32,
      .asterAddi { engStep with engine := 16 } 0 0 0, .asterAddi engStep 32 0 0, .asterAddi engStep 0 32 0, .asterAddi engStep 0 0 65536,
      .asterLi { engStep with engine := 16 } 0 0, .asterLi engStep 32 0, .asterLi engStep 0 65536,
      .asterLih { engStep with engine := 16 } 0 0, .asterLih engStep 32 0, .asterLih engStep 0 65536,
      .asterAndi { engStep with engine := 16 } 0 0 0, .asterAndi engStep 32 0 0, .asterAndi engStep 0 32 0, .asterAndi engStep 0 0 65536,
      .asterSlti { engStep with engine := 16 } 0 0 0, .asterSlti engStep 32 0 0, .asterSlti engStep 0 32 0, .asterSlti engStep 0 0 65536,
      .asterShli { engStep with engine := 16 } 0 0 0, .asterShli engStep 32 0 0, .asterShli engStep 0 32 0, .asterShli engStep 0 0 65536,
      .asterSrai { engStep with engine := 16 } 0 0 0, .asterSrai engStep 32 0 0, .asterSrai engStep 0 32 0, .asterSrai engStep 0 0 65536,
      .asterLdw { engStep with engine := 16 } 0 0 0, .asterLdw engStep 32 0 0, .asterLdw engStep 0 32 0, .asterLdw engStep 0 0 65536,
      .asterLdh { engStep with engine := 16 } 0 0 0, .asterLdh engStep 32 0 0, .asterLdh engStep 0 32 0, .asterLdh engStep 0 0 65536,
      .asterLds { engStep with engine := 16 } 0 0 0, .asterLds engStep 32 0 0, .asterLds engStep 0 32 0, .asterLds engStep 0 0 65536,
      .asterSts { engStep with engine := 16 } 0 0 0, .asterSts engStep 32 0 0, .asterSts engStep 0 32 0, .asterSts engStep 0 0 65536,
      .asterWin { engStep with engine := 16 } 0 0 0, .asterWin engStep 32 0 0, .asterWin engStep 0 32 0, .asterWin engStep 0 0 2048,
      .asterPix { engStep with engine := 16 } 0 0 0, .asterPix engStep 32 0 0, .asterPix engStep 0 32 0, .asterPix engStep 0 0 32,
      .asterRed { engStep with engine := 16 } 0 0 0, .asterRed engStep 32 0 0, .asterRed engStep 0 32 0, .asterRed engStep 0 0 16,
      .asterHist { engStep with engine := 16 } 0 0, .asterHist engStep 32 0, .asterHist engStep 0 32,
      .asterBr { engStep with engine := 16 } 0 0 0 0, .asterBr engStep 8 0 0 0, .asterBr engStep 0 32 0 0, .asterBr engStep 0 0 32 0,
      .asterBr engStep 0 0 0 1024, .asterFeat { engStep with engine := 16 } 0 0, .asterFeat engStep 4 0, .asterFeat engStep 0 32,
      .asterVerd { engStep with engine := 16 } 0 0 0 0, .asterVerd engStep 4 0 0 0, .asterVerd engStep 0 32 0 0,
      .asterVerd engStep 0 0 2 0, .asterVerd engStep 0 0 0 256, .deadlinePassed 8192, .engineStall 16, .engineSelftest 16 0 false,
      .engineRestore 16 false, .slotProgWrite 16 0, .slotProgWrite 0 4294967296, .asterMemoryWrite 4294967296 [0], .asterMemoryWrite 0 []] : List Instr).any Instr.wf = false := by decide +kernel
theorem test_wf_refuses_valves : (
    [.pullInRequest 1024, .pullInStart 1024 0, .deferralLimit 1024 false, .peakReached 1026 0 0 [], .peakReached 0 0 3 [], .peakReached 0 0 0 [4096],
      .peakTimeout 1026 0 [], .peakTimeout 0 3 [], .peakTimeout 0 0 [4096], .chopPeriod 66 0 [], .chopPeriod 0 0 [4096], .dipFound 1024 0 0 [],
      .dipFound 0 0 0 [4096], .openLoadCheck 1024 (0, 0) 0, .openLoadCheck 0 (4096, 0) 0, .openLoadCheck 0 (0, 4096) 0, .openLoadCheck 0 (0, 0) 4096, .actuationEnd 1024 0 [],
      .actuationEnd 0 3 [], .actuationEnd 0 0 [4096], .valveReleased 1026, .valveFault 0 256 0 (0, 0), .valveFault 0 0 0 (4096, 0),
      .valveFault 0 0 0 (0, 4096),
      .idleScan 0 (List.replicate 16 (4096, 0)) (List.replicate 64 0), .idleScan 0 (List.replicate 16 (0, 4096)) (List.replicate 64 0),
      .idleScan 0 (List.replicate 16 (0, 0)) (List.replicate 64 4096), .idleScan 0 (List.replicate 16 (0, 0)) (List.replicate 65 0),
      .idleScan 0 [] (List.replicate 64 0), .valveEnable 4 0 0, .valveEnable 0 1024 0, .valveEnable 0 0 4096, .auxCommand 4294967296,
      .auxDurationEnd ⟨2, []⟩, .auxDurationEnd ⟨0, [4096]⟩] : List Instr).any Instr.wf = false := by decide +kernel
theorem test_wf_refuses_network : (
    [.recordRelease 0 [⟨8192, 0, true, true⟩], .dmaStart 8, .dmaPause 8 0 [], .dmaPause 0 16777216 [], .channelResume 8,
      .dmaAbort 8 0 [], .dmaAbort 0 16777216 [], .channelComplete 8 [], .busError 8 0 0 [], .busError 0 16 0 [],
      .busError 0 0 16777216 [], .dataChannelHandover 8, .dmaIrqClear 4294967296, .arpRequest 4 goodRx,
      .arpRequest 0 { goodRx with dmac := 281474976710656 }, .recordAck 4 goodRx 0 false, .recordAck 0 goodRx 18446744073709551616 false,
      .recordAck 0 { goodRx with smac := 281474976710656 } 0 false, .frameDropped 4 goodRx,
      .frameDropped 0 { goodRx with etherType := 65536 }, .ptpAnnounce 4 goodRx ⟨0, 0, 0, 0, 0, 0, 0, 0, 0, 0⟩,
      .ptpAnnounce 0 { goodRx with srcIp := 4294967296 } ⟨0, 0, 0, 0, 0, 0, 0, 0, 0, 0⟩, .ptpSync 4 goodRx ⟨0, 0, 0, false, 0, 0, 0, 0⟩,
      .ptpSync 0 { goodRx with dstIp := 4294967296 } ⟨0, 0, 0, false, 0, 0, 0, 0⟩, .ptpFollowUp 4 goodRx ⟨0, 0, 0, 0, 0⟩,
      .ptpFollowUp 0 { goodRx with srcPort := 65536 } ⟨0, 0, 0, 0, 0⟩, .ptpDelayResp 4 goodRx ⟨0, 0, 0, false, 0, 0, 0⟩,
      .ptpDelayResp 0 { goodRx with dstPort := 65536 } ⟨0, 0, 0, false, 0, 0, 0⟩, .portLinkChange 4 false false false false 0 0,
      .portReady 4, .portCtrlWrite 4 0, .portCtrlWrite 0 4294967296, .streamAssign 4 0, .streamAssign 0 4294967296, .portRetain 4,
      .portWake 4] : List Instr).any Instr.wf = false := by decide +kernel
theorem test_wf_refuses_port : (
    [.frameNop (wire 1 0 0 0 0), .frameRead (wire 2 0 0 0 0) ⟨0, false, []⟩, .frameWrite (wire 3 0 0 0 0) [0] 0 false,
      .frameWrite (wire 2 0 0 0 0) [] 0 false, .frameSync (wire 0 0 0 0 0), .flashRead 256, .flashProgram 256, .flashStatusPoll 256, .alertClear 4294967296,
      .keepPageWrite 4294967296 [0], .keepPageWrite 0 [], .counterIncrement 2048, .counterClear 2048, .selfCal 8, .watchdogExpiry 14,
      .funcResetDone 14, .tbsFlagsClear 4294967296, .blockLockGained 4] : List Instr).any Instr.wf = false := by decide +kernel
theorem test_wf_refuses_long_frames : (Instr.keepPageWrite 0 (List.replicate 65537 0)).wf = false ∧
    (Instr.coefficientWindowWrite 0 (List.replicate 65537 0)).wf = false ∧ (Instr.asterMemoryWrite 0 (List.replicate 65537 0)).wf = false := by
  simp only [Instr.wf, below, List.length_replicate]
  decide


/-! ### Worked examples of the manual -/

/-- Chapter 0's fragment in three formats, and a tie to the even code. -/
theorem test_formats : t16 31250000 = 0x37AA ∧ t16 31252500 = 14250 ∧ s16 31250000 29800000 = 725 ∧ s16 23500000 29800000 = -3150 := by decide
/-- R38's check value. -/
theorem test_crc32_check : crc32 [0x31, 0x32, 0x33, 0x34, 0x35, 0x36, 0x37, 0x38, 0x39] = 0xCBF43926 := by decide +kernel
/-- The spare's code of Table 3-8. -/
theorem test_equalised_spare : equalise 30275 ⟨[12480, 12480, 12480, 12480], [32640, 32640, 32640, 32640], 0, none⟩
    ⟨[12610, 12610, 12610, 12610], [32630, 32630, 32630, 32630], 0, none⟩ 0 = 30269 := by decide +kernel
/-- The gains of Table 5-2. -/
theorem test_lag_gain : lagGain 128 10000 9000 = 278831 ∧ lagGain 256 10000 9000 = 557663 := by decide +kernel
/-- The two flights of Table 9-6, in tenths of a microsecond. -/
theorem test_flight : (flightNs (981 / 100) (2939231 / 1000000) (1 / 10)).map (fun t => rhe t 100) = some 322833 ∧
    (flightNs (981 / 100) (2939231 / 1000000) (107081 / 1000000)).map (fun t => rhe t 1000) = some 34451 := by decide +kernel
/-- Step 11 of Table 10-8: 1,500 x ln 5, rounded up. -/
theorem test_release_time : ceilLn 1500 500 100 = 2415 := by decide +kernel
/-- The walnut pixel of Table 4-3, from its raw code to its scene temperature, with no flag. -/
def walnut : State :=
  let a := pixelAddr 0 11 2032
  let s := ((ready.setMemWord a 262272).setMemWord (a + 4) 545259520).setMemWord (a + 8) 9024
  let s := ((s.setMemWord (a + 12) (BitVec.ofInt 32 (-512000))).setMemWord (a + 16) (BitVec.ofInt 32 (-768))).setMemWord (a + 20) 3264
  ((((s.setMemWord (a + 24) 9000).setMemWord (headerAddr 0) 24610000).setMemWord (0x17F0000 + 4 * 289) 35740120).setMemWord (0x17F0000 + 4 * 290) 36003050)
def walnutLine : LineEnv :=
  { ready.lineEnv false with base := -40000000, tflag := 24610000, stepLog := 18, dts := [none, none, none, some 420000, some 680000, none, none, none] }
theorem test_walnut_pixel : (let r := walnut.correctPixel walnutLine ⟨0, 11, 2032, 22517, 0, false, [], [], none⟩ 5146720 false
    (r.u, r.value, r.flags)) = (617632, 35874789, 0) := by decide +kernel
/-- The bursts of Table 19-3: their status bits RANGE and ALIGN, and how many words they carry. -/
theorem test_bursts : ([(0x152FF8, 3, true, false), (0x150124, 2, false, false), (0x70000, 0, true, false), (0x151002, 0, false, true),
      (0x15175C, 1, false, false)] : List (Nat × Nat × Bool × Bool)).all (fun b =>
    nextIs (exec (.frameRead (wire 1 5 1 b.1 b.2.1) ⟨0, false, []⟩) ready) (fun t =>
      decide (t.mpt.reply.map (fun r => (r.data.length, bit r.trailing 3, bit r.trailing 4)) = some (b.2.1 + 1, b.2.2)))) = true := by decide +kernel
/-- Step 5 of Table 17-2: an edge 20.2 us after a boundary waits as early, and counts. -/
theorem test_spurious_edge : nextIs (exec (.lsyncPulse 2020) { following with time := { following.time with ticks := 37480, lineTick := 37480 } })
    (fun t => decide (t.time.lsync.length = 1 ∧ t.get Reg.TBS_LSYNC_EARLY = 1)) = true := by decide +kernel

end Sys2Proof.Tests
end

section
/-!
Every command, and so every step, keeps the queue's rest, the canonical form of the sparse parts and one actuation per valve: the lemmas
of Sys2Proof/Laws/Keeps put together over the commands.
-/
namespace Sys2Proof.Proofs

open Sys2Proof.Machine Sys2Proof.Safety Sys2Proof.Laws

/-- Each arm of `exec` is one meaning, and each meaning has its lemma. -/
theorem keeps_exec (c : Instr) (s : State) : KeepsX s (exec c s) :=
  match c with
  | .startUp _ _ _ => keeps_execStartUp (.refl s)
  | .rstNPulse _ => keeps_execRstNPulse (.refl s)
  | .pllLock => keeps_execPllLock (.refl s)
  | .imageRecordCheck _ => keeps_execImageRecordCheck (.refl s)
  | .commit => keeps_execCommit (.refl s)
  | .lsyncStartTimeout => keeps_execLsyncStartTimeout (.refl s)
  | .settlingEvaluation => keeps_execSettlingEvaluation (.refl s)
  | .cfgReload _ => keeps_execCfgReload (.refl s)
  | .reloadDrained => keeps_execReloadDrained (.refl s)
  | .reloadTimeout => keeps_execReloadTimeout (.refl s)
  | .cfgOwnershipWrite _ _ => keeps_execCfgOwnershipWrite (.refl s)
  | .pfiNRecognised _ => keeps_execPfiNRecognised (.refl s)
  | .vkeepLowRecognised _ => keeps_execVkeepLowRecognised (.refl s)
  | .saveBulkStoreCommit _ _ => keeps_execSaveBulkStoreCommit (.refl s)
  | .heldExit => keeps_execHeldExit (.refl s)
  | .vkeepCollapse => keeps_execVkeepCollapse (.refl s)
  | .lineBoundary => keeps_execLineBoundary (.refl s)
  | .lsyncPulse _ => keeps_execLsyncPulse (.refl s)
  | .lsyncLost => keeps_execLsyncLost (.refl s)
  | .ftachPulse _ => keeps_execFtachPulse (.refl s)
  | .ppsInEdge _ => keeps_execPpsInEdge (.refl s)
  | .ppsOutPulse => keeps_execPpsOutPulse (.refl s)
  | .rowSlot => keeps_execRowSlot (.refl s)
  | .groupFrameReceived _ _ => keeps_execGroupFrameReceived (.refl s)
  | .blockLockLost _ => keeps_execBlockLockLost (.refl s)
  | .furrowSubstitute _ _ => keeps_execFurrowSubstitute (.refl s)
  | .furrowRestore _ _ => keeps_execFurrowRestore (.refl s)
  | .rdoClrCounters => keeps_execRdoClrCounters (.refl s)
  | .biasWrite _ => keeps_execBiasWrite (.refl s)
  | .thermStale _ => keeps_execThermStale (.refl s)
  | .pixelIssue => keeps_execPixelIssue (.refl s)
  | .laneResult _ _ _ _ _ => keeps_execLaneResult (.refl s)
  | .laneStall _ => keeps_execLaneStall (.refl s)
  | .bankSwap => keeps_execBankSwap (.refl s)
  | .tableSwap => keeps_execTableSwap (.refl s)
  | .corClrCounters => keeps_execCorClrCounters (.refl s)
  | .coefficientWindowWrite _ _ => keeps_execCoefficientWindowWrite (.refl s)
  | .lagTableBuilt => keeps_execLagTableBuilt (.refl s)
  | .fieldLineComplete _ _ => keeps_execFieldLineComplete (.refl s)
  | .sheafImageComplete _ _ => keeps_execSheafImageComplete (.refl s)
  | .aggregateRecord => keeps_execAggregateRecord (.refl s)
  | .intervalRequest => keeps_execIntervalRequest (.refl s)
  | .calEventRequest => keeps_execCalEventRequest (.refl s)
  | .calCancel => keeps_execCalCancel (.refl s)
  | .calRun _ => keeps_execCalRun (.refl s)
  | .calClrCounters => keeps_execCalClrCounters (.refl s)
  | .shutterScriptStart => keeps_execShutterScriptStart (.refl s)
  | .calGapTimeout => keeps_execCalGapTimeout (.refl s)
  | .crocusEnd _ => keeps_execCrocusEnd (.refl s)
  | .crocusWait _ => keeps_execCrocusWait (.refl s)
  | .crocusGap => keeps_execCrocusGap (.refl s)
  | .crocusPlate _ => keeps_execCrocusPlate (.refl s)
  | .crocusClose => keeps_execCrocusClose (.refl s)
  | .crocusSettle _ => keeps_execCrocusSettle (.refl s)
  | .crocusFlag _ => keeps_execCrocusFlag (.refl s)
  | .crocusOpen => keeps_execCrocusOpen (.refl s)
  | .crocusResume => keeps_execCrocusResume (.refl s)
  | .crocusSolve _ => keeps_execCrocusSolve (.refl s)
  | .solveComplete => keeps_execSolveComplete (.refl s)
  | .crocusSwap => keeps_execCrocusSwap (.refl s)
  | .crocusTrimCap => keeps_execCrocusTrimCap (.refl s)
  | .crocusTrimSkim => keeps_execCrocusTrimSkim (.refl s)
  | .crocusTrimDac _ => keeps_execCrocusTrimDac (.refl s)
  | .crocusJumpIf _ _ => keeps_execCrocusJumpIf (.refl s)
  | .crocusEvent _ => keeps_execCrocusEvent (.refl s)
  | .scriptLinesDone _ => keeps_execScriptLinesDone (.refl s)
  | .flagOpenRetry => keeps_execFlagOpenRetry (.refl s)
  | .qualTimeout => keeps_execQualTimeout (.refl s)
  | .trimWrite _ _ => keeps_execTrimWrite (.refl s)
  | .scriptWrite _ _ => keeps_execScriptWrite (.refl s)
  | .engineAccept _ _ => keeps_execEngineAccept (.refl s)
  | .asterAdd _ _ _ _ => keeps_execAsterAdd (.refl s)
  | .asterSub _ _ _ _ => keeps_execAsterSub (.refl s)
  | .asterMul _ _ _ _ => keeps_execAsterMul (.refl s)
  | .asterMuls _ _ _ _ _ => keeps_execAsterMuls (.refl s)
  | .asterDiv _ _ _ _ => keeps_execAsterDiv (.refl s)
  | .asterAnd _ _ _ _ => keeps_execAsterAnd (.refl s)
  | .asterOr _ _ _ _ => keeps_execAsterOr (.refl s)
  | .asterXor _ _ _ _ => keeps_execAsterXor (.refl s)
  | .asterMin _ _ _ _ => keeps_execAsterMin (.refl s)
  | .asterMax _ _ _ _ => keeps_execAsterMax (.refl s)
  | .asterAbs _ _ _ => keeps_execAsterAbs (.refl s)
  | .asterSqrt _ _ _ => keeps_execAsterSqrt (.refl s)
  | .asterSlt _ _ _ _ => keeps_execAsterSlt (.refl s)
  | .asterShl _ _ _ _ => keeps_execAsterShl (.refl s)
  | .asterSra _ _ _ _ => keeps_execAsterSra (.refl s)
  | .asterAddi _ _ _ _ => keeps_execAsterAddi (.refl s)
  | .asterLi _ _ _ => keeps_execAsterLi (.refl s)
  | .asterLih _ _ _ => keeps_execAsterLih (.refl s)
  | .asterAndi _ _ _ _ => keeps_execAsterAndi (.refl s)
  | .asterSlti _ _ _ _ => keeps_execAsterSlti (.refl s)
  | .asterShli _ _ _ _ => keeps_execAsterShli (.refl s)
  | .asterSrai _ _ _ _ => keeps_execAsterSrai (.refl s)
  | .asterLdw _ _ _ _ => keeps_execAsterLdw (.refl s)
  | .asterLdh _ _ _ _ => keeps_execAsterLdh (.refl s)
  | .asterLds _ _ _ _ => keeps_execAsterLds (.refl s)
  | .asterSts _ _ _ _ => keeps_execAsterSts (.refl s)
  | .asterWin _ _ _ _ => keeps_execAsterWin (.refl s)
  | .asterPix _ _ _ _ => keeps_execAsterPix (.refl s)
  | .asterRed _ _ _ _ => keeps_execAsterRed (.refl s)
  | .asterHist _ _ _ => keeps_execAsterHist (.refl s)
  | .asterBr _ _ _ _ _ => keeps_execAsterBr (.refl s)
  | .asterFeat _ _ _ => keeps_execAsterFeat (.refl s)
  | .asterVerd _ _ _ _ _ => keeps_execAsterVerd (.refl s)
  | .deadlinePassed _ => keeps_execDeadlinePassed (.refl s)
  | .engineStall _ => keeps_execEngineStall (.refl s)
  | .engineSelftest _ _ _ => keeps_execEngineSelftest (.refl s)
  | .engineRestore _ _ => keeps_execEngineRestore (.refl s)
  | .astClrCounters => keeps_execAstClrCounters (.refl s)
  | .slotProgWrite _ _ => keeps_execSlotProgWrite (.refl s)
  | .asterMemoryWrite _ _ => keeps_execAsterMemoryWrite (.refl s)
  | .pullInRequest _ => keeps_execPullInRequest (.refl s)
  | .pullInStart _ _ => keeps_execPullInStart (.refl s)
  | .deferralLimit _ _ => keeps_execDeferralLimit (.refl s)
  | .vboostStale => keeps_execVboostStale (.refl s)
  | .drlClrCounters => keeps_execDrlClrCounters (.refl s)
  | .peakReached _ _ _ _ => keeps_execPeakReached (.refl s)
  | .peakTimeout _ _ _ => keeps_execPeakTimeout (.refl s)
  | .chopPeriod _ _ _ => keeps_execChopPeriod (.refl s)
  | .dipFound _ _ _ _ => keeps_execDipFound (.refl s)
  | .openLoadCheck _ _ _ => keeps_execOpenLoadCheck (.refl s)
  | .actuationEnd _ _ _ => keeps_execActuationEnd (.refl s)
  | .valveReleased _ => keeps_execValveReleased (.refl s)
  | .valveFault _ _ _ _ => keeps_execValveFault (.refl s)
  | .idleScan _ _ _ => keeps_execIdleScan (.refl s)
  | .valveEnable _ _ _ => keeps_execValveEnable (.refl s)
  | .matrixResume => keeps_execMatrixResume (.refl s)
  | .vlvClrCounters => keeps_execVlvClrCounters (.refl s)
  | .armAssert => keeps_execArmAssert (.refl s)
  | .armDeassert => keeps_execArmDeassert (.refl s)
  | .auxCommand _ => keeps_execAuxCommand (.refl s)
  | .auxDurationEnd _ => keeps_execAuxDurationEnd (.refl s)
  | .recordRelease _ _ => keeps_execRecordRelease (.refl s)
  | .recFlushTimeout => keeps_execRecFlushTimeout (.refl s)
  | .nvmeCommandComplete _ => keeps_execNvmeCommandComplete (.refl s)
  | .nvmeTimeout => keeps_execNvmeTimeout (.refl s)
  | .pcieLinkLoss => keeps_execPcieLinkLoss (.refl s)
  | .driveRetry => keeps_execDriveRetry (.refl s)
  | .pcieLinkUp _ _ _ => keeps_execPcieLinkUp (.refl s)
  | .controllerReady => keeps_execControllerReady (.refl s)
  | .smartPoll _ _ _ => keeps_execSmartPoll (.refl s)
  | .nvhFormat => keeps_execNvhFormat (.refl s)
  | .nvhRestart => keeps_execNvhRestart (.refl s)
  | .nvhClrCounters => keeps_execNvhClrCounters (.refl s)
  | .dmaStart _ => keeps_execDmaStart (.refl s)
  | .dmaPause _ _ _ => keeps_execDmaPause (.refl s)
  | .channelResume _ => keeps_execChannelResume (.refl s)
  | .dmaAbort _ _ _ => keeps_execDmaAbort (.refl s)
  | .channelComplete _ _ => keeps_execChannelComplete (.refl s)
  | .busError _ _ _ _ => keeps_execBusError (.refl s)
  | .dataChannelHandover _ => keeps_execDataChannelHandover (.refl s)
  | .dmaIrqClear _ => keeps_execDmaIrqClear (.refl s)
  | .arpRequest _ _ => keeps_execArpRequest (.refl s)
  | .recordAck _ _ _ _ => keeps_execRecordAck (.refl s)
  | .frameDropped _ _ => keeps_execFrameDropped (.refl s)
  | .ptpAnnounce _ _ _ => keeps_execPtpAnnounce (.refl s)
  | .ptpSync _ _ _ => keeps_execPtpSync (.refl s)
  | .ptpFollowUp _ _ _ => keeps_execPtpFollowUp (.refl s)
  | .ptpDelayResp _ _ _ => keeps_execPtpDelayResp (.refl s)
  | .ptpDelayReq => keeps_execPtpDelayReq (.refl s)
  | .ptpHoldover => keeps_execPtpHoldover (.refl s)
  | .holdoverExpiry => keeps_execHoldoverExpiry (.refl s)
  | .portLinkChange _ _ _ _ _ _ _ => keeps_execPortLinkChange (.refl s)
  | .portReady _ => keeps_execPortReady (.refl s)
  | .portCtrlWrite _ _ => keeps_execPortCtrlWrite (.refl s)
  | .streamAssign _ _ => keeps_execStreamAssign (.refl s)
  | .portRetain _ => keeps_execPortRetain (.refl s)
  | .portWake _ => keeps_execPortWake (.refl s)
  | .recordPacketSend => keeps_execRecordPacketSend (.refl s)
  | .retransmitTimeout => keeps_execRetransmitTimeout (.refl s)
  | .keepalive => keeps_execKeepalive (.refl s)
  | .recordFailover => keeps_execRecordFailover (.refl s)
  | .ethReturn => keeps_execEthReturn (.refl s)
  | .ethClrCounters => keeps_execEthClrCounters (.refl s)
  | .linePacketSend => keeps_execLinePacketSend (.refl s)
  | .eventPacketSend => keeps_execEventPacketSend (.refl s)
  | .frameNop _ => keeps_execFrameNop (.refl s)
  | .frameRead _ _ => keeps_execFrameRead (.refl s)
  | .frameWrite _ _ _ _ => keeps_execFrameWrite (.refl s)
  | .frameSync _ => keeps_execFrameSync (.refl s)
  | .invalidHeader => keeps_execInvalidHeader (.refl s)
  | .masterCollision => keeps_execMasterCollision (.refl s)
  | .flashTransferResume => keeps_execFlashTransferResume (.refl s)
  | .flashRead _ => keeps_execFlashRead (.refl s)
  | .flashProgram _ => keeps_execFlashProgram (.refl s)
  | .flashErase4k => keeps_execFlashErase4k (.refl s)
  | .flashErase64k => keeps_execFlashErase64k (.refl s)
  | .flashReadStatus => keeps_execFlashReadStatus (.refl s)
  | .flashStatusPoll _ => keeps_execFlashStatusPoll (.refl s)
  | .flashOpDone _ => keeps_execFlashOpDone (.refl s)
  | .flashOpTimeout => keeps_execFlashOpTimeout (.refl s)
  | .alertClear _ => keeps_execAlertClear (.refl s)
  | .mptClrCounters => keeps_execMptClrCounters (.refl s)
  | .keepPageWrite _ _ => keeps_execKeepPageWrite (.refl s)
  | .storeCommit => keeps_execStoreCommit (.refl s)
  | .storeComplete => keeps_execStoreComplete (.refl s)
  | .countPeriodStore => keeps_execCountPeriodStore (.refl s)
  | .keepStore => keeps_execKeepStore (.refl s)
  | .counterIncrement _ => keeps_execCounterIncrement (.refl s)
  | .counterClear _ => keeps_execCounterClear (.refl s)
  | .kepClrErrors => keeps_execKepClrErrors (.refl s)
  | .operationMinute => keeps_execOperationMinute (.refl s)
  | .hkcPassStart => keeps_execHkcPassStart (.refl s)
  | .hkcEntryDone _ _ => keeps_execHkcEntryDone (.refl s)
  | .selfCal _ => keeps_execSelfCal (.refl s)
  | .excCal => keeps_execExcCal (.refl s)
  | .calPhaseDone _ => keeps_execCalPhaseDone (.refl s)
  | .vcoreEvaluation _ _ _ => keeps_execVcoreEvaluation (.refl s)
  | .tempSensorConvert _ => keeps_execTempSensorConvert (.refl s)
  | .ballastUpdate _ => keeps_execBallastUpdate (.refl s)
  | .throttleEvaluation _ => keeps_execThrottleEvaluation (.refl s)
  | .thermalTripRestart => keeps_execThermalTripRestart (.refl s)
  | .holdupCheck => keeps_execHoldupCheck (.refl s)
  | .holdupCheckDone _ => keeps_execHoldupCheckDone (.refl s)
  | .readoutReset => keeps_execReadoutReset (.refl s)
  | .correctionReset => keeps_execCorrectionReset (.refl s)
  | .walkReset => keeps_execWalkReset (.refl s)
  | .detectionReset => keeps_execDetectionReset (.refl s)
  | .asterReset => keeps_execAsterReset (.refl s)
  | .drillReset => keeps_execDrillReset (.refl s)
  | .valveReset => keeps_execValveReset (.refl s)
  | .recordReset => keeps_execRecordReset (.refl s)
  | .archiveReset => keeps_execArchiveReset (.refl s)
  | .nvmeReset => keeps_execNvmeReset (.refl s)
  | .ethernetReset => keeps_execEthernetReset (.refl s)
  | .ptpReset => keeps_execPtpReset (.refl s)
  | .hkcReset => keeps_execHkcReset (.refl s)
  | .calibrationReset => keeps_execCalibrationReset (.refl s)
  | .watchdogExpiry _ => keeps_execWatchdogExpiry (.refl s)
  | .funcResetDone _ => keeps_execFuncResetDone (.refl s)
  | .rstClrCounters => keeps_execRstClrCounters (.refl s)
  | .tbsClrCounters => keeps_execTbsClrCounters (.refl s)
  | .tbsFlagsClear _ => keeps_execTbsFlagsClear (.refl s)
  | .trkClrCounters => keeps_execTrkClrCounters (.refl s)
  | .walkClrCounters => keeps_execWalkClrCounters (.refl s)
  | .controllerFatal => keeps_execControllerFatal (.refl s)
  | .capToExpiry => keeps_execCapToExpiry (.refl s)
  | .blockLockGained _ => keeps_execBlockLockGained (.refl s)
  | .vkinChargeThreshold _ => keeps_execVkinChargeThreshold (.refl s)

/-- A step that answers came from the state without the front command. -/
theorem keeps_step {s t : State} (h : step s = .next t) : Keeps { s with pending := s.pending.tail } t := by
  unfold step at h
  split at h
  next hq =>
    cases h
    exact keeps_elapse ⟨by simp [hq], id, id⟩
  next c rest hq =>
    rw [hq]
    exact keeps_exec c _ t h

/-- Settles O3: the front command's meaning writes the sparse parts through operations that keep them canonical, and an idle tick writes
none. -/
theorem stepsKeepTheCanonicalForm : Obligations.StepsKeepTheCanonicalForm :=
  fun _ _ hs h => (keeps_step h).form hs

end Sys2Proof.Proofs
end

section
/-!
What a line boundary leaves alone: everything that takes effect as a line begins (R28) leaves the timebase, the lines' bookkeeping and the
row slot as they were. `lineView` reads that part of a state off; one lemma per operation says that it keeps it.
-/
namespace Sys2Proof.Proofs

open Sys2Proof.Machine Sys2Proof.Safety Sys2Proof.Laws

/-- Where the lines stand: the tick, the line and its boundary, the commit, the pulses that wait, and the row slot. -/
structure LineView where
  ticks : Nat
  line : Nat
  lines : Bool
  lineTick : Nat
  commitTick : Nat
  lsync : List Nat
  slot : Nat

/-- The view of a timebase and a row slot. -/
def lineOf (t : TimeState) (slot : Nat) : LineView := ⟨t.ticks, t.line, t.lines, t.lineTick, t.commitTick, t.lsync, slot⟩

/-- The view of a state. -/
def lineView (s : State) : LineView := lineOf s.time s.rdo.slot

/-! ### How the view is taken

The proofs `(rfl)` below stand in parentheses so that `simp` rewrites with these equations as it does with any other: unfolding them by
definition would have the kernel compare whole states. -/

theorem lineOf_time_slot (s : State) : lineOf s.time s.rdo.slot = lineView s := (rfl)

theorem lineView_mk {p g sh m f t c mp k pw rs e pt nv d st hk rd co wa ca tr a dr v} :
    lineView (State.mk p g sh m f t c mp k pw rs e pt nv d st hk rd co wa ca tr a dr v) = lineOf t rd.slot := (rfl)

theorem lineView_ite {c : Prop} {_ : Decidable c} {a b : State} : lineView (if c then a else b) = if c then lineView a else lineView b :=
  apply_ite lineView c a b

theorem lineView_foldl {α : Type} {f : State → α → State} (h : ∀ t x, lineView (f t x) = lineView t) (l : List α) (s : State) :
    lineView (l.foldl f s) = lineView s := by
  induction l generalizing s with
  | nil => rfl
  | cons x l ih => exact (ih (f s x)).trans (h s x)

theorem lineView_eq {s t : State} (ht : t.time = s.time) (hr : t.rdo.slot = s.rdo.slot) : lineView t = lineView s := by
  rw [lineView, ht, hr, lineView]

/-! ### Registers, timers, events, domains (Machine/Ops) -/

theorem lineView_setWord (s : State) (a : Nat) (w : Word) : lineView (s.setWord a w) = lineView s := lineView_eq rfl rfl

theorem lineView_put (s : State) (f : Field) (v : Nat) : lineView (s.put f v) = lineView s := by
  simp only [State.put, lineView_setWord]

theorem lineView_putFlag (s : State) (f : Field) (b : Bool) : lineView (s.putFlag f b) = lineView s := by
  simp only [State.putFlag, lineView_put]

theorem lineView_bump (s : State) (f : Field) (n : Nat) : lineView (s.bump f n) = lineView s := by
  simp only [State.bump, lineView_put]

theorem lineView_putS (s : State) (f : Field) (x : Int) : lineView (s.putS f x) = lineView s := by
  simp only [State.putS, lineView_put]

theorem lineView_putSat (s : State) (f : Field) (v : Nat) : lineView (s.putSat f v) = lineView s := by
  simp only [State.putSat, lineView_put]

theorem lineView_setPair (s : State) (lo v : Nat) : lineView (s.setPair lo v) = lineView s := by
  simp only [State.setPair, lineView_setWord]

theorem lineView_transfer (s : State) (p : Nat → Bool) : lineView (s.transfer p) = lineView s := by
  exact (lineView_foldl (fun t (e : Nat × Word) => lineView_setWord t e.1 e.2) _ _).trans lineView_mk

theorem lineView_setByte (s : State) (a : Nat) (b : Byte) : lineView (s.setByte a b) = lineView s := lineView_eq rfl rfl

theorem lineView_draw (s : State) : lineView s.draw = lineView s := lineView_eq rfl rfl

theorem lineView_arm (s : State) (k n : Nat) : lineView (s.arm k n) = lineView s := (rfl)

theorem lineView_disarm (s : State) (k : Nat) : lineView (s.disarm k) = lineView s := (rfl)

theorem lineView_emit (s : State) (code index arg : Nat) : lineView (s.emit code index arg) = lineView s := by
  simp only [State.emit, lineView_mk, lineOf_time_slot, lineView_ite, ite_self, lineView_setPair, lineView_put, lineView_bump,
    lineView_arm]

theorem lineView_setDomain (s : State) (d v : Nat) : lineView (s.setDomain d v) = lineView s := by
  simp only [State.setDomain, lineView_put]

theorem lineView_setDomains (s : State) (ds : List Nat) (v : Nat) : lineView (s.setDomains ds v) = lineView s :=
  lineView_foldl (fun t d => lineView_setDomain t d v) ds s

theorem lineView_degrade (s : State) (b : Nat) : lineView (s.degrade b) = lineView s := by
  simp only [State.degrade, lineView_ite, ite_self, lineView_emit, lineView_put]

theorem lineView_bumpCounter (s : State) (i n : Nat) : lineView (s.bumpCounter i n) = lineView s := by
  simp only [State.bumpCounter, lineView_setPair]

/-! ### The archive and the drive (Machine/Archive) -/

theorem lineView_issue (s : State) : lineView s.issue = lineView s := by
  simp only [State.issue, lineView_mk, lineOf_time_slot, lineView_ite, ite_self, lineView_disarm, lineView_arm]

theorem lineView_archiving (s : State) (b : Bool) : lineView (s.archiving b) = lineView s := by
  simp only [State.archiving, lineView_putFlag]

theorem lineView_archiveUpdate (s : State) : lineView s.archiveUpdate = lineView s := by
  simp only [State.archiveUpdate, lineView_issue, lineView_archiving]

theorem lineView_dropQueues (s : State) : lineView s.dropQueues = lineView s := by
  simp only [State.dropQueues, lineView_mk, lineOf_time_slot]

theorem lineView_bringUp (s : State) : lineView s.bringUp = lineView s := by
  simp only [State.bringUp, lineView_mk, lineOf_time_slot, lineView_put, lineView_setDomain, lineView_dropQueues, lineView_disarm,
    lineView_archiveUpdate]

/-! ### Power (Machine/Power) -/

theorem lineView_fslowUpdate (s : State) : lineView s.fslowUpdate = lineView s := by
  simp only [State.fslowUpdate, lineView_putFlag]

/-! ### Window bytes (Machine/Store) -/

theorem lineView_putBytes (s : State) (a : Nat) (bs : List Byte) : lineView (s.putBytes a bs) = lineView s := lineView_eq rfl rfl

/-! ### The shutter request (Machine/Shutter) -/

theorem lineView_assertGap (s : State) : lineView s.assertGap = lineView s := by
  simp only [State.assertGap, lineView_mk, lineOf_time_slot, lineView_ite, ite_self, lineView_arm]

theorem lineView_releaseGap (s : State) : lineView s.releaseGap = lineView s := by
  simp only [State.releaseGap, lineView_mk, lineOf_time_slot, lineView_disarm]

theorem lineView_requestShutter (s : State) : lineView s.requestShutter = lineView s := by
  simp only [State.requestShutter, lineView_mk, lineOf_time_slot, lineView_ite, ite_self, lineView_assertGap, lineView_put]

/-! ### The sensor link, spares and thermometers (Machine/Readout) -/

theorem lineView_loseLink (s : State) : lineView s.loseLink = lineView s := by
  simp only [State.loseLink, lineView_emit, lineView_put]

theorem lineView_singleLane (s : State) (n : Nat) : lineView (s.singleLane n) = lineView s := by
  simp only [State.singleLane, lineView_ite, ite_self, lineView_put, lineView_loseLink, lineView_emit]

theorem lineView_unprotect (s : State) : lineView s.unprotect = lineView s := by
  simp only [State.unprotect, lineView_emit, lineView_put]

theorem lineView_moveRole (s : State) (n role : Nat) : lineView (s.moveRole n role) = lineView s := by
  simp only [State.moveRole, lineView_ite, ite_self, lineView_emit, lineView_put, lineView_unprotect, lineView_loseLink,
    lineView_singleLane]

theorem lineView_moveLanes (s : State) : lineView s.moveLanes = lineView s := by
  have move (n role : Nat) (t : State) : lineView (if t.laneRole n = some role then t.moveRole n role else t) = lineView t := by
    simp only [lineView_ite, lineView_moveRole, ite_self]
  unfold State.moveLanes
  dsimp only
  split
  · rfl
  · rw [lineView_degrade, lineView_mk, lineOf_time_slot]
    exact lineView_foldl (fun t role => lineView_foldl (fun u n => move n role u) _ t) _ s

theorem lineView_setRef (s : State) (k : Nat) (r : FurrowRef) : lineView (s.setRef k r) = lineView s := lineView_eq rfl rfl

theorem lineView_substitute (s : State) (g f : Nat) : lineView (s.substitute g f) = lineView s := by
  simp only [State.substitute, lineView_put, lineView_requestShutter, lineView_emit]

theorem lineView_restoreFurrow (s : State) (g f : Nat) : lineView (s.restoreFurrow g f) = lineView s := by
  simp only [State.restoreFurrow, lineView_putFlag, lineView_put, lineView_setRef, lineView_ite, lineView_mk, put_time, lineOf_time_slot,
    ite_self]

theorem lineView_spareGroup (s : State) (g : Nat) : lineView (s.spareGroup g) = lineView s := by
  unfold State.spareGroup
  dsimp only
  split
  · simp only [lineView_ite, lineView_substitute, ite_self]
  · split
    · rfl
    · simp only [lineView_ite, lineView_substitute, lineView_degrade, ite_self]

theorem lineView_spareBoundary (s : State) : lineView s.spareBoundary = lineView s := by
  simp only [State.spareBoundary, lineView_mk, lineOf_time_slot, lineView_ite, lineView_foldl, lineView_spareGroup, lineView_restoreFurrow,
    lineView_put, implies_true, ite_self]

theorem lineView_keepFrames (s : State) : lineView s.keepFrames = lineView s := lineView_eq rfl rfl

theorem lineView_failTherm (s : State) (k why : Nat) : lineView (s.failTherm k why) = lineView s := by
  simp only [State.failTherm, lineView_ite, ite_self, lineView_put, lineView_emit]

theorem lineView_thermBoundary (s : State) : lineView s.thermBoundary = lineView s := by
  unfold State.thermBoundary
  dsimp only
  rw [lineView_foldl, lineView_mk, lineOf_time_slot]
  intro t k
  split
  · simp only [lineView_ite, lineView_failTherm, ite_self]
  · rfl

/-! ### The coefficient store at a boundary (Machine/Correct) -/

theorem lineView_keepOlds (s : State) (ws : List (Nat × Int × Bool)) : lineView (s.keepOlds ws) = lineView s := by
  simp only [State.keepOlds, lineView_mk, lineOf_time_slot, lineView_ite, ite_self]

theorem lineView_writeGleaned (s : State) : lineView s.writeGleaned = lineView s := by
  unfold State.writeGleaned
  split
  · rfl
  · refine (lineView_foldl (fun t w => ?_) _ _).trans ((lineView_keepOlds _ _).trans lineView_mk)
    simp only [lineView_ite, lineView_bump, lineView_putBytes, lineView_setByte, lineView_requestShutter, ite_self]

theorem lineView_swapProgress (s : State) : lineView s.swapProgress = lineView s := by
  unfold State.swapProgress
  dsimp only
  rw [lineView_writeGleaned]
  split
  · simp only [lineView_ite, lineView_mk, lineOf_time_slot, lineView_put, ite_self]
    split
    · simp only [lineView_ite, lineView_mk, lineOf_time_slot, lineView_put, ite_self]
    · rfl
  · split
    · simp only [lineView_ite, lineView_mk, lineOf_time_slot, lineView_put, ite_self]
    · rfl

theorem lineView_noteHeader (s : State) (b off : Nat) : lineView (s.noteHeader b off) = lineView s := by
  simp only [State.noteHeader, lineView_mk, lineOf_time_slot, lineView_ite, ite_self]

theorem lineView_applySwaps (s : State) : lineView (s.applySwaps).1 = lineView s := by
  simp only [State.applySwaps, lineView_mk, lineOf_time_slot, lineView_ite, ite_self, lineView_put]

theorem lineView_firstHeader (s : State) (k : Nat) (v : Int) : lineView (s.firstHeader k v) = lineView s := by
  simp only [State.firstHeader, lineView_mk, lineOf_time_slot, lineView_ite, ite_self, lineView_noteHeader, lineView_putBytes]

theorem lineView_firstReadings (s : State) : lineView s.firstReadings = lineView s := by
  unfold State.firstReadings
  dsimp only
  rw [lineView_foldl]
  · split
    · rw [lineView_firstHeader]
      split
      · exact lineView_firstHeader _ _ _
      · rfl
    · split
      · exact lineView_firstHeader _ _ _
      · rfl
  · intro t k
    split
    · simp only [lineView_ite, lineView_firstHeader, ite_self]
    · rfl

theorem lineView_substrate (s : State) : lineView s.substrate = lineView s := by
  unfold State.substrate
  dsimp only
  split
  · rfl
  · split
    · simp only [lineView_ite, lineView_emit, lineView_put, ite_self]
    · rw [lineView_foldl, lineView_mk, lineOf_time_slot, lineView_put]
      intro t k
      split
      · exact lineView_putS _ _ _
      · rfl

theorem lineView_applyGleaned (s : State) (swapped : Bool) : lineView (s.applyGleaned swapped) = lineView s := by
  simp only [State.applyGleaned, lineView_mk, lineOf_time_slot]

/-! ### The walk, the lag table and the line's environment (Machine/Walk) -/

theorem lineView_useSpeed (s : State) : lineView s.useSpeed = lineView s := by
  simp only [State.useSpeed, lineView_put, lineView_putFlag, lineView_putSat]

theorem lineView_transferCor (s : State) : lineView s.transferCor = lineView s := by
  simp only [State.transferCor, lineView_mk, lineOf_time_slot, lineView_ite, ite_self, lineView_transfer]

theorem lineView_lagTable (s : State) (written : Bool) : lineView (s.lagTable written) = lineView s := by
  unfold State.lagTable
  dsimp only
  split <;>
    simp only [lineView_mk, lineOf_time_slot, lineView_putFlag, lineView_put]

theorem lineView_lagLine (s : State) (newBank : Bool) : lineView (s.lagLine newBank).1 = lineView s := by
  simp only [State.lagLine, lineView_ite, ite_self, lineView_putFlag, lineView_bump]

theorem lineView_suspendLine (s : State) : lineView s.suspendLine = lineView s := by
  unfold State.suspendLine
  dsimp only
  split <;>
    simp only [lineView_mk, lineOf_time_slot, lineView_ite, ite_self, lineView_bump]

theorem lineView_beginEnv (s : State) (newBank : Bool) : lineView (s.beginEnv newBank) = lineView s := by
  simp only [State.beginEnv, lineView_mk, lineOf_time_slot, lineView_useSpeed, lineView_lagTable, lineView_transferCor, lineView_lagLine]

theorem lineView_discontinuity (s : State) : lineView s.discontinuity = lineView s := lineView_eq rfl rfl

/-! ### Sheaves (Machine/Sheaves) -/

theorem lineView_putSheaf (s : State) (x : Sheaf) : lineView (s.putSheaf x) = lineView s := lineView_eq rfl rfl

/-! ### Leads and flight (Machine/Flight) -/

theorem lineView_leadLimited (s : State) (v lead : Nat) (b : Bool) : lineView (s.leadLimited v lead b) = lineView s := by
  simp only [State.leadLimited, lineView_mk, lineOf_time_slot, lineView_ite, ite_self, lineView_putFlag, lineView_emit]

theorem lineView_useLead (s : State) (v : Nat) : lineView (s.useLead v).1 = lineView s := by
  simp only [State.useLead, lineView_leadLimited]

theorem lineView_sealFlight (s : State) (c : Ctx) (lines : Nat) : lineView (s.sealFlight c lines).1 = lineView s := by
  unfold State.sealFlight
  dsimp only
  split
  · rfl
  · simp only [lineView_draw]

theorem lineView_sealGates (s : State) (start : Int) (x : List Nat) : lineView (s.sealGates start x).1 = lineView s := by
  induction x generalizing s with
  | nil => rfl
  | cons v vs ih => exact (ih _).trans (lineView_useLead s v)

theorem lineView_sealPlan (s : State) (c : Ctx) (lines : Nat) : lineView (s.sealPlan c lines).1 = lineView s := by
  simp only [State.sealPlan, apply_ite Prod.fst, lineView_ite, lineView_sealGates, lineView_sealFlight, ite_self]

/-! ### The switches of the matrix (Machine/Matrix) -/

theorem lineView_setEnabled (s : State) (b : Bool) : lineView (s.setEnabled b) = lineView s := by
  simp only [State.setEnabled, lineView_putFlag]

theorem lineView_putSwitch (s : State) (c : Nat) (b : Bool) : lineView (s.putSwitch c b) = lineView s := by
  simp only [State.putSwitch, lineView_mk, lineOf_time_slot, lineView_ite, ite_self]

theorem lineView_putChop (s : State) (c : Nat) (t : Option Int) : lineView (s.putChop c t) = lineView s := lineView_eq rfl rfl

theorem lineView_hotUpdate (s : State) : lineView s.hotUpdate = lineView s := by
  simp only [State.hotUpdate, lineView_putFlag]

theorem lineView_unseen (s : State) (x : Nat) : lineView (s.unseen x).1 = lineView s := by
  induction x generalizing s with
  | zero => rfl
  | succ n ih => exact (ih s.draw).trans (lineView_draw s)

/-! ### Auxiliary channels (Machine/Valve) -/

theorem lineView_putAux (s : State) (k : Nat) (a : Option Aux) : lineView (s.putAux k a) = lineView s := lineView_eq rfl rfl

theorem lineView_setAux (s : State) (k : Nat) (a : Option Aux) : lineView (s.setAux k a) = lineView s := by
  simp only [State.setAux, lineView_ite, ite_self, lineView_put, lineView_putAux]

theorem lineView_auxDecay (s : State) (k : Nat) (codes : List Nat) : lineView (s.auxDecay k codes) = lineView s := by
  unfold State.auxDecay
  dsimp only
  split <;>
    simp only [lineView_ite, ite_self, lineView_putChop, lineView_putSwitch, lineView_setAux]

theorem lineView_auxCut (s : State) (k : Nat) : lineView (s.auxCut k) = lineView s := by
  simp only [State.auxCut, lineView_unseen, lineView_auxDecay]

theorem lineView_auxRun (s : State) (k second ms : Nat) : lineView (s.auxRun k second ms) = lineView s := by
  simp only [State.auxRun, lineView_ite, ite_self, lineView_disarm, lineView_auxCut, lineView_putChop, lineView_putSwitch,
    lineView_setAux, lineView_bumpCounter, lineView_arm]

/-! ### Seals (Machine/Track) -/

theorem lineView_sealSheaf (s : State) (slot flag : Nat) : lineView (s.sealSheaf slot flag) = lineView s := by
  unfold State.sealSheaf
  dsimp only
  split <;>
    simp only [lineView_mk, lineOf_time_slot, lineView_sealPlan, lineView_putSheaf]

theorem lineView_sealOpen (s : State) (flag : Nat) : lineView (s.sealOpen flag) = lineView s :=
  lineView_foldl (fun t (x : Sheaf) => lineView_sealSheaf t x.slot flag) _ s

/-! ### A step of device time (Machine/Ptp) -/

theorem lineView_stepTime (s : State) : lineView s.stepTime = lineView s := by
  simp only [State.stepTime, lineView_emit, lineView_bump, lineView_put, lineView_mk]
  rfl

/-! ### Snapshots (Machine/Snapshot) -/

theorem lineView_setChannel (s : State) (n : Nat) (c : Channel) : lineView (s.setChannel n c) = lineView s := lineView_eq rfl rfl

theorem lineView_dmaBits (s : State) : lineView s.dmaBits = lineView s := by
  simp only [State.dmaBits, lineView_put]

theorem lineView_maintWait (s : State) : lineView s.maintWait = lineView s := by
  simp only [State.maintWait, lineView_ite, ite_self, lineView_arm, lineView_disarm]

theorem lineView_beginTransfer (s : State) (n : Nat) : lineView (s.beginTransfer n) = lineView s := by
  simp only [State.beginTransfer, lineView_put, lineView_maintWait, lineView_dmaBits, lineView_setWord]

theorem lineView_startMaint (s : State) (n : Nat) (c : Channel) : lineView (s.startMaint n c) = lineView s := by
  simp only [State.startMaint, lineView_mk, lineOf_time_slot, lineView_ite, ite_self, lineView_setChannel, lineView_put,
    lineView_beginTransfer]

theorem lineView_autoSnapshot (s : State) : lineView s.autoSnapshot = lineView s := by
  simp only [State.autoSnapshot, lineView_ite, ite_self, lineView_bump, lineView_startMaint]

/-! ### The failure figures of a solve (Machine/Solve) -/

theorem lineView_putWhy (s : State) (t : Solved) : lineView (s.putWhy t) = lineView s := by
  simp only [State.putWhy, lineView_putSat]

/-! ### The calibration sequencer (Machine/Script) -/

theorem lineView_startUpStep8 (s : State) : lineView s.startUpStep8 = lineView s := by
  simp only [State.startUpStep8, lineView_put, lineView_setDomains, lineView_requestShutter, lineView_bringUp, lineView_setDomain]

theorem lineView_releaseStandby (s : State) : lineView s.releaseStandby = lineView s := by
  simp only [State.releaseStandby, lineView_put]

theorem lineView_refuseEvent (s : State) (reason : Nat) : lineView (s.refuseEvent reason) = lineView s := by
  simp only [State.refuseEvent, lineView_mk, lineOf_time_slot, lineView_ite, ite_self, lineView_putSat, lineView_put,
    lineView_releaseStandby, lineView_bump, lineView_putWhy, lineView_emit]

theorem lineView_finishScript (s : State) (code : Nat) : lineView (s.finishScript code) = lineView s := by
  simp only [State.finishScript, lineView_mk, lineOf_time_slot, lineView_ite, ite_self, lineView_put, lineView_releaseStandby,
    lineView_releaseGap, lineView_putFlag, lineView_assertGap, lineView_startUpStep8]

theorem lineView_resumeNow (s : State) : lineView s.resumeNow = lineView s := by
  unfold State.resumeNow
  dsimp only
  split <;>
    simp only [lineView_mk, lineOf_time_slot, lineView_releaseGap, lineView_suspendLine, lineView_discontinuity,
      lineView_bump, lineView_put]

theorem lineView_beginStep (s : State) (op : Nat) : lineView (s.beginStep op) = lineView s := by
  simp only [State.beginStep, lineView_mk, lineOf_time_slot, lineView_ite, lineView_put, lineView_auxRun, lineView_resumeNow, ite_self]
  split
  · exact lineView_mk
  · rfl

theorem lineView_middleReadings (s : State) : lineView s.middleReadings = lineView s := by
  simp only [State.middleReadings, lineView_mk, lineOf_time_slot, lineView_ite, ite_self]

theorem lineView_startStep (s : State) (op n : Nat) : lineView (s.startStep op n) = lineView s := by
  simp only [State.startStep, lineView_mk, lineOf_time_slot, lineView_ite, ite_self, lineView_middleReadings, lineView_beginStep]

theorem lineView_finishClosing (s : State) (code : Nat) : lineView (s.finishClosing code) = lineView s := by
  simp only [State.finishClosing, lineView_ite, ite_self, lineView_finishScript, lineView_refuseEvent]

theorem lineView_endScript (s : State) (code : Nat) : lineView (s.endScript code) = lineView s := by
  unfold State.endScript
  dsimp only
  split <;>
    simp only [lineView_mk, lineOf_time_slot, lineView_startStep, lineView_finishClosing]

theorem lineView_jumpScript (s : State) (pc : Nat) : lineView (s.jumpScript pc) = lineView s := by
  simp only [State.jumpScript, lineView_mk, lineOf_time_slot, lineView_ite, ite_self, lineView_endScript, lineView_put]

theorem lineView_nextWord (s : State) : lineView s.nextWord = lineView s := by
  simp only [State.nextWord, lineView_jumpScript]

theorem lineView_qualityStart (s : State) : lineView s.qualityStart = lineView s := by
  simp only [State.qualityStart, lineView_mk, lineOf_time_slot, lineView_arm, lineView_put]

theorem lineView_bankInForce (s : State) : lineView s.bankInForce = lineView s := by
  simp only [State.bankInForce, lineView_mk, lineOf_time_slot, lineView_qualityStart, lineView_put, lineView_setPair]

theorem lineView_swapEnds (s : State) : lineView s.swapEnds = lineView s := by
  simp only [State.swapEnds, lineView_mk, lineOf_time_slot, lineView_autoSnapshot, lineView_releaseStandby, lineView_put]

theorem lineView_swapDone (s : State) : lineView s.swapDone = lineView s := by
  simp only [State.swapDone, lineView_ite, ite_self, lineView_bankInForce, lineView_swapEnds, lineView_nextWord]

theorem lineView_driftCheck (s : State) : lineView s.driftCheck = lineView s := by
  simp only [State.driftCheck, lineView_ite, ite_self, lineView_emit, lineView_put, lineView_requestShutter]

theorem lineView_references (s : State) : lineView s.references = lineView s := by
  simp only [State.references, lineView_mk, lineOf_time_slot]

theorem lineView_gapCheck (s : State) : lineView s.gapCheck = lineView s := by
  simp only [State.gapCheck, lineView_ite, ite_self, lineView_nextWord, lineView_disarm, lineView_put]

theorem lineView_plateCheck (s : State) : lineView s.plateCheck = lineView s := by
  simp only [State.plateCheck, lineView_mk, lineOf_time_slot, lineView_ite, ite_self, lineView_jumpScript]

theorem lineView_calLine (s : State) : lineView s.calLine = lineView s := by
  unfold State.calLine
  dsimp only
  rw [lineView_driftCheck, lineView_gapCheck, lineView_plateCheck, lineView_middleReadings]
  split
  · split
    · split
      · exact lineView_beginStep s _
      · split
        · exact (lineView_nextWord _).trans (lineView_beginStep s _)
        · exact (lineView_finishClosing _ _).trans (lineView_beginStep s _)
    · rfl
  · rfl

/-! ### The boundary (Machine/Lines) -/

theorem lineView_takeThrottle (s : State) (changed : Bool) : lineView (s.takeThrottle changed) = lineView s := by
  unfold State.takeThrottle
  dsimp only
  split <;>
    simp only [lineView_mk, lineOf_time_slot, lineView_ite, ite_self]

theorem lineView_takePeriod (s : State) : lineView s.takePeriod = lineView s := by
  simp only [State.takePeriod, lineView_put, lineView_transfer, lineView_takeThrottle, lineView_fslowUpdate]

theorem lineView_shiftDevice (s : State) (d : Int) : lineView (s.shiftDevice d) = lineView s := (rfl)

theorem lineView_stepCheck (s : State) : lineView s.stepCheck = lineView s := by
  simp only [State.stepCheck, lineView_ite, ite_self, lineView_discontinuity, lineView_shiftDevice, lineView_stepTime]

theorem lineView_linkBoundary (s : State) : lineView s.linkBoundary = lineView s := by
  simp only [State.linkBoundary, lineView_mk, lineOf_time_slot, lineView_ite, ite_self, lineView_moveLanes, lineView_sealOpen,
    lineView_discontinuity]

theorem lineView_calBoundary (s : State) : lineView (s.calBoundary).1 = lineView s := by
  simp only [State.calBoundary, lineView_ite, ite_self, lineView_references, lineView_thermBoundary, lineView_applySwaps,
    lineView_swapDone, lineView_swapProgress, lineView_substrate, lineView_firstReadings, lineView_applyGleaned]

theorem lineView_setsBoundary (s : State) : lineView s.setsBoundary = lineView s := by
  simp only [State.setsBoundary, lineView_ite, ite_self, lineView_put, lineView_transfer]

theorem lineView_admissionStart (s : State) : lineView s.admissionStart = lineView s := by
  simp only [State.admissionStart, lineView_mk, lineOf_time_slot, lineView_ite, ite_self, lineView_put]

theorem lineView_valvesEnable (s : State) : lineView s.valvesEnable = lineView s := by
  simp only [State.valvesEnable, lineView_ite, ite_self, lineView_setEnabled]

theorem lineView_syncBits (s : State) : lineView s.syncBits = lineView s := by
  simp only [State.syncBits, lineView_put, lineView_putFlag]

/-- The boundary is noted, the row slots begin anew, and nothing else of the view changes. -/
theorem lineView_startLine (s : State) : lineView s.startLine = lineOf { s.time with lineTick := s.time.ticks } 0 := by
  simp only [State.startLine, lineView_syncBits, lineView_calLine, lineView_hotUpdate, lineView_valvesEnable, lineView_setsBoundary,
    lineView_spareBoundary, lineView_beginEnv, lineView_calBoundary, lineView_admissionStart, lineView_takePeriod, lineView_stepCheck,
    lineView_linkBoundary, lineView_keepFrames, lineView_mk]

theorem startLine_ticks (s : State) : s.startLine.time.ticks = s.time.ticks := congrArg LineView.ticks (lineView_startLine s)
theorem startLine_line (s : State) : s.startLine.time.line = s.time.line := congrArg LineView.line (lineView_startLine s)
theorem startLine_lineTick (s : State) : s.startLine.time.lineTick = s.time.ticks := congrArg LineView.lineTick (lineView_startLine s)
theorem startLine_slot (s : State) : s.startLine.rdo.slot = 0 := congrArg LineView.slot (lineView_startLine s)

end Sys2Proof.Proofs
end

section
/-!
Fields that share a register, and registers whose bits a write of ones clears: what the laws of Sys2Proof/Laws/Registers leave to say about a
word after a write.
-/
namespace Sys2Proof.Proofs

open Sys2Proof.Machine Sys2Proof.Safety Sys2Proof.Laws

/-- What stands below a field stays when the field is replaced. -/
theorem into_mod {g : Field} {w : Word} {v : Nat} (hg : g.lo + g.width ≤ 32) :
    (g.into w v).toNat % 2 ^ g.lo = w.toNat % 2 ^ g.lo := by
  rw [into_toNat g w v hg, Nat.pow_add, Nat.mul_assoc, Nat.add_assoc, ← Nat.mul_add, Nat.add_mul_mod_self_left, Nat.mod_mod]

/-- What stands above it stays, too. -/
theorem into_div {g : Field} {w : Word} {v : Nat} (hg : g.lo + g.width ≤ 32) :
    (g.into w v).toNat / 2 ^ (g.lo + g.width) = w.toNat / 2 ^ (g.lo + g.width) := by
  have hl : w.toNat % 2 ^ g.lo < 2 ^ g.lo := Nat.mod_lt _ (Nat.two_pow_pos _)
  have hv : v % 2 ^ g.width < 2 ^ g.width := Nat.mod_lt _ (Nat.two_pow_pos _)
  have hlow : w.toNat % 2 ^ g.lo + 2 ^ g.lo * (v % 2 ^ g.width) < 2 ^ (g.lo + g.width) := by
    calc _ < 2 ^ g.lo * (v % 2 ^ g.width + 1) := by rw [Nat.mul_succ]; omega
      _ ≤ 2 ^ g.lo * 2 ^ g.width := Nat.mul_le_mul_left _ hv
      _ = 2 ^ (g.lo + g.width) := (Nat.pow_add 2 _ _).symm
  rw [into_toNat g w v hg, Nat.add_mul_div_left _ _ (Nat.two_pow_pos _), Nat.div_eq_of_lt hlow, Nat.zero_add]

/-- A field reads as before when one that shares no bit with it is replaced. -/
theorem of_into_apart {f g : Field} {w : Word} {v : Nat} (hg : g.lo + g.width ≤ 32)
    (h : f.lo + f.width ≤ g.lo ∨ g.lo + g.width ≤ f.lo) : f.of (g.into w v) = f.of w := by
  unfold Field.of
  rw [bits_eq, bits_eq]
  rcases h with below | above
  · have cut (n : Nat) : n / 2 ^ f.lo % 2 ^ f.width = n % 2 ^ g.lo % (2 ^ f.lo * 2 ^ f.width) / 2 ^ f.lo := by
      rw [Nat.mod_mod_of_dvd _ (by rw [← Nat.pow_add]; exact Nat.pow_dvd_pow 2 below), Nat.mod_mul_right_div_self]
    rw [cut, cut, into_mod hg]
  · have shift (n : Nat) : n / 2 ^ f.lo = n / 2 ^ (g.lo + g.width) / 2 ^ (f.lo - (g.lo + g.width)) := by
      rw [Nat.div_div_eq_div_mul, ← Nat.pow_add, Nat.add_sub_cancel' above]
    rw [shift, shift, into_div hg]

theorem get_put_apart {s : State} {f g : Field} {v : Nat} (hg : g.lo + g.width ≤ 32)
    (h : f.addr ≠ g.addr ∨ f.lo + f.width ≤ g.lo ∨ g.lo + g.width ≤ f.lo) : (s.put g v).get f = s.get f := by
  by_cases ha : f.addr = g.addr
  · unfold State.get
    rw [ha, word_put_self, of_into_apart hg (h.resolve_left (not_not_intro ha))]
  · exact get_put_ne ha

/-! ### Registers that a state keeps -/

theorem regsKept_put {s t : State} {l : List Nat} (h : RegsKept s t l) {f : Field} {v : Nat} (hf : f.addr ∈ l) :
    RegsKept s (t.put f v) l := by
  intro a ha
  have hne : a ≠ f.addr := fun e => ha (e ▸ hf)
  exact (word_put_ne hne).trans (h a ha)

theorem regsKept_setWord (s : State) (a : Nat) (w : Word) : RegsKept s (s.setWord a w) [a] := by
  intro b hb
  exact word_setWord_ne (by simpa using hb)

/-! ### Writes of ones (R9) -/

/-- A word less the bits that it shares with a mask is the word without the mask's bits. -/
theorem ofNat_sub_and (w : Word) {m : Nat} (hm : m < 2 ^ 32) :
    BitVec.ofNat 32 (w.toNat - (w.toNat &&& m)) = w &&& ~~~(BitVec.ofNat 32 m) := by
  obtain ⟨x, rfl⟩ : ∃ x : Word, m = x.toNat := ⟨BitVec.ofNat 32 m, (Nat.mod_eq_of_lt hm).symm⟩
  have apart : (w &&& ~~~x) &&& (w &&& x) = 0#32 := by
    ext i
    cases hx : x[i] <;> simp [hx]
  have whole : (w &&& ~~~x) + (w &&& x) = w := by
    rw [BitVec.add_eq_or_of_and_eq_zero _ _ apart]
    ext i
    cases hx : x[i] <;> simp [hx]
  have hle : (w &&& x).toNat ≤ w.toNat := BitVec.toNat_and w x ▸ Nat.and_le_left
  have difference : w &&& ~~~x = w - (w &&& x) := by
    calc w &&& ~~~x = (w &&& ~~~x) + (w &&& x) - (w &&& x) := (BitVec.add_sub_cancel _ _).symm
      _ = w - (w &&& x) := congrArg (· - (w &&& x)) whole
  rw [BitVec.ofNat_toNat, BitVec.setWidth_eq, ← BitVec.toNat_and, difference]
  apply BitVec.eq_of_toNat_eq
  rw [BitVec.toNat_sub_of_le hle, BitVec.toNat_ofNat]
  omega

theorem word_clearOnes_self (s : State) (a : Nat) {m : Nat} (hm : m < 2 ^ 32) :
    (s.clearOnes a m).word a = s.word a &&& ~~~(BitVec.ofNat 32 m) := by
  unfold State.clearOnes
  rw [word_setWord_self, ofNat_sub_and _ hm]

end Sys2Proof.Proofs
end

section
/-! LSYNC pulses (R428, R432): a pulse that starts its line at once, one that waits, and the counters and flags of the timebase. -/
namespace Sys2Proof.Proofs

open Sys2Proof.Machine Sys2Proof.Safety Sys2Proof.Laws

/-- The edge clears LSYNC_LOST and waits behind the pulses before it. -/
def pulseWaits (s : State) : State :=
  { s.put Reg.TBS_STATUS_LSYNC_LOST 0 with time := { s.time with lsync := s.time.lsync ++ [s.time.ticks] } }

/-- The moment of the first pulse's line has come, and that line is the one to begin. -/
def pulseTaken (s : State) (t : Nat) : State :=
  { s.elapseTo t with time := { (s.elapseTo t).time with lsync := (s.elapseTo t).time.lsync.drop 1, line := (s.elapseTo t).time.line + 1 } }

theorem get_pulseWaits {s : State} {f : Field} (h : f.addr ≠ Reg.TBS_STATUS ∨ f.lo + f.width ≤ 2 ∨ 3 ≤ f.lo) :
    (pulseWaits s).get f = s.get f :=
  get_put_apart (s := s) (by decide) h

theorem get_pulseWaits_lost (s : State) : (pulseWaits s).get Reg.TBS_STATUS_LSYNC_LOST = 0 :=
  get_put_self s Reg.TBS_STATUS_LSYNC_LOST 0 (by decide)

theorem elapseTo_lines (s : State) (t : Nat) : (s.elapseTo t).time.lines = s.time.lines := by
  unfold State.elapseTo
  split <;> rfl

theorem takePulse_of_lines {s : State} {t : Nat} (h : s.time.lines = true) : s.takePulse t = (pulseTaken s t).startLine := by
  simp [State.takePulse, elapseTo_lines, h, State.nextBoundary, pulseTaken]

/-- While lines run, the first pulse's line begins no earlier than P after the last boundary (R428). -/
theorem pulseLine_pulseWaits {s : State} (h : s.time.lines = true) : (pulseWaits s).pulseLine =
    (s.time.lsync ++ [s.time.ticks]).head?.map (fun e => Nat.max (e + 20) (s.time.lineTick + s.periodTicks)) := by
  have hp : (pulseWaits s).periodTicks = s.periodTicks := get_pulseWaits (by decide)
  unfold State.pulseLine
  rw [hp]
  simp [pulseWaits, h]

section
variable {s : State} (hrun : s.cfg.stage = .running) (hown : s.ownsAll 4 = true) (hsync : s.flag Reg.TBS_CTRL_SYNC = true)
  (hlines : s.time.lines = true)
include hrun hown hsync hlines

/-- A first pulse that is not early starts its line 200 ns after its edge. -/
theorem lsyncEdge_of_onTime (hfirst : s.time.lsync = []) (h : s.time.lineTick + s.periodTicks ≤ s.time.ticks + 20) :
    s.lsyncEdge = (pulseTaken (pulseWaits s) (s.time.ticks + 20)).startLine := by
  have notEarly : (s.time.lines && decide (s.time.ticks + 20 < s.time.lineTick + s.periodTicks)) = false := by
    rw [decide_eq_false (Nat.not_lt.2 h), Bool.and_false]
  have hline : (pulseWaits s).pulseLine = some (s.time.ticks + 20) := by
    rw [pulseLine_pulseWaits hlines, hfirst]
    exact congrArg some (Nat.max_eq_left h)
  unfold State.lsyncEdge
  rw [if_neg (by simp [hrun, hown, hsync]), if_neg (by simp [hfirst])]
  dsimp only
  rw [notEarly, if_neg Bool.false_ne_true]
  split
  next t ht =>
    have e : t = s.time.ticks + 20 := Option.some.inj (ht.symm.trans hline)
    rw [e, if_pos (Nat.le_refl _)]
    exact takePulse_of_lines hlines
  next ht => exact absurd (ht.symm.trans hline) (by simp)

/-- An early pulse is counted and waits. -/
theorem lsyncEdge_of_early (hroom : s.time.lsync.length < 15) (h : s.time.ticks + 20 < s.time.lineTick + s.periodTicks) :
    s.lsyncEdge = (pulseWaits (s.bump Reg.TBS_LSYNC_EARLY 1)).syncBits := by
  have early : (s.time.lines && decide (s.time.ticks + 20 < s.time.lineTick + s.periodTicks)) = true := by
    rw [hlines, decide_eq_true h, Bool.and_true]
  have hperiod : (s.bump Reg.TBS_LSYNC_EARLY 1).periodTicks = s.periodTicks :=
    get_put_ne (by decide)
  have waits (t : Nat) (ht : (pulseWaits (s.bump Reg.TBS_LSYNC_EARLY 1)).pulseLine = some t) : ¬ t ≤ s.time.ticks + 20 := by
    rw [pulseLine_pulseWaits (s := s.bump Reg.TBS_LSYNC_EARLY 1) hlines, hperiod] at ht
    obtain ⟨e, -, rfl⟩ := Option.map_eq_some_iff.1 ht
    exact Nat.not_le.2 (Nat.lt_of_lt_of_le h (Nat.le_max_right _ _))
  unfold State.lsyncEdge
  rw [if_neg (by simp [hrun, hown, hsync]), if_neg (Nat.not_le.2 hroom)]
  dsimp only
  rw [early, if_pos rfl]
  split
  next t ht => exact if_neg (waits t ht)
  next => rfl

end

/-! ### What the commands leave -/

theorem elapseTo_ticks {s : State} {t : Nat} (h : s.time.ticks ≤ t) : (s.elapseTo t).time.ticks = t := by
  unfold State.elapseTo
  split
  · exact Nat.add_sub_cancel' h
  · omega

theorem elapseTo_line (s : State) (t : Nat) : (s.elapseTo t).time.line = s.time.line := by
  unfold State.elapseTo
  split <;> rfl

theorem elapseTo_lsync (s : State) (t : Nat) : (s.elapseTo t).time.lsync = s.time.lsync := by
  unfold State.elapseTo
  split <;> rfl

theorem elapseTo_mem (s : State) (t : Nat) : (s.elapseTo t).mem = s.mem := by
  unfold State.elapseTo
  split <;> rfl

theorem regsKept_pulseWaits (s : State) : RegsKept s (pulseWaits s) [Reg.TBS_STATUS] :=
  regsKept_setWord s Reg.TBS_STATUS _

theorem pulseTaken_regs (s : State) (t : Nat) : (pulseTaken s t).regs = s.regs := by
  unfold pulseTaken State.elapseTo
  split <;> rfl

theorem regsKept_syncBits {s t : State} {l : List Nat} (h : RegsKept s t l) (hl : Reg.TBS_STATUS ∈ l) : RegsKept s t.syncBits l :=
  regsKept_put (f := Reg.TBS_STATUS_LSYNC_PENDING) (regsKept_put (f := Reg.TBS_STATUS_EXT_SYNC) h hl) hl

theorem get_syncBits_ne {s : State} {f : Field} (h : f.addr ≠ Reg.TBS_STATUS) : s.syncBits.get f = s.get f :=
  (get_put_ne h).trans (get_put_ne h)

theorem get_syncBits_lost (s : State) : s.syncBits.get Reg.TBS_STATUS_LSYNC_LOST = s.get Reg.TBS_STATUS_LSYNC_LOST :=
  (get_put_apart (by decide) (by decide)).trans (get_put_apart (by decide) (by decide))

theorem get_syncBits_pending {s : State} (h : s.time.lsync.length < 16) :
    s.syncBits.get Reg.TBS_STATUS_LSYNC_PENDING = s.time.lsync.length :=
  (get_put_self _ Reg.TBS_STATUS_LSYNC_PENDING _ (by decide)).trans (Nat.mod_eq_of_lt h)

/-- A counter field that saturates. -/
theorem get_bump_self (s : State) (f : Field) (n : Nat) (h : f.lo + f.width ≤ 32) :
    (s.bump f n).get f = Nat.min (s.get f + n) (2 ^ f.width - 1) := by
  have hlt : Nat.min (s.get f + n) (2 ^ f.width - 1) < 2 ^ f.width :=
    Nat.lt_of_le_of_lt (Nat.min_le_right _ _) (Nat.sub_one_lt (Nat.ne_of_gt (Nat.two_pow_pos _)))
  exact (get_put_self s f _ h).trans (Nat.mod_eq_of_lt hlt)

/-- The state in which the line of a pulse in time begins, w ticks and the 200 ns after its edge later. -/
def pulseBegins (s : State) (w : Nat) : State := pulseTaken (pulseWaits (s.elapse w)) (s.time.ticks + w + 20)

theorem pulseBegins_line (s : State) (w : Nat) : (pulseBegins s w).time.line = s.time.line + 1 :=
  congrArg (· + 1) (elapseTo_line _ _)

theorem pulseBegins_ticks (s : State) (w : Nat) : (pulseBegins s w).time.ticks = s.time.ticks + w + 20 :=
  elapseTo_ticks (s := pulseWaits (s.elapse w)) (Nat.le_add_right _ 20)

/-- The first pulse leaves the accumulator. -/
theorem pulseBegins_lsync (s : State) (w : Nat) : (pulseBegins s w).time.lsync = (s.time.lsync ++ [s.time.ticks + w]).drop 1 :=
  congrArg (List.drop 1) (elapseTo_lsync _ _)

theorem word_pulseBegins (s : State) (w a : Nat) : (pulseBegins s w).word a = (pulseWaits (s.elapse w)).word a :=
  congrArg (Map.read Reg.resetWord · a) (pulseTaken_regs _ _)

section
variable {s : State} {w : Nat} (hrun : s.cfg.stage = .running) (hown : s.ownsAll 4 = true)
  (hsync : s.flag Reg.TBS_CTRL_SYNC = true) (hlines : s.time.lines = true)
include hrun hown hsync hlines

/-- A pulse in time: its line begins 200 ns after the edge. -/
theorem lsyncPulse_starts (hfirst : s.time.lsync = [])
    (h : s.time.lineTick + s.get Reg.TBS_STATUS_PERIOD_NOW ≤ s.time.ticks + w + 20) :
    ∃ t u : State, exec (.lsyncPulse w) s = .next t ∧ t = u.startLine ∧ t.time.line = s.time.line + 1 ∧
      t.time.lineTick = u.time.ticks ∧ t.time.ticks = u.time.ticks ∧ t.rdo.slot = 0 ∧ u.time.line = s.time.line + 1 ∧
      u.time.ticks = s.time.ticks + w + 20 ∧ u.time.lsync = [] ∧ u.get Reg.TBS_STATUS_LSYNC_LOST = 0 ∧
      RegsKept s u [Reg.TBS_STATUS] ∧ u.mem = s.mem := by
  have hedge : (s.elapse w).lsyncEdge = (pulseBegins s w).startLine :=
    lsyncEdge_of_onTime (s := s.elapse w) hrun hown hsync hlines hfirst h
  refine ⟨_, pulseBegins s w, congrArg Host.Outcome.next hedge, rfl, (startLine_line _).trans (pulseBegins_line s w),
    startLine_lineTick _, startLine_ticks _, startLine_slot _, pulseBegins_line s w, pulseBegins_ticks s w, ?_, ?_, ?_, elapseTo_mem _ _⟩
  · rw [pulseBegins_lsync, hfirst]
    rfl
  · exact (congrArg _ (word_pulseBegins s w _)).trans (get_pulseWaits_lost _)
  · exact fun a ha => (word_pulseBegins s w a).trans (regsKept_pulseWaits (s.elapse w) a ha)

/-- A pulse that comes too early is counted, waits and shows. -/
theorem lsyncPulse_waits (hroom : s.time.lsync.length < 15)
    (h : s.time.ticks + w + 20 < s.time.lineTick + s.get Reg.TBS_STATUS_PERIOD_NOW) :
    ∃ t, exec (.lsyncPulse w) s = .next t ∧ t.time.lsync = s.time.lsync ++ [s.time.ticks + w] ∧ t.time.line = s.time.line ∧
      t.get Reg.TBS_LSYNC_EARLY = Nat.min (s.get Reg.TBS_LSYNC_EARLY + 1) 65535 ∧
      t.get Reg.TBS_STATUS_LSYNC_PENDING = s.time.lsync.length + 1 ∧ t.get Reg.TBS_STATUS_LSYNC_LOST = 0 ∧
      RegsKept s t [Reg.TBS_STATUS, Reg.TBS_LSYNC] ∧ t.mem = s.mem := by
  have hedge := lsyncEdge_of_early (s := s.elapse w) hrun hown hsync hlines hroom h
  have hlength : (s.time.lsync ++ [s.time.ticks + w]).length = s.time.lsync.length + 1 := List.length_append
  have hkept : RegsKept s ((s.elapse w).bump Reg.TBS_LSYNC_EARLY 1) [Reg.TBS_STATUS, Reg.TBS_LSYNC] :=
    regsKept_put (t := s.elapse w) (f := Reg.TBS_LSYNC_EARLY) (fun _ _ => rfl) (by decide)
  refine ⟨_, congrArg Host.Outcome.next hedge, rfl, rfl, ?_, ?_, ?_, ?_, rfl⟩
  · rw [get_syncBits_ne (by decide), get_pulseWaits (by decide)]
    exact get_bump_self (s.elapse w) Reg.TBS_LSYNC_EARLY 1 (by decide)
  · exact (get_syncBits_pending (Nat.lt_of_le_of_lt (Nat.le_of_eq hlength) (Nat.succ_lt_succ hroom))).trans hlength
  · rw [get_syncBits_lost, get_pulseWaits_lost]
  · exact regsKept_syncBits (regsKept_put (f := Reg.TBS_STATUS_LSYNC_LOST) hkept (by decide)) (by decide)

end

/-- TBS_CMD CLR_COUNTERS as a host word that is taken. -/
theorem tbsClrCounters_clears {s : State} (h : s.reaches Reg.TBS_CMD = true) : ∃ t, exec .tbsClrCounters s = .next t ∧
    t.word Reg.TBS_LSYNC = 0 ∧ RegsKept s t [Reg.TBS_LSYNC] ∧ OnlyApplied s t :=
  ⟨_, congrArg Host.Outcome.next (host_some h), word_setWord_self s Reg.TBS_LSYNC 0, regsKept_setWord s Reg.TBS_LSYNC 0, rfl⟩

/-- A write of ones to TBS_FLAGS as a host word that is taken. -/
theorem tbsFlagsClear_clears {s : State} (mask : Nat) (h : s.reaches Reg.TBS_FLAGS = true) : ∃ t, exec (.tbsFlagsClear mask) s = .next t ∧
    t.word Reg.TBS_FLAGS = s.word Reg.TBS_FLAGS &&& ~~~(BitVec.ofNat 32 (mask % 16)) ∧ RegsKept s t [Reg.TBS_FLAGS] ∧ OnlyApplied s t :=
  ⟨_, congrArg Host.Outcome.next (host_some h), word_clearOnes_self s _ (by omega), regsKept_setWord s _ _, rfl⟩

/-- Settles O12: the edge is early or not, and the two writes are host words. -/
theorem lsyncPulsesAreCountedAndCleared : Obligations.LsyncPulsesAreCountedAndCleared :=
  ⟨fun _ _ hrun hown hsync hlines => ⟨lsyncPulse_starts hrun hown hsync hlines, lsyncPulse_waits hrun hown hsync hlines⟩,
    fun _ h => tbsClrCounters_clears h, fun _ mask h => tbsFlagsClear_clears mask h⟩

end Sys2Proof.Proofs
end

section
/-!
Line 0 for want of LSYNC (R56) and start-up step 7: the step that line 0 opens may be over at once. Until line 0 the host may write script 0,
and a word with no defined opcode ends the script as it runs (R172; log entry 33), so that step 8 begins with line 0 (Table 2-8).
-/
namespace Sys2Proof.Proofs

open Sys2Proof.Machine Sys2Proof.Safety Sys2Proof.Laws

/-- The state in which line 0 begins for want of a pulse: LOST × P after commit, with the loss told. -/
def startTimeoutBegins (s : State) : State :=
  (s.elapseTo (s.time.commitTick + s.get Reg.TBS_CTRL_LOST * s.periodTicks)).loseLsync 0

theorem exec_lsyncStartTimeout {s : State} (hrun : s.cfg.stage = .running) (hlines : s.time.lines = false) (hnone : s.time.lsync = []) :
    exec .lsyncStartTimeout s = .next (startTimeoutBegins s).lineZero :=
  congrArg Host.Outcome.next (if_pos ⟨hrun, by rw [hlines]; rfl, by rw [hnone]; rfl⟩)

/-- A part that runs with external sync and has had no pulse yet. -/
def awaitsLsync : State := State.put { State.reset with cfg := { CfgState.reset with stage := .running } } Reg.TBS_CTRL_SYNC 1

/-- The same after the host has written a word with opcode 0x10, which Table 6-7 does not define, as the first word of script 0. -/
def undefinedStart : State :=
  awaitsLsync.host (Reg.CAL_SCRIPT_MEM 0 0) (awaitsLsync.hostScriptWord (Reg.CAL_SCRIPT_MEM 0 0) 0x10000000)

/-- SCRIPT_WRITE leads there: no script runs before line 0, and the word is not REFUSED (R54, R171). -/
theorem exec_scriptWrite_awaitsLsync :
    exec (.scriptWrite (Reg.CAL_SCRIPT_MEM 0 0) 0x10000000) awaitsLsync = .next undefinedStart :=
  congrArg Host.Outcome.next (if_pos (by decide))

/-- The word was applied. -/
theorem undefinedStart_scriptWord : undefinedStart.scriptWord 0 0 = 0x10000000 := by decide +kernel

/-- Line 0 starts script 0, which ends at its first word: step 8 has begun. -/
theorem undefinedStart_lineZero_phase : (startTimeoutBegins undefinedStart).lineZero.get Reg.CFG_PHASE_PHASE = 5 := by decide +kernel

/-- Refutes O11, in its clause on LSYNC_START_TIMEOUT: PHASE is not 4 after line 0 where script 0 ends at its first word; `undefinedStart` shows
PHASE 5. -/
theorem not_linesFollowPeriodOrPulse : ¬ Obligations.LinesFollowPeriodOrPulse := by
  unfold Obligations.LinesFollowPeriodOrPulse
  rintro ⟨-, -, -, timeout⟩
  have hrun : undefinedStart.cfg.stage = .running := by decide +kernel
  have hlines : undefinedStart.time.lines = false := by decide +kernel
  have hnone : undefinedStart.time.lsync = [] := by decide +kernel
  obtain ⟨t, u, hexec, -, -, -, -, -, -, hphase, -⟩ := timeout undefinedStart hrun hlines hnone
  have ht : (startTimeoutBegins undefinedStart).lineZero = t :=
    Host.Outcome.next.inj ((exec_lsyncStartTimeout hrun hlines hnone).symm.trans hexec)
  rw [← ht, undefinedStart_lineZero_phase] at hphase
  exact absurd hphase (by decide)

end Sys2Proof.Proofs
end

section
/-!
Reads after writes that the coefficient store and the lanes need beyond Sys2Proof/Laws/Registers: words of the windows, rows of counters
cleared in turn, a frame of one word, and states that differ in registers only.
-/
namespace Sys2Proof.Proofs

open Sys2Proof.Machine Sys2Proof.Safety Sys2Proof.Laws

/-! ### Words of the windows -/

theorem length_leBytes (n x : Nat) : (leBytes n x).length = n := by
  induction n generalizing x with
  | zero => rfl
  | succ n ih => exact congrArg (· + 1) (ih (x / 256))

/-- A word written to a window is read back (R8). -/
@[simp] theorem memWord_setMemWord_self (s : State) (a : Nat) (w : Word) : (s.setMemWord a w).memWord a = w := by
  have byte_at (i : Nat) (h : i < (leBytes 4 w.toNat).length) : (s.setMemWord a w).byte (a + i) = (leBytes 4 w.toNat)[i] :=
    read_writeBytes_in h
  have h0 : (s.setMemWord a w).byte a = BitVec.ofNat 8 w.toNat := byte_at 0 (by simp [length_leBytes])
  have h1 : (s.setMemWord a w).byte (a + 1) = BitVec.ofNat 8 (w.toNat / 256) := byte_at 1 (by simp [length_leBytes])
  have h2 : (s.setMemWord a w).byte (a + 2) = BitVec.ofNat 8 (w.toNat / 256 / 256) := byte_at 2 (by simp [length_leBytes])
  have h3 : (s.setMemWord a w).byte (a + 3) = BitVec.ofNat 8 (w.toNat / 256 / 256 / 256) := byte_at 3 (by simp [length_leBytes])
  have hw : w.toNat < 2 ^ 32 := w.isLt
  apply BitVec.eq_of_toNat_eq
  rw [State.memWord, h0, h1, h2, h3]
  simp only [BitVec.toNat_ofNat]
  omega

/-- A window word is its four bytes. -/
theorem memWord_congr {s t : State} {a : Nat} (h : ∀ i < 4, t.byte (a + i) = s.byte (a + i)) : t.memWord a = s.memWord a := by
  have h0 : t.byte a = s.byte a := h 0 (by decide)
  unfold State.memWord
  rw [h0, h 1 (by decide), h 2 (by decide), h 3 (by decide)]

@[simp] theorem get_setMemWord (s : State) (a : Nat) (w : Word) (f : Field) : (s.setMemWord a w).get f = s.get f := rfl

@[simp] theorem flag_setMemWord (s : State) (a : Nat) (w : Word) (f : Field) : (s.setMemWord a w).flag f = s.flag f := rfl

@[simp] theorem activeTable_setMemWord (s : State) (a : Nat) (w : Word) : (s.setMemWord a w).activeTable = s.activeTable :=
  get_setMemWord s a w _

theorem bytesKept_setMemWord (s : State) (a : Nat) (w : Word) : BytesKept s (s.setMemWord a w) a 4 :=
  fun _ hb => byte_setMemWord_out hb

/-! ### A frame of one word -/

/-- A frame of one word is that word as a host action. -/
theorem hostFrame_singleton (s : State) (a : Nat) (f : State → Nat → Word → Option State) (w : Word) :
    s.hostFrame a f [w] = s.host a (f s a w) := by
  unfold State.hostFrame State.host State.hostDone
  dsimp only [applyWords]
  rcases Option.eq_none_or_eq_some (f s a w) with h | ⟨t, h⟩ <;> simp [State.judged, State.wordsDone, h]

/-! ### Fields -/

/-- A field reads a value that fits it. -/
theorem get_lt (s : State) (f : Field) : s.get f < 2 ^ f.width := Nat.mod_lt _ (Nat.two_pow_pos _)

theorem get_put_zero {s : State} {f : Field} (h : f.lo + f.width ≤ 32) : (s.put f 0).get f = 0 :=
  (get_put_self s f 0 h).trans (Nat.zero_mod _)

/-! ### States that differ in registers only -/

theorem onlyRegs_refl (s : State) : OnlyRegs s s := rfl

theorem onlyRegs_setWord {s t : State} (h : OnlyRegs s t) (a : Nat) (w : Word) : OnlyRegs s (t.setWord a w) := by
  unfold OnlyRegs at *
  rw [h]
  rfl

theorem onlyRegs_put {s t : State} (h : OnlyRegs s t) (f : Field) (v : Nat) : OnlyRegs s (t.put f v) :=
  onlyRegs_setWord h f.addr _

theorem onlyRegs_foldl_put {s t : State} (h : OnlyRegs s t) (g : Nat → Field) (v : Nat) (l : List Nat) :
    OnlyRegs s (l.foldl (fun t n => t.put (g n) v) t) := by
  induction l generalizing t with
  | nil => exact h
  | cons n l ih => exact ih (onlyRegs_put h (g n) v)

theorem onlyApplied_of_onlyRegs {s t : State} (h : OnlyRegs s t) : OnlyApplied s t.applied := by
  unfold OnlyRegs at h
  unfold OnlyApplied
  rw [h]
  rfl

/-! ### Rows of words and fields written in turn -/

theorem word_foldl_setWord_ne {a : Nat} {w : Word} {l : List Nat} (h : a ∉ l) (s : State) :
    (l.foldl (fun t b => t.setWord b w) s).word a = s.word a := by
  induction l generalizing s with
  | nil => rfl
  | cons b l ih =>
    obtain ⟨hb, hl⟩ := List.ne_and_not_mem_of_not_mem_cons h
    exact (ih hl _).trans (word_setWord_ne hb)

theorem word_foldl_setWord_mem {a : Nat} {w : Word} {l : List Nat} (h : a ∈ l) (s : State) :
    (l.foldl (fun t b => t.setWord b w) s).word a = w := by
  induction l generalizing s with
  | nil => simp at h
  | cons b l ih =>
    by_cases hl : a ∈ l
    · exact ih hl _
    · obtain rfl := (List.mem_cons.1 h).resolve_right hl
      exact (word_foldl_setWord_ne hl _).trans (word_setWord_self s a w)

theorem word_foldl_put_ne {g : Nat → Field} {v a : Nat} {l : List Nat} (h : ∀ n ∈ l, a ≠ (g n).addr) (s : State) :
    (l.foldl (fun t n => t.put (g n) v) s).word a = s.word a := by
  induction l generalizing s with
  | nil => rfl
  | cons n l ih =>
    obtain ⟨hn, hl⟩ := List.forall_mem_cons.1 h
    exact (ih hl _).trans (word_put_ne hn)

/-- A row of fields in distinct registers, put in turn: each reads what was put, cut to its width. -/
theorem get_foldl_put_mem {g : Nat → Field} {v : Nat} {l : List Nat} (hfit : ∀ n ∈ l, (g n).lo + (g n).width ≤ 32)
    (hapart : l.Pairwise (fun m n => (g m).addr ≠ (g n).addr)) (s : State) {k : Nat} (hk : k ∈ l) :
    (l.foldl (fun t n => t.put (g n) v) s).get (g k) = v % 2 ^ (g k).width := by
  induction l generalizing s with
  | nil => simp at hk
  | cons n l ih =>
    obtain ⟨hn, hl⟩ := List.forall_mem_cons.1 hfit
    obtain ⟨hne, hrest⟩ := List.pairwise_cons.1 hapart
    rcases List.mem_cons.1 hk with rfl | hmem
    · exact (congrArg _ (word_foldl_put_ne hne _)).trans (get_put_self s (g k) v hn)
    · exact ih hl hrest _ hmem

end Sys2Proof.Proofs
end

section
/-!
The coefficient store as the host reaches it (R104 to R106, Table 4-4): swaps, words and runs of words, the gain table's builds and the
counters that clear.
-/
namespace Sys2Proof.Proofs

open Sys2Proof.Machine Sys2Proof.Safety Sys2Proof.Laws

/-! ### Swaps (R105, R106) -/

theorem hostBankSwap_eq (s : State) : s.hostBankSwap =
    if s.flag Reg.CAL_STATUS_OWN_STANDBY = true ∨ s.flag Reg.COR_STATUS_SWAP_PENDING = true then none
    else some (s.put Reg.COR_STATUS_SWAP_PENDING 1) := by
  unfold State.hostBankSwap allow
  cases s.flag Reg.CAL_STATUS_OWN_STANDBY <;> cases s.flag Reg.COR_STATUS_SWAP_PENDING <;> rfl

theorem hostTableSwap_eq (s : State) : s.hostTableSwap =
    if s.flag Reg.COR_STATUS_TABLE_SWAP_PENDING = true then none else some (s.put Reg.COR_STATUS_TABLE_SWAP_PENDING 1) := by
  unfold State.hostTableSwap allow
  cases s.flag Reg.COR_STATUS_TABLE_SWAP_PENDING <;> rfl

/-- A one-bit field of COR_STATUS set by a host word that was taken. -/
theorem statusBit_applied (s : State) {f : Field} (ha : f.addr = Reg.COR_STATUS) (hfit : f.lo + f.width ≤ 32) (hone : f.width = 1) :
    (s.put f 1).applied.get f = 1 ∧ RegsKept s (s.put f 1).applied [Reg.COR_STATUS] ∧ OnlyApplied s (s.put f 1).applied := by
  refine ⟨?_, ?_, onlyApplied_of_onlyRegs (onlyRegs_put (onlyRegs_refl s) f 1)⟩
  · have hone_lt : 1 < 2 ^ f.width := Nat.one_lt_two_pow (by omega)
    exact (get_applied _ f).trans ((get_put_self s f 1 hfit).trans (Nat.mod_eq_of_lt hone_lt))
  · exact regsKept_put (t := s) (fun _ _ => rfl) (by simp [ha])

section
variable {s : State} (hreach : s.reaches Reg.COR_CMD = true)
include hreach

theorem bankSwap_pends (hown : s.flag Reg.CAL_STATUS_OWN_STANDBY = false) (hpend : s.flag Reg.COR_STATUS_SWAP_PENDING = false) :
    ∃ t, exec .bankSwap s = .next t ∧ t.get Reg.COR_STATUS_SWAP_PENDING = 1 ∧ RegsKept s t [Reg.COR_STATUS] ∧ OnlyApplied s t := by
  have hswap : s.hostBankSwap = some (s.put Reg.COR_STATUS_SWAP_PENDING 1) := by simp [hostBankSwap_eq, hown, hpend]
  exact ⟨_, congrArg Host.Outcome.next ((congrArg _ hswap).trans (host_some hreach)), statusBit_applied s rfl (by decide) rfl⟩

theorem bankSwap_refused (h : s.flag Reg.CAL_STATUS_OWN_STANDBY = true ∨ s.flag Reg.COR_STATUS_SWAP_PENDING = true) :
    exec .bankSwap s = .next (s.refuse Reg.COR_CMD) := by
  have hswap : s.hostBankSwap = none := (hostBankSwap_eq s).trans (if_pos h)
  exact congrArg Host.Outcome.next ((congrArg _ hswap).trans (host_none hreach))

theorem tableSwap_pends (hpend : s.flag Reg.COR_STATUS_TABLE_SWAP_PENDING = false) :
    ∃ t, exec .tableSwap s = .next t ∧ t.get Reg.COR_STATUS_TABLE_SWAP_PENDING = 1 ∧ RegsKept s t [Reg.COR_STATUS] ∧ OnlyApplied s t := by
  have hswap : s.hostTableSwap = some (s.put Reg.COR_STATUS_TABLE_SWAP_PENDING 1) := by simp [hostTableSwap_eq, hpend]
  exact ⟨_, congrArg Host.Outcome.next ((congrArg _ hswap).trans (host_some hreach)), statusBit_applied s rfl (by decide) rfl⟩

theorem tableSwap_refused (h : s.flag Reg.COR_STATUS_TABLE_SWAP_PENDING = true) :
    exec .tableSwap s = .next (s.refuse Reg.COR_CMD) := by
  have hswap : s.hostTableSwap = none := (hostTableSwap_eq s).trans (if_pos h)
  exact congrArg Host.Outcome.next ((congrArg _ hswap).trans (host_none hreach))

end

/-! ### Counters (R110, R140, R207) -/

/-- The five counter words of Table 4-11 made zero. -/
def corCountersZero (s : State) : State :=
  [Reg.COR_MISMATCH, Reg.COR_UNRESOLVED, Reg.COR_CLAMP_COUNT, Reg.COR_RANGE_COUNT, Reg.COR_LATENCY_MAX].foldl (fun t a => t.setWord a 0) s

theorem clearCor_eq (s : State) : s.clearCor = (List.range 9).foldl (fun t n => t.put (Reg.COR_LANE_MISMATCHES n) 0)
    ((corCountersZero s).put Reg.COR_HEADROOM_MIN_PCT 0x7F) := rfl

/-- The lane registers lie above the other counters of correction. -/
theorem ne_corLane {a : Nat} (h : a < Reg.COR_LANE 0) (n : Nat) : a ≠ Reg.COR_LANE n := by
  unfold Reg.COR_LANE at *
  omega

theorem word_clearCor {s : State} {a : Nat}
    (h : a ∈ [Reg.COR_MISMATCH, Reg.COR_UNRESOLVED, Reg.COR_CLAMP_COUNT, Reg.COR_RANGE_COUNT, Reg.COR_LATENCY_MAX])
    (hlane : a < Reg.COR_LANE 0) (hhead : a ≠ Reg.COR_HEADROOM) : s.clearCor.word a = 0 := by
  rw [clearCor_eq, word_foldl_put_ne (fun n _ => ne_corLane hlane n), word_put_ne hhead]
  exact word_foldl_setWord_mem h s

theorem get_clearCor_lane (s : State) {n : Nat} (h : n < 9) : s.clearCor.get (Reg.COR_LANE_MISMATCHES n) = 0 := by
  rw [clearCor_eq, get_foldl_put_mem (fun _ _ => Nat.le_of_ble_eq_true rfl) (by decide) _ (List.mem_range.2 h)]
  exact Nat.zero_mod _

theorem get_clearCor_headroom (s : State) : s.clearCor.get Reg.COR_HEADROOM_MIN_PCT = 0x7F := by
  have hword : s.clearCor.word Reg.COR_HEADROOM = ((corCountersZero s).put Reg.COR_HEADROOM_MIN_PCT 0x7F).word Reg.COR_HEADROOM := by
    rw [clearCor_eq, word_foldl_put_ne (fun n _ => ne_corLane (by decide) n)]
  exact (congrArg _ hword).trans (get_put_self _ Reg.COR_HEADROOM_MIN_PCT 0x7F (by decide))

theorem onlyRegs_clearCor (s : State) : OnlyRegs s s.clearCor :=
  onlyRegs_foldl_put (onlyRegs_put (t := corCountersZero s) rfl _ _) _ _ _

theorem corClrCounters_clears {s : State} (h : s.reaches Reg.COR_CMD = true) : ∃ t, exec .corClrCounters s = .next t ∧
    t.word Reg.COR_MISMATCH = 0 ∧ t.word Reg.COR_UNRESOLVED = 0 ∧ t.word Reg.COR_CLAMP_COUNT = 0 ∧ t.word Reg.COR_RANGE_COUNT = 0 ∧
    t.word Reg.COR_LATENCY_MAX = 0 ∧ (∀ n, n < 9 → t.get (Reg.COR_LANE_MISMATCHES n) = 0) ∧
    t.get Reg.COR_HEADROOM_MIN_PCT = 0x7F ∧ OnlyApplied s t := by
  refine ⟨_, congrArg Host.Outcome.next (host_some h), ?_, ?_, ?_, ?_, ?_, fun n hn => (get_applied _ _).trans (get_clearCor_lane s hn),
    (get_applied _ _).trans (get_clearCor_headroom s), onlyApplied_of_onlyRegs (onlyRegs_clearCor s)⟩
  all_goals exact (word_applied _ _).trans (word_clearCor (by decide) (by decide) (by decide))

theorem walkClrCounters_clears {s : State} (h : s.reaches Reg.COR_WALK_CMD = true) : ∃ t, exec .walkClrCounters s = .next t ∧
    t.word Reg.COR_LAG_OFF_LINES = 0 ∧ t.word Reg.COR_WALK_FILLED = 0 ∧ t.word Reg.COR_WALK_LATE = 0 ∧
    RegsKept s t [Reg.COR_LAG_OFF_LINES, Reg.COR_WALK_FILLED, Reg.COR_WALK_LATE] ∧ OnlyApplied s t := by
  have hclear : s.clearWalk = [Reg.COR_LAG_OFF_LINES, Reg.COR_WALK_FILLED, Reg.COR_WALK_LATE].foldl (fun t a => t.setWord a 0) s := rfl
  have zero {a : Nat} (ha : a ∈ [Reg.COR_LAG_OFF_LINES, Reg.COR_WALK_FILLED, Reg.COR_WALK_LATE]) : s.clearWalk.applied.word a = 0 := by
    rw [word_applied, hclear, word_foldl_setWord_mem ha]
  have kept {a : Nat} (ha : a ∉ [Reg.COR_LAG_OFF_LINES, Reg.COR_WALK_FILLED, Reg.COR_WALK_LATE]) :
      s.clearWalk.applied.word a = s.word a := by
    rw [word_applied, hclear, word_foldl_setWord_ne ha]
  exact ⟨_, congrArg Host.Outcome.next (host_some h), zero (by decide), zero (by decide), zero (by decide), fun _ ha => kept ha,
    onlyApplied_of_onlyRegs (onlyRegs_setWord (onlyRegs_setWord (onlyRegs_setWord (onlyRegs_refl s) _ _) _ _) _ _)⟩

/-- TRK_PEAK restarts from the numbers in force. -/
def trkPeakRestarted (s : State) : State :=
  (s.put Reg.TRK_PEAK_PEAK_LIVE (s.get Reg.TRK_LIVE_LIVE)).put Reg.TRK_PEAK_MIN_FREE (s.get Reg.TRK_LIVE_FREE_BLOCKS)

/-- The refusal counters made zero after that. -/
def trkRefusalsZero (s : State) : State := (List.range 4).foldl (fun t k => t.put (refusedField k) 0) (trkPeakRestarted s)

theorem clearTrk_eq (s : State) : s.clearTrk =
    (((((trkRefusalsZero s).put Reg.TRK_FORCED_LONG 0).put Reg.TRK_FORCED_MEM 0).put Reg.TRK_SHADOW_SHADOW_OVERFLOW 0).put
      Reg.TRK_COPY_REPAIRED 0).put Reg.TRK_LIFE_MAX_US 0 := rfl

/-- TRK_FORCED and the registers above it are cleared last: one below them reads as it did before that. -/
theorem get_clearTrk_below {s : State} {f : Field} (h : f.addr < Reg.TRK_FORCED) : s.clearTrk.get f = (trkRefusalsZero s).get f := by
  rw [clearTrk_eq, get_put_ne (Nat.ne_of_lt (Nat.lt_trans h (by decide))), get_put_ne (Nat.ne_of_lt (Nat.lt_trans h (by decide))),
    get_put_ne (Nat.ne_of_lt (Nat.lt_trans h (by decide))), get_put_ne (Nat.ne_of_lt h), get_put_ne (Nat.ne_of_lt h)]

theorem get_clearTrk_refused (s : State) {k : Nat} (h : k < 4) : s.clearTrk.get (refusedField k) = 0 := by
  have below : ∀ k < 4, (refusedField k).addr < Reg.TRK_FORCED := by decide
  rw [get_clearTrk_below (below k h), trkRefusalsZero, get_foldl_put_mem (by decide) (by decide) _ (List.mem_range.2 h)]
  exact Nat.zero_mod _

theorem get_clearTrk_peak {s : State} {f : Field} (h : f.addr = Reg.TRK_PEAK) : s.clearTrk.get f = (trkPeakRestarted s).get f := by
  have apart : ∀ k ∈ List.range 4, Reg.TRK_PEAK ≠ (refusedField k).addr := by decide
  rw [get_clearTrk_below (h ▸ by decide)]
  exact congrArg _ (word_foldl_put_ne (h ▸ apart) _)

theorem get_clearTrk_peakLive (s : State) : s.clearTrk.get Reg.TRK_PEAK_PEAK_LIVE = s.get Reg.TRK_LIVE_LIVE := by
  rw [get_clearTrk_peak rfl, trkPeakRestarted, get_put_apart (by decide) (by decide), get_put_self _ _ _ (by decide)]
  exact Nat.mod_eq_of_lt (get_lt s Reg.TRK_LIVE_LIVE)

theorem get_clearTrk_minFree (s : State) : s.clearTrk.get Reg.TRK_PEAK_MIN_FREE = s.get Reg.TRK_LIVE_FREE_BLOCKS := by
  rw [get_clearTrk_peak rfl, trkPeakRestarted, get_put_self _ _ _ (by decide)]
  exact Nat.mod_eq_of_lt (get_lt s Reg.TRK_LIVE_FREE_BLOCKS)

theorem onlyRegs_clearTrk (s : State) : OnlyRegs s s.clearTrk := by
  have hpeak : OnlyRegs s (trkPeakRestarted s) := onlyRegs_put (onlyRegs_put (onlyRegs_refl s) _ _) _ _
  have hzero : OnlyRegs s (trkRefusalsZero s) := onlyRegs_foldl_put hpeak _ _ _
  exact onlyRegs_put (onlyRegs_put (onlyRegs_put (onlyRegs_put (onlyRegs_put hzero _ _) _ _) _ _) _ _) _ _

theorem trkClrCounters_clears {s : State} (h : s.reaches Reg.TRK_CMD = true) : ∃ t, exec .trkClrCounters s = .next t ∧
    (∀ k, k < 4 → t.get (refusedField k) = 0) ∧
    t.get Reg.TRK_PEAK_PEAK_LIVE = s.get Reg.TRK_LIVE_LIVE ∧ t.get Reg.TRK_PEAK_MIN_FREE = s.get Reg.TRK_LIVE_FREE_BLOCKS ∧
    t.get Reg.TRK_FORCED_LONG = 0 ∧ t.get Reg.TRK_FORCED_MEM = 0 ∧ t.get Reg.TRK_SHADOW_SHADOW_OVERFLOW = 0 ∧
    t.get Reg.TRK_COPY_REPAIRED = 0 ∧ t.get Reg.TRK_LIFE_MAX_US = 0 ∧ OnlyApplied s t := by
  refine ⟨_, congrArg Host.Outcome.next (host_some h), fun k hk => (get_applied _ _).trans (get_clearTrk_refused s hk),
    (get_applied _ _).trans (get_clearTrk_peakLive s), (get_applied _ _).trans (get_clearTrk_minFree s), ?_, ?_, ?_, ?_, ?_,
    onlyApplied_of_onlyRegs (onlyRegs_clearTrk s)⟩
  all_goals rw [get_applied, clearTrk_eq]
  · rw [get_put_ne (by decide), get_put_ne (by decide), get_put_ne (by decide), get_put_apart (by decide) (by decide),
      get_put_zero (by decide)]
  · rw [get_put_ne (by decide), get_put_ne (by decide), get_put_ne (by decide), get_put_zero (by decide)]
  · rw [get_put_ne (by decide), get_put_ne (by decide), get_put_zero (by decide)]
  · rw [get_put_ne (by decide), get_put_zero (by decide)]
  · exact get_put_zero (by decide)

/-! ### Words of the store (R104, Table 4-4) -/

theorem exec_coefficientWindowWrite {s : State} {a : Nat} {ws : List Word} (lo : 0x01000000 ≤ a) (hi : a < 0x01800000) :
    exec (.coefficientWindowWrite a ws) s = .next (s.hostFrame a State.hostStoreWord ws) :=
  congrArg Host.Outcome.next (if_pos ⟨lo, hi⟩)

theorem exec_coefficientWindowWrite_word {s : State} {a : Nat} {w : Word} (lo : 0x01000000 ≤ a) (hi : a < 0x01800000) :
    exec (.coefficientWindowWrite a [w]) s = .next (s.host a (s.hostStoreWord a w)) :=
  (exec_coefficientWindowWrite lo hi).trans (congrArg Host.Outcome.next (hostFrame_singleton s a State.hostStoreWord w))

theorem hostStoreWord_bank {s : State} {a b off : Nat} {w : Word} (h : storePart a = .bank b off) :
    s.hostStoreWord a w = s.storeBank a b off w := by
  rw [State.hostStoreWord, h]
  rfl

theorem hostStoreWord_table {s : State} {a n : Nat} {w : Word} (h : storePart a = .table n) :
    s.hostStoreWord a w = s.storeTable a n w := by
  rw [State.hostStoreWord, h]
  rfl

/-- A header word alone notes that it was written. -/
theorem noteHeader_of_record {s : State} {b off : Nat} (h : off < 0x30C000) : s.noteHeader b off = s :=
  if_neg (fun hc => by omega)

/-- A word of a pixel record that is not reserved lands in a standby bank that is free. -/
theorem storeBank_record {s : State} {a b off : Nat} {w v : Word} (hstandby : b ≠ s.activeBank)
    (hown : s.flag Reg.CAL_STATUS_OWN_STANDBY = false) (hpend : s.flag Reg.COR_STATUS_SWAP_PENDING = false) (hoff : off < 0x30C000)
    (hword : bankWord off w = some v) : s.storeBank a b off w = some (s.setMemWord a v) := by
  rw [State.storeBank, if_neg (by simp [hstandby, hown, hpend]), hword]
  exact congrArg some (noteHeader_of_record hoff)

theorem bankWord_coefficient {off : Nat} {w : Word} (hoff : off < 0x30C000) (h : off % 32 < 24) : bankWord off w = some w := by
  rw [bankWord, if_pos hoff, if_neg (by omega), if_neg (by omega)]

theorem bankWord_flags {off : Nat} {w : Word} (hoff : off < 0x30C000) (h : off % 32 = 24) : bankWord off w = some (w &&& 0x00F0FFFF) := by
  rw [bankWord, if_pos hoff, if_pos h]

/-- A host word that lands in a window as v: it reads back, and nothing else in memory or registers changes. -/
theorem coefficientWindowWrite_lands {s : State} {a : Nat} {w v : Word} (hreach : s.reaches a = true) (lo : 0x01000000 ≤ a)
    (hi : a < 0x01800000) (h : s.hostStoreWord a w = some (s.setMemWord a v)) :
    ∃ t, exec (.coefficientWindowWrite a [w]) s = .next t ∧ t.memWord a = v ∧ BytesKept s t a 4 ∧ t.regs = s.regs :=
  ⟨_, (exec_coefficientWindowWrite_word lo hi).trans (congrArg Host.Outcome.next ((congrArg _ h).trans (host_some hreach))),
    memWord_setMemWord_self s a v, bytesKept_setMemWord s a v, rfl⟩

theorem coefficientWindowWrite_refused {s : State} {a : Nat} {w : Word} (hreach : s.reaches a = true) (lo : 0x01000000 ≤ a)
    (hi : a < 0x01800000) (h : s.hostStoreWord a w = none) : exec (.coefficientWindowWrite a [w]) s = .next (s.refuse a) :=
  (exec_coefficientWindowWrite_word lo hi).trans (congrArg Host.Outcome.next ((congrArg _ h).trans (host_none hreach)))

theorem storeBank_refused {s : State} {a b off : Nat} {w : Word}
    (h : b = s.activeBank ∨ s.flag Reg.CAL_STATUS_OWN_STANDBY = true ∨ s.flag Reg.COR_STATUS_SWAP_PENDING = true) :
    s.storeBank a b off w = none := if_pos h

theorem storeTable_refused {s : State} {a n : Nat} {w : Word}
    (h : n = s.activeTable ∨ s.flag Reg.CAL_STATUS_OWN_STANDBY = true ∨ s.flag Reg.COR_STATUS_TABLE_SWAP_PENDING = true) :
    s.storeTable a n w = none := if_pos h

theorem storeTable_standby {s : State} {a n : Nat} {w : Word} (hstandby : n ≠ s.activeTable)
    (hown : s.flag Reg.CAL_STATUS_OWN_STANDBY = false) (hpend : s.flag Reg.COR_STATUS_TABLE_SWAP_PENDING = false) :
    s.storeTable a n w = some (s.setMemWord a w) := if_neg (by simp [hstandby, hown, hpend])

/-! ### Runs of words -/

/-- A run of words written to a window from an address upward. -/
def setMemWords : State → Nat → List Word → State
  | s, _, [] => s
  | s, a, w :: ws => setMemWords (s.setMemWord a w) (a + 4) ws

theorem setMemWords_regs (s : State) (a : Nat) (ws : List Word) : (setMemWords s a ws).regs = s.regs := by
  induction ws generalizing s a with
  | nil => rfl
  | cons w ws ih => exact ih _ _

theorem bytesKept_setMemWords (s : State) (a : Nat) (ws : List Word) : BytesKept s (setMemWords s a ws) a (4 * ws.length) := by
  induction ws generalizing s a with
  | nil => exact fun _ _ => rfl
  | cons w ws ih =>
    intro b hb
    rw [List.length_cons] at hb
    exact (ih _ _ b (by omega)).trans (bytesKept_setMemWord s a w b (by omega))

theorem memWord_setMemWords (s : State) (a : Nat) (ws : List Word) {i : Nat} (h : i < ws.length) :
    (setMemWords s a ws).memWord (a + 4 * i) = ws.getD i 0 := by
  induction ws generalizing s a i with
  | nil => simp at h
  | cons w ws ih =>
    cases i with
    | zero =>
      have below : (setMemWords (s.setMemWord a w) (a + 4) ws).memWord a = (s.setMemWord a w).memWord a :=
        memWord_congr (fun i hi => bytesKept_setMemWords _ _ _ _ (.inl (by omega)))
      exact below.trans (memWord_setMemWord_self s a w)
    | succ i =>
      have := ih (s.setMemWord a w) (a + 4) (i := i) (by simpa using h)
      rwa [show a + 4 + 4 * i = a + 4 * (i + 1) by omega] at this

/-- A word that is taken leaves the rest of its frame to what it made of the state. -/
theorem applyWords_cons_taken {f : State → Nat → Word → State × Bool} {s t : State} {a : Nat} {w : Word} {ws : List Word}
    (h : f s a w = (t, false)) : applyWords f s a (w :: ws) = applyWords f t (a + 4) ws := by
  rw [applyWords, h]
  rfl

/-- Words of the standby table land one by one: none of them changes a register that decides on the next. -/
theorem applyWords_table {s : State} {a n : Nat} {ws : List Word} (hpart : ∀ i, i < ws.length → storePart (a + 4 * i) = .table n)
    (hstandby : n ≠ s.activeTable) (hown : s.flag Reg.CAL_STATUS_OWN_STANDBY = false)
    (hpend : s.flag Reg.COR_STATUS_TABLE_SWAP_PENDING = false) :
    applyWords (fun t b w => t.judged (t.hostStoreWord b w)) s a ws = (setMemWords s a ws, none) := by
  induction ws generalizing s a with
  | nil => rfl
  | cons w ws ih =>
    have first : s.hostStoreWord a w = some (s.setMemWord a w) :=
      (hostStoreWord_table (by simpa using hpart 0 (by simp))).trans (storeTable_standby hstandby hown hpend)
    have rest (i : Nat) (hi : i < ws.length) : storePart (a + 4 + 4 * i) = .table n := by
      rw [show a + 4 + 4 * i = a + 4 * (i + 1) by omega]
      exact hpart (i + 1) (by simpa using hi)
    have tail := ih (s := s.setMemWord a w) rest (activeTable_setMemWord s a w ▸ hstandby) ((flag_setMemWord s a w _).trans hown)
      ((flag_setMemWord s a w _).trans hpend)
    refine Eq.trans (applyWords_cons_taken (t := s.setMemWord a w) ?_) tail
    exact congrArg s.judged first

theorem coefficientWindowWrite_table {s : State} {a n : Nat} {ws : List Word} (hreach : s.reaches a = true) (lo : 0x01000000 ≤ a)
    (hi : a < 0x01800000) (hpart : ∀ i, i < ws.length → storePart (a + 4 * i) = .table n) (hstandby : n ≠ s.activeTable)
    (hpend : s.flag Reg.COR_STATUS_TABLE_SWAP_PENDING = false) (hown : s.flag Reg.CAL_STATUS_OWN_STANDBY = false) :
    ∃ t, exec (.coefficientWindowWrite a ws) s = .next t ∧ (∀ i, i < ws.length → t.memWord (a + 4 * i) = ws.getD i 0) ∧
      BytesKept s t a (4 * ws.length) ∧ t.regs = s.regs := by
  have hframe : s.hostFrame a State.hostStoreWord ws = (setMemWords s a ws).applied := by
    rw [State.hostFrame, if_pos hreach, applyWords_table hpart hstandby hown hpend]
    rfl
  exact ⟨_, (exec_coefficientWindowWrite lo hi).trans (congrArg Host.Outcome.next hframe), fun _ h => memWord_setMemWords s a ws h,
    bytesKept_setMemWords s a ws, setMemWords_regs s a ws⟩

/-! ### The gain table (R120, R140) -/

theorem lagTableBuilt_waits {s : State} {b : Nat × Nat} (hb : s.walk.building = some b) (hw : s.walk.wanted = none) :
    exec .lagTableBuilt s = .next { s with walk := { s.walk with building := none, built := some b } } := by
  change execLagTableBuilt s = _
  rw [execLagTableBuilt, hb, hw]

theorem lagTableBuilt_makesWay {s : State} {b x : Nat × Nat} (hb : s.walk.building = some b) (hw : s.walk.wanted = some x) :
    exec .lagTableBuilt s = .next { s with walk := { s.walk with building := some x, wanted := none } } := by
  change execLagTableBuilt s = _
  rw [execLagTableBuilt, hb, hw]

/-- Settles O41: swaps and clears are host words, a word of the window is judged by the part it falls in, and a run of table words is an
induction over its words. -/
theorem coefficientStoreOfTheHost : Obligations.CoefficientStoreOfTheHost := by
  refine ⟨fun s hreach => ⟨bankSwap_pends hreach, bankSwap_refused hreach, tableSwap_pends hreach, tableSwap_refused hreach,
    corClrCounters_clears hreach⟩, ?_, ?_, ?_, ?_, fun s => walkClrCounters_clears, fun s => trkClrCounters_clears⟩
  · intro s a b off w hreach lo hi hpart
    refine ⟨fun hstandby hown hpend hoff => ?_, fun h =>
      coefficientWindowWrite_refused hreach lo hi ((hostStoreWord_bank hpart).trans (storeBank_refused h))⟩
    have lands {v : Word} (hv : bankWord off w = some v) := coefficientWindowWrite_lands hreach lo hi
      ((hostStoreWord_bank hpart).trans (storeBank_record hstandby hown hpend hoff hv))
    exact ⟨fun h => lands (bankWord_coefficient hoff h), fun h => lands (bankWord_flags hoff h)⟩
  · exact fun s a n ws => coefficientWindowWrite_table
  · exact fun s a n w hreach lo hi hpart h =>
      coefficientWindowWrite_refused hreach lo hi ((hostStoreWord_table hpart).trans (storeTable_refused h))
  · exact fun s b hb => ⟨fun hw => ⟨_, lagTableBuilt_waits hb hw, rfl, rfl, rfl⟩,
      fun x hw => ⟨_, lagTableBuilt_makesWay hb hw, rfl, rfl, rfl, rfl⟩⟩

end Sys2Proof.Proofs
end

section
/-!
What an event (R451), a degradation (R442) and the loss of a correction lane (R111 to R113) write, and what they leave alone.
-/
namespace Sys2Proof.Proofs

open Sys2Proof.Machine Sys2Proof.Safety Sys2Proof.Laws

/-! ### Parts of a state through a branch -/

theorem word_ite {c : Prop} {_ : Decidable c} {s t : State} {a : Nat} : (if c then s else t).word a = if c then s.word a else t.word a :=
  apply_ite (State.word · a) c s t

theorem cor_ite {c : Prop} {_ : Decidable c} {s t : State} : (if c then s else t).cor = if c then s.cor else t.cor :=
  apply_ite State.cor c s t

/-- The proof `(rfl)` stands in parentheses for the reason given with `lineView`. -/
theorem cor_mk {p g sh m f t c mp k pw rs e pt nv d st hk rd co wa ca tr as dr v} :
    (State.mk p g sh m f t c mp k pw rs e pt nv d st hk rd co wa ca tr as dr v).cor = co := (rfl)

/-! ### Frames compose -/

theorem regsKept_trans {s t u : State} {l m : List Nat} (h : RegsKept s t l) (h' : RegsKept t u m) : RegsKept s u (l ++ m) := by
  intro a ha
  obtain ⟨hl, hm⟩ := not_or.1 (fun h => ha (List.mem_append.2 h))
  exact (h' a hm).trans (h a hl)

theorem get_of_regsKept {s t : State} {l : List Nat} (h : RegsKept s t l) {f : Field} (hf : f.addr ∉ l) : t.get f = s.get f :=
  congrArg f.of (h f.addr hf)

theorem regsKept_putField (s : State) (f : Field) (v : Nat) : RegsKept s (s.put f v) [f.addr] := regsKept_setWord s f.addr _

/-! ### Events and degradations -/

/-- An event writes the event position, the alert lines and the loss counters alone. -/
theorem regsKept_emit (s : State) (code index arg : Nat) : RegsKept s (s.emit code index arg) eventRegs := by
  intro a ha
  simp only [eventRegs, List.mem_cons, List.not_mem_nil, or_false, not_or] at ha
  obtain ⟨hlo, hhi, halert, hloss⟩ := ha
  have fault {t : State} : (t.put Reg.MPT_ALERT_FAULT 1).word a = t.word a := word_put_ne halert
  have warn {t : State} : (t.put Reg.MPT_ALERT_WARN 1).word a = t.word a := word_put_ne halert
  have armed {t : State} {k n : Nat} : (t.arm k n).word a = t.word a := rfl
  unfold State.emit
  extract_lets e counted alerted
  have hcounted : counted.word a = s.word a := word_setPair_ne hlo hhi
  have halerted : alerted.word a = s.word a := by
    simp only [alerted, word_ite, hcounted, fault, warn, ite_self]
  clear_value alerted
  split
  · exact (word_put_ne hloss).trans halerted
  next timed _ _ =>
    have htimed : timed.word a = s.word a := by
      simp only [timed, word_ite, armed, halerted, ite_self]
    exact htimed

@[simp] theorem emit_cor (s : State) (code index arg : Nat) : (s.emit code index arg).cor = s.cor := by
  unfold State.emit
  extract_lets e counted alerted
  have hcounted : counted.cor = s.cor := setPair_cor s _ _
  have halerted : alerted.cor = s.cor := by
    simp only [alerted, cor_ite]
    split
    · exact (put_cor counted _ _).trans hcounted
    · split
      · exact (put_cor counted _ _).trans hcounted
      · exact hcounted
  clear_value alerted
  split
  · exact (bump_cor alerted _ _).trans halerted
  next timed _ _ =>
    have htimed : timed.cor = s.cor := by
      simp only [timed, cor_ite]
      split
      · exact (arm_cor alerted _ _).trans halerted
      · exact halerted
    exact cor_mk.trans htimed

theorem regsKept_degrade (s : State) (b : Nat) : RegsKept s (s.degrade b) ([Reg.RST_DEGRADED, Reg.RST_STATUS] ++ eventRegs) := by
  unfold State.degrade
  split
  · exact fun _ _ => rfl
  · have shown := regsKept_trans (regsKept_putField s Reg.RST_DEGRADED_CLASS (s.get Reg.RST_DEGRADED_CLASS + 2 ^ b))
      (regsKept_putField _ Reg.RST_STATUS_DEGRADED 1)
    exact regsKept_trans shown (regsKept_emit _ 0x0B03 b 0)

@[simp] theorem degrade_cor (s : State) (b : Nat) : (s.degrade b).cor = s.cor := by
  unfold State.degrade
  split
  · rfl
  · rw [emit_cor, put_cor, put_cor]

/-! ### One bit of a field -/

theorem bit_eq_testBit (x k : Nat) : bit x k = x.testBit k := Nat.testBit_eq_decide_div_mod_eq.symm

/-- A bit just set reads as set. -/
theorem bit_setBit_true (x k : Nat) : bit (setBit x k true) k = true := by
  unfold setBit
  split
  next h => exact h
  next h =>
    have hclear : x.testBit k = false := by rw [← bit_eq_testBit]; simpa using h
    rw [if_pos rfl, bit_eq_testBit, Nat.add_comm, Nat.testBit_two_pow_add_eq, hclear]
    rfl

/-- A field keeps the bits that fit it. -/
theorem bit_mod_two_pow {x k w : Nat} (h : k < w) : bit (x % 2 ^ w) k = bit x k := by
  rw [bit_eq_testBit, bit_eq_testBit, Nat.testBit_mod_two_pow, decide_eq_true h, Bool.true_and]

/-! ### The loss of a lane (R111 to R113) -/

/-- A lane is entered as failed, the event is told, and its domain is off. -/
def laneDeclared (s : State) (n why : Nat) : State :=
  ((s.put Reg.COR_LANE_MAP_FAILED (setBit (s.get Reg.COR_LANE_MAP_FAILED) n true)).emit 0x0202 n why).setDomain n 0

/-- One lane fewer works. -/
def workLost (s : State) : State := s.put Reg.COR_STATUS_LANES_WORKING (s.get Reg.COR_STATUS_LANES_WORKING - 1)

/-- What that brings about: a longer minimum period, unless no lane is left, and the degradation of correction. -/
def laneShortage (s : State) (l : Nat) : State := (if 0 < l then s.lanesShort l else s).degrade 1

section
variable {s : State} {n why : Nat} (h : s.laneFailed n = false)
include h

theorem failCorLane_of_spare (hs : s.flag Reg.COR_STATUS_SPARE_FREE = true) :
    s.failCorLane n why = (laneDeclared s n why).put Reg.COR_STATUS_SPARE_FREE 0 := by
  rw [State.failCorLane, if_neg (by simp [h])]
  exact if_pos hs

theorem failCorLane_of_noSpare (hs : s.flag Reg.COR_STATUS_SPARE_FREE = false) :
    s.failCorLane n why = laneShortage (workLost (laneDeclared s n why)) ((laneDeclared s n why).get Reg.COR_STATUS_LANES_WORKING - 1) := by
  rw [State.failCorLane, if_neg (by simp [h])]
  exact if_neg (by simp [hs])

end

/-- The registers of a lane's declaration. -/
def declaredRegs (n : Nat) : List Nat := [Reg.COR_LANE_MAP] ++ eventRegs ++ [Reg.PWR_DOM (n / 16)]

theorem regsKept_laneDeclared (s : State) (n why : Nat) : RegsKept s (laneDeclared s n why) (declaredRegs n) :=
  regsKept_trans (regsKept_trans (regsKept_putField s Reg.COR_LANE_MAP_FAILED _) (regsKept_emit _ 0x0202 n why))
    (regsKept_putField _ (domField n) 0)

theorem get_laneDeclared_status {s : State} {n why : Nat} (hn : n < 9) {f : Field} (hf : f.addr = Reg.COR_STATUS) :
    (laneDeclared s n why).get f = s.get f := by
  have hregs : declaredRegs n = declaredRegs 0 := by rw [declaredRegs, Nat.div_eq_of_lt (by omega)]; rfl
  exact get_of_regsKept (regsKept_laneDeclared s n why) (hregs ▸ hf ▸ by decide)

@[simp] theorem laneDeclared_cor (s : State) (n why : Nat) : (laneDeclared s n why).cor = s.cor := by
  rw [laneDeclared, setDomain_cor, emit_cor, put_cor]

/-- The registers that a shortage of lanes writes beside SLOWED. -/
def shortageRegs : List Nat := [Reg.COR_MIN_PERIOD, Reg.PWR_STATUS] ++ eventRegs ++ ([Reg.RST_DEGRADED, Reg.RST_STATUS] ++ eventRegs)

theorem get_lanesShort {s : State} {l : Nat} {f : Field} (h : f.addr ∉ [Reg.COR_MIN_PERIOD, Reg.PWR_STATUS] ++ eventRegs)
    (hs : f.addr ≠ Reg.COR_STATUS ∨ f.lo + f.width ≤ 10 ∨ 11 ≤ f.lo) : (s.lanesShort l).get f = s.get f := by
  obtain ⟨hown, hevent⟩ := not_or.1 (fun hf => h (List.mem_append.2 hf))
  obtain ⟨hmin, hrest⟩ := List.ne_and_not_mem_of_not_mem_cons hown
  unfold State.lanesShort
  dsimp only
  split
  · rw [get_of_regsKept (regsKept_emit _ _ _ _) hevent, get_put_ne (List.ne_of_not_mem_cons hrest),
      get_put_apart (by decide) hs, get_put_ne hmin]
  · exact get_put_ne hmin

@[simp] theorem lanesShort_cor (s : State) (l : Nat) : (s.lanesShort l).cor = s.cor := by
  unfold State.lanesShort
  dsimp only
  split
  · rw [emit_cor, put_cor, put_cor, put_cor]
  · exact put_cor s _ _

theorem get_laneShortage {s : State} {l : Nat} {f : Field} (h : f.addr ∉ shortageRegs)
    (hs : f.addr ≠ Reg.COR_STATUS ∨ f.lo + f.width ≤ 10 ∨ 11 ≤ f.lo) : (laneShortage s l).get f = s.get f := by
  obtain ⟨hshort, hdegrade⟩ := not_or.1 (fun hf => h (List.mem_append.2 hf))
  rw [laneShortage, get_of_regsKept (regsKept_degrade _ 1) hdegrade]
  split
  · exact get_lanesShort hshort hs
  · rfl

@[simp] theorem laneShortage_cor (s : State) (l : Nat) : (laneShortage s l).cor = s.cor := by
  rw [laneShortage, degrade_cor, cor_ite, lanesShort_cor, ite_self]

section
variable {s : State} {n why : Nat} (h : s.laneFailed n = false)
include h

@[simp] theorem failCorLane_cor : (s.failCorLane n why).cor = s.cor := by
  cases hs : s.flag Reg.COR_STATUS_SPARE_FREE with
  | true => rw [failCorLane_of_spare h hs, put_cor, laneDeclared_cor]
  | false => rw [failCorLane_of_noSpare h hs, laneShortage_cor, workLost, put_cor, laneDeclared_cor]

/-- Outside COR_STATUS and what a shortage writes, the loss of a lane is its declaration. -/
theorem get_failCorLane {f : Field} (hstatus : f.addr ≠ Reg.COR_STATUS) (hf : f.addr ∉ shortageRegs) :
    (s.failCorLane n why).get f = (laneDeclared s n why).get f := by
  cases hs : s.flag Reg.COR_STATUS_SPARE_FREE with
  | true => rw [failCorLane_of_spare h hs, get_put_ne hstatus]
  | false => rw [failCorLane_of_noSpare h hs, get_laneShortage hf (.inl hstatus), workLost, get_put_ne hstatus]

theorem laneFailed_failCorLane (hn : n < 9) : (s.failCorLane n why).laneFailed n = true := by
  have hdom : Reg.COR_LANE_MAP ≠ Reg.PWR_DOM (n / 16) := by rw [Nat.div_eq_of_lt (by omega)]; decide
  have hget : (s.failCorLane n why).get Reg.COR_LANE_MAP_FAILED = setBit (s.get Reg.COR_LANE_MAP_FAILED) n true % 2 ^ 9 := by
    rw [get_failCorLane h (by decide) (by decide), laneDeclared, State.setDomain, get_put_ne hdom,
      get_of_regsKept (regsKept_emit _ _ _ _) (by decide), get_put_self _ _ _ (by decide)]
    rfl
  rw [State.laneFailed, hget, bit_mod_two_pow hn, bit_setBit_true]

theorem domain_failCorLane (hn : n < 9) : (s.failCorLane n why).domain n = 0 := by
  have haddr : (domField n).addr = Reg.PWR_DOM 0 := congrArg Reg.PWR_DOM (Nat.div_eq_of_lt (by omega))
  have hfit : (domField n).lo + (domField n).width ≤ 32 := by simp only [domField]; omega
  rw [State.domain, get_failCorLane h (haddr ▸ by decide) (haddr ▸ by decide), laneDeclared, State.setDomain, get_put_self _ _ _ hfit]
  exact Nat.zero_mod _

theorem spareFree_failCorLane (hn : n < 9) : (s.failCorLane n why).flag Reg.COR_STATUS_SPARE_FREE = false := by
  refine decide_eq_false (not_not_intro ?_)
  cases hs : s.flag Reg.COR_STATUS_SPARE_FREE with
  | true =>
    rw [failCorLane_of_spare h hs, get_put_self _ _ _ (by decide)]
    rfl
  | false =>
    rw [failCorLane_of_noSpare h hs, get_laneShortage (by decide) (by decide), workLost, get_put_apart (by decide) (by decide),
      get_laneDeclared_status hn rfl]
    simpa [State.flag] using hs

theorem lanesWorking_failCorLane_of_spare (hn : n < 9) (hs : s.flag Reg.COR_STATUS_SPARE_FREE = true) :
    (s.failCorLane n why).get Reg.COR_STATUS_LANES_WORKING = s.get Reg.COR_STATUS_LANES_WORKING := by
  rw [failCorLane_of_spare h hs, get_put_apart (by decide) (by decide), get_laneDeclared_status hn rfl]

theorem lanesWorking_failCorLane_of_noSpare (hn : n < 9) (hs : s.flag Reg.COR_STATUS_SPARE_FREE = false) :
    (s.failCorLane n why).get Reg.COR_STATUS_LANES_WORKING = s.get Reg.COR_STATUS_LANES_WORKING - 1 := by
  rw [failCorLane_of_noSpare h hs, get_laneShortage (by decide) (by decide), workLost, get_put_self _ _ _ (by decide),
    get_laneDeclared_status hn rfl]
  exact Nat.mod_eq_of_lt (Nat.lt_of_le_of_lt (Nat.sub_le _ 1) (get_lt s Reg.COR_STATUS_LANES_WORKING))

end

end Sys2Proof.Proofs
end

section
/-!
The correction lanes (R108 to R113): the issue of a pixel, a result with and without a residue mismatch, and a stall.
-/
namespace Sys2Proof.Proofs

open Sys2Proof.Machine Sys2Proof.Safety Sys2Proof.Laws

/-! ### Issue (R108) -/

/-- The first pixel to recompute enters a lane. -/
def issuedAgain (s : State) (p : Pixel) (rest : List Pixel) (n : Nat) : State :=
  ({ s with cor := { s.cor with again := rest } }).setCorLane n (some (s.readyPixel p))

/-- The head of the issue buffer enters a lane, and what waits takes its room. -/
def issuedFresh (s : State) (p : Pixel) (rest : List Pixel) (n : Nat) : State :=
  ({ s.refill rest with cor := { (s.refill rest).cor with lastLane := n } }).setCorLane n (some (s.readyPixel p))

section
variable {s : State} {p : Pixel} {rest : List Pixel} {n : Nat} (hrun : s.resetting 1 = false)
include hrun

theorem issuePixel_of_again (hagain : s.cor.again = p :: rest) (hlane : s.recomputeLane p = some n) :
    s.issuePixel = (issuedAgain s p rest n).swapProgress := by
  unfold State.issuePixel
  rw [if_neg (by simp [hrun]), hagain]
  dsimp only
  rw [hlane]
  rfl

theorem issuePixel_of_fresh (hagain : s.cor.again = []) (hbuffer : s.cor.buffer = p :: rest) (hlane : s.nextLane = some n)
    (hheld : s.rowHeld p = true) : s.issuePixel = (issuedFresh s p rest n).swapProgress := by
  unfold State.issuePixel
  rw [if_neg (by simp [hrun]), hagain, hbuffer, hlane]
  exact if_pos hheld

end

/-- With no swap to complete and no gleaned update due, an issue completes nothing (R105, R107). -/
theorem swapProgress_of_idle {s : State} (hswap : s.cor.swapLine = none) (htable : s.cor.tableLine = none) (hdue : s.cal.due = []) :
    s.swapProgress = s := by
  unfold State.swapProgress
  rw [hswap]
  dsimp only
  rw [htable]
  exact if_pos (.inl (by rw [hdue]; rfl))

theorem readyPixel_of_fresh {s : State} {p : Pixel} {e : LineEnv} {r : RowWork} (hexact : p.exact = none)
    (henv : findEnv s.cor.env p.line = some e) (hrow : s.cor.rows.find? (fun x => x.line = p.line ∧ x.row = p.row) = some r) :
    s.readyPixel p = { p with exact := some (s.correctPixel e p (r.h.getD (0, true)).1 (r.h.getD (0, true)).2) } := by
  rw [State.readyPixel, hexact, henv, hrow]

/-! ### A result leaves its lane (R109) -/

/-- The lane is free again, and the longest transit is kept. -/
def resultTaken (s : State) (n transit : Nat) : State :=
  if (s.setCorLane n none).get Reg.COR_LATENCY_MAX_TRANSIT_NS < transit then
    (s.setCorLane n none).putSat Reg.COR_LATENCY_MAX_TRANSIT_NS transit
  else s.setCorLane n none

theorem resultTaken_cor (s : State) (n transit : Nat) :
    (resultTaken s n transit).cor = { s.cor with lanes := s.cor.lanes.set n none } := by
  unfold resultTaken
  split <;> rfl

theorem resultTaken_mem (s : State) (n transit : Nat) : (resultTaken s n transit).mem = s.mem := by
  unfold resultTaken
  split <;> rfl

theorem resultTaken_walk (s : State) (n transit : Nat) : (resultTaken s n transit).walk = s.walk := by
  unfold resultTaken
  split <;> rfl

theorem regsKept_resultTaken (s : State) (n transit : Nat) : RegsKept s (resultTaken s n transit) [Reg.COR_LATENCY_MAX] := by
  unfold resultTaken
  split
  · exact regsKept_putField (s.setCorLane n none) Reg.COR_LATENCY_MAX_TRANSIT_NS _
  · exact fun _ _ => rfl

theorem get_resultTaken {s : State} {n transit : Nat} {f : Field} (h : f.addr ≠ Reg.COR_LATENCY_MAX) :
    (resultTaken s n transit).get f = s.get f :=
  get_of_regsKept (regsKept_resultTaken s n transit) (by simpa using h)

theorem get_resultTaken_transit (s : State) (n transit : Nat) : (resultTaken s n transit).get Reg.COR_LATENCY_MAX_TRANSIT_NS =
    Nat.max (s.get Reg.COR_LATENCY_MAX_TRANSIT_NS) (Nat.min transit 65535) := by
  have hlt : s.get Reg.COR_LATENCY_MAX_TRANSIT_NS < 65536 := get_lt s _
  have hlane : (s.setCorLane n none).get Reg.COR_LATENCY_MAX_TRANSIT_NS = s.get Reg.COR_LATENCY_MAX_TRANSIT_NS := rfl
  have hput : ((s.setCorLane n none).putSat Reg.COR_LATENCY_MAX_TRANSIT_NS transit).get Reg.COR_LATENCY_MAX_TRANSIT_NS =
      Nat.min transit 65535 :=
    (get_put_self _ Reg.COR_LATENCY_MAX_TRANSIT_NS _ (by decide)).trans
      (Nat.mod_eq_of_lt (Nat.lt_of_le_of_lt (Nat.min_le_right _ _) (by decide)))
  unfold resultTaken
  split
  next h =>
    rw [hput]
    exact (Nat.max_eq_right (Nat.le_min.2 ⟨by omega, by omega⟩)).symm
  next h =>
    rw [hlane]
    exact (Nat.max_eq_left (Nat.le_trans (Nat.min_le_left _ _) (by omega))).symm

/-! ### What becomes of a first result (R110) -/

/-- A pixel waits to be computed again. -/
def retry (s : State) (p : Pixel) : State := { s with cor := { s.cor with again := s.cor.again ++ [p] } }

theorem retry_mem (s : State) (p : Pixel) : (retry s p).mem = s.mem := rfl
theorem retry_walk (s : State) (p : Pixel) : (retry s p).walk = s.walk := rfl
theorem retry_cor (s : State) (p : Pixel) : (retry s p).cor = { s.cor with again := s.cor.again ++ [p] } := rfl
theorem word_retry (s : State) (p : Pixel) (a : Nat) : (retry s p).word a = s.word a := rfl
theorem get_retry (s : State) (p : Pixel) (f : Field) : (retry s p).get f = s.get f := rfl

section
variable {s : State} {n transit : Nat} {p : Pixel} {r : RowPixel} {err : Int} (hlane : s.corLane n = some p) (htries : p.tries = [])
  (hexact : p.exact = some r)
include hlane htries hexact

theorem laneResult_of_match :
    s.laneResult n transit false err = (resultTaken s n transit).enterResult p { r with value := r.value + err } := by
  rw [State.laneResult, hlane]
  dsimp only
  rw [hexact, htries]
  rfl

theorem laneResult_of_mismatch : s.laneResult n transit true err =
    retry ((resultTaken s n transit).countMismatch n) { p with tries := [r.value + err], tried := n :: p.tried } := by
  rw [State.laneResult, hlane]
  dsimp only
  rw [hexact, htries]
  rfl

end

/-- A result in its row. -/
def enterPixel (p : Pixel) (r : RowPixel) (x : RowWork) : RowWork :=
  if x.line = p.line ∧ x.row = p.row then { x with got := x.got + 1, px := Map.insert x.px p.col r } else x

theorem got_enterPixel_le (p : Pixel) (r : RowPixel) (x : RowWork) : (enterPixel p r x).got ≤ x.got + 1 := by
  unfold enterPixel
  split
  · exact Nat.le_refl _
  · exact Nat.le_succ _

/-- The rows with a result in its row. -/
def rowEntered (s : State) (p : Pixel) (r : RowPixel) : State := { s with cor := { s.cor with rows := s.cor.rows.map (enterPixel p r) } }

/-- A result that completes no row only enters its row. -/
theorem enterResult_of_incomplete {s : State} (h : ∀ x ∈ s.cor.rows, x.got + 1 < 4160) (p : Pixel) (r : RowPixel) :
    s.enterResult p r = rowEntered s p r := by
  unfold State.enterResult rowEntered
  cases hrows : s.cor.rows with
  | nil => rfl
  | cons w rest =>
    have hw : (enterPixel p r w).got < 4160 := Nat.lt_of_le_of_lt (got_enterPixel_le p r w) (h w (by simp [hrows]))
    exact if_pos hw

/-! ### Mismatches (R110, R111) -/

/-- A mismatch of lane n is counted for the line. -/
def lineMissed (s : State) (n : Nat) : State :=
  { s with cor := { s.cor with lineMiss := s.cor.lineMiss.set n (s.cor.lineMiss.getD n 0 + 1) } }

theorem word_lineMissed (s : State) (n a : Nat) : (lineMissed s n).word a = s.word a := rfl

theorem get_lineMissed (s : State) (n : Nat) (f : Field) : (lineMissed s n).get f = s.get f := rfl

/-- A mismatch of lane n is counted: in all, for the lane, and for the line. -/
def mismatchCounted (s : State) (n : Nat) : State :=
  lineMissed ((s.bump Reg.COR_MISMATCH_COUNT 1).bump (Reg.COR_LANE_MISMATCHES n) 1) n

theorem regsKept_mismatchCounted (s : State) (n : Nat) : RegsKept s (mismatchCounted s n) [Reg.COR_MISMATCH, Reg.COR_LANE n] := by
  intro a ha
  rw [mismatchCounted, word_lineMissed]
  exact regsKept_trans (regsKept_putField s Reg.COR_MISMATCH_COUNT _) (regsKept_putField _ (Reg.COR_LANE_MISMATCHES n) _) a ha

theorem mismatchCounted_mem (s : State) (n : Nat) : (mismatchCounted s n).mem = s.mem := rfl

theorem mismatchCounted_walk (s : State) (n : Nat) : (mismatchCounted s n).walk = s.walk := rfl

theorem mismatchCounted_cor (s : State) (n : Nat) : (mismatchCounted s n).cor =
    { s.cor with lineMiss := s.cor.lineMiss.set n (s.cor.lineMiss.getD n 0 + 1) } := rfl

/-- The registers below the counters, the limit of the line and the lane map among them, do not count. -/
theorem get_mismatchCounted {s : State} {n : Nat} {f : Field} (h : f.addr < Reg.COR_MISMATCH) :
    (mismatchCounted s n).get f = s.get f := by
  rw [mismatchCounted, get_lineMissed, State.bump, get_put_ne (ne_corLane (Nat.lt_trans h (by decide)) n), State.bump,
    get_put_ne (Nat.ne_of_lt h)]

theorem get_mismatchCounted_count (s : State) (n : Nat) :
    (mismatchCounted s n).get Reg.COR_MISMATCH_COUNT = Nat.min (s.get Reg.COR_MISMATCH_COUNT + 1) (2 ^ 32 - 1) := by
  have hne : Reg.COR_MISMATCH ≠ Reg.COR_LANE n := ne_corLane (by decide) n
  rw [mismatchCounted, get_lineMissed, State.bump, get_put_ne hne]
  exact get_bump_self s Reg.COR_MISMATCH_COUNT 1 (by decide)

theorem get_mismatchCounted_lane (s : State) (n : Nat) :
    (mismatchCounted s n).get (Reg.COR_LANE_MISMATCHES n) = Nat.min (s.get (Reg.COR_LANE_MISMATCHES n) + 1) 65535 := by
  have hne : Reg.COR_LANE n ≠ Reg.COR_MISMATCH := (ne_corLane (by decide) n).symm
  have hbefore : (s.bump Reg.COR_MISMATCH_COUNT 1).get (Reg.COR_LANE_MISMATCHES n) = s.get (Reg.COR_LANE_MISMATCHES n) :=
    get_put_ne hne
  rw [mismatchCounted, get_lineMissed, get_bump_self _ (Reg.COR_LANE_MISMATCHES n) 1 (Nat.le_of_ble_eq_true rfl), hbefore]
  rfl

/-- Below the limit of the line a mismatch is only counted. -/
theorem countMismatch_of_below {s : State} {n : Nat} (h : s.cor.lineMiss.getD n 0 + 1 < s.get Reg.COR_CTRL_MISMATCH_LIMIT) :
    s.countMismatch n = mismatchCounted s n :=
  if_neg (Nat.not_le.2 (Nat.lt_of_lt_of_eq h (get_mismatchCounted (n := n) (by decide)).symm))

/-- At the limit the lane is declared failed as well. -/
theorem countMismatch_of_limit {s : State} {n : Nat} (h : s.get Reg.COR_CTRL_MISMATCH_LIMIT ≤ s.cor.lineMiss.getD n 0 + 1) :
    s.countMismatch n = (mismatchCounted s n).failCorLane n 1 :=
  if_pos (Nat.le_trans (Nat.le_of_eq (get_mismatchCounted (n := n) (by decide))) h)

/-! ### The commands -/

theorem lineLate_of_same_lines {s : State} {done : List Nat} (h : s.walk.lineDone = done) : s.lineLate done = s := by
  subst h
  unfold State.lineLate
  split
  next m _ hdone => exact if_neg (fun hc => hc.1 (by rw [hdone]; exact List.mem_cons_self))
  next => rfl

theorem get_lineLate {s : State} {done : List Nat} {f : Field} (h : f.addr ≠ Reg.COR_LATENCY_MAX) : (s.lineLate done).get f = s.get f := by
  unfold State.lineLate
  split
  · split
    · dsimp only
      split
      · exact get_put_ne h
      · rfl
    · rfl
  · rfl

theorem exec_laneResult {s : State} {lane w transit : Nat} {mismatch : Bool} {err : Int} (h : lane < 9) :
    exec (.laneResult lane w transit mismatch err) s =
      .next (((s.elapse w).laneResult lane transit mismatch err).lineLate s.walk.lineDone) :=
  if_neg (Nat.not_le.2 h)

/-- A stalled lane gives its pixel up to be computed again. -/
def laneStalled (s : State) (lane : Nat) (p : Pixel) : State := (retry s { p with tried := lane :: p.tried }).setCorLane lane none

theorem laneStalled_cor (s : State) (lane : Nat) (p : Pixel) : (laneStalled s lane p).cor =
    { s.cor with again := s.cor.again ++ [{ p with tried := lane :: p.tried }], lanes := s.cor.lanes.set lane none } := rfl

theorem get_laneStalled (s : State) (lane : Nat) (p : Pixel) (f : Field) : (laneStalled s lane p).get f = s.get f := rfl

theorem exec_laneStall {s : State} {lane : Nat} {p : Pixel} (h : lane < 9) (hlane : s.corLane lane = some p) :
    exec (.laneStall lane) s = .next ((laneStalled s lane p).failCorLane lane 2) := by
  refine (if_neg (Nat.not_le.2 h)).trans (congrArg Host.Outcome.next ?_)
  rw [hlane]
  rfl

section
variable {s : State} {lane w transit : Nat} {p : Pixel} {r : RowPixel} (hn : lane < 9) (hlane : s.corLane lane = some p)
  (htries : p.tries = []) (hexact : p.exact = some r)
include hn hlane htries hexact

theorem laneResult_enters (hrows : ∀ x ∈ s.cor.rows, x.got + 1 < 4160) :
    ∃ t, exec (.laneResult lane w transit false 0) s = .next t ∧ t.cor.lanes = s.cor.lanes.set lane none ∧ t.cor.again = s.cor.again ∧
      t.cor.rows = s.cor.rows.map (enterPixel p r) ∧
      t.get Reg.COR_LATENCY_MAX_TRANSIT_NS = Nat.max (s.get Reg.COR_LATENCY_MAX_TRANSIT_NS) (Nat.min transit 65535) ∧
      RegsKept s t [Reg.COR_LATENCY_MAX] ∧ t.mem = s.mem := by
  have hcor := resultTaken_cor (s.elapse w) lane transit
  have hvalue : { r with value := r.value + 0 } = r := by rw [Int.add_zero]
  have hresult := laneResult_of_match (s := s.elapse w) (transit := transit) (err := 0) hlane htries hexact
  rw [hvalue, enterResult_of_incomplete (by rw [hcor]; exact hrows)] at hresult
  have hstep := exec_laneResult (s := s) (w := w) (transit := transit) (mismatch := false) (err := 0) hn
  have hwalk : (rowEntered (resultTaken (s.elapse w) lane transit) p r).walk = s.walk := resultTaken_walk (s.elapse w) lane transit
  rw [hresult, lineLate_of_same_lines (congrArg WalkState.lineDone hwalk)] at hstep
  refine ⟨_, hstep, ?_, ?_, ?_, get_resultTaken_transit (s.elapse w) lane transit, regsKept_resultTaken (s.elapse w) lane transit,
    resultTaken_mem (s.elapse w) lane transit⟩
  all_goals
    dsimp only [rowEntered]
    rw [hcor, elapse_cor]

theorem laneResult_retries (err : Int) (hbelow : s.cor.lineMiss.getD lane 0 + 1 < s.get Reg.COR_CTRL_MISMATCH_LIMIT) :
    ∃ t, exec (.laneResult lane w transit true err) s = .next t ∧ t.cor.lanes = s.cor.lanes.set lane none ∧ t.cor.rows = s.cor.rows ∧
      t.cor.again = s.cor.again ++ [{ p with tries := [r.value + err], tried := lane :: p.tried }] ∧
      t.get Reg.COR_MISMATCH_COUNT = Nat.min (s.get Reg.COR_MISMATCH_COUNT + 1) (2 ^ 32 - 1) ∧
      t.get (Reg.COR_LANE_MISMATCHES lane) = Nat.min (s.get (Reg.COR_LANE_MISMATCHES lane) + 1) 65535 ∧
      RegsKept s t [Reg.COR_MISMATCH, Reg.COR_LANE lane, Reg.COR_LATENCY_MAX] ∧ t.mem = s.mem := by
  have hcor := resultTaken_cor (s.elapse w) lane transit
  have hcount : (resultTaken (s.elapse w) lane transit).countMismatch lane = mismatchCounted (resultTaken (s.elapse w) lane transit) lane := by
    refine countMismatch_of_below ?_
    rw [hcor, get_resultTaken (by decide)]
    exact hbelow
  have hresult := laneResult_of_mismatch (s := s.elapse w) (transit := transit) (err := err) hlane htries hexact
  rw [hcount] at hresult
  have hstep := exec_laneResult (s := s) (w := w) (transit := transit) (mismatch := true) (err := err) hn
  have hwalk : (retry (mismatchCounted (resultTaken (s.elapse w) lane transit) lane)
      { p with tries := [r.value + err], tried := lane :: p.tried }).walk = s.walk := by
    rw [retry_walk, mismatchCounted_walk, resultTaken_walk, elapse_walk]
  rw [hresult, lineLate_of_same_lines (congrArg WalkState.lineDone hwalk)] at hstep
  have hkept := regsKept_trans (regsKept_resultTaken (s.elapse w) lane transit) (regsKept_mismatchCounted _ lane)
  refine ⟨_, hstep, ?_, ?_, ?_, ?_, ?_, fun a ha => ?_, ?_⟩
  iterate 3
    · rw [retry_cor, mismatchCounted_cor, hcor, elapse_cor]
  · rw [get_retry, get_mismatchCounted_count, get_resultTaken (by decide), get_elapse]
  · rw [get_retry, get_mismatchCounted_lane, get_resultTaken (ne_corLane (by decide) lane).symm, get_elapse]
  · rw [word_retry, ← word_elapse s w a]
    simp only [List.mem_cons, List.not_mem_nil, or_false, not_or] at ha
    obtain ⟨hmismatch, hcounter, htransit⟩ := ha
    refine hkept a ?_
    simp only [List.cons_append, List.nil_append, List.mem_cons, List.not_mem_nil, or_false, not_or]
    exact ⟨htransit, hmismatch, hcounter⟩
  · rw [retry_mem, mismatchCounted_mem, resultTaken_mem, elapse_mem]

theorem laneResult_failsLane (err : Int) (hlimit : s.get Reg.COR_CTRL_MISMATCH_LIMIT ≤ s.cor.lineMiss.getD lane 0 + 1)
    (hworks : s.laneFailed lane = false) :
    ∃ t, exec (.laneResult lane w transit true err) s = .next t ∧ t.laneFailed lane = true ∧ t.domain lane = 0 := by
  have hcount : (resultTaken (s.elapse w) lane transit).countMismatch lane =
      (mismatchCounted (resultTaken (s.elapse w) lane transit) lane).failCorLane lane 1 := by
    refine countMismatch_of_limit ?_
    rw [resultTaken_cor, get_resultTaken (by decide)]
    exact hlimit
  have hmap : (mismatchCounted (resultTaken (s.elapse w) lane transit) lane).laneFailed lane = false := by
    rw [State.laneFailed, get_mismatchCounted (by decide), get_resultTaken (by decide)]
    exact hworks
  have haddr : (domField lane).addr = Reg.PWR_DOM 0 := congrArg Reg.PWR_DOM (Nat.div_eq_of_lt (by omega))
  have hresult := laneResult_of_mismatch (s := s.elapse w) (transit := transit) (err := err) hlane htries hexact
  rw [hcount] at hresult
  refine ⟨_, (exec_laneResult hn).trans (by rw [hresult]), ?_, ?_⟩
  · rw [State.laneFailed, get_lineLate (by decide)]
    exact laneFailed_failCorLane hmap hn
  · rw [State.domain, get_lineLate (haddr ▸ by decide)]
    exact domain_failCorLane hmap hn

end

theorem laneStall_failsLane {s : State} {lane : Nat} {p : Pixel} (hn : lane < 9) (hlane : s.corLane lane = some p)
    (hworks : s.laneFailed lane = false) :
    ∃ t, exec (.laneStall lane) s = .next t ∧ t.laneFailed lane = true ∧ t.domain lane = 0 ∧ t.cor.lanes = s.cor.lanes.set lane none ∧
      t.cor.again = s.cor.again ++ [{ p with tried := lane :: p.tried }] ∧ t.flag Reg.COR_STATUS_SPARE_FREE = false ∧
      (s.flag Reg.COR_STATUS_SPARE_FREE = true → t.get Reg.COR_STATUS_LANES_WORKING = s.get Reg.COR_STATUS_LANES_WORKING) ∧
      (s.flag Reg.COR_STATUS_SPARE_FREE = false →
        t.get Reg.COR_STATUS_LANES_WORKING = s.get Reg.COR_STATUS_LANES_WORKING - 1) := by
  have hfree : (laneStalled s lane p).laneFailed lane = false := by
    rw [State.laneFailed, get_laneStalled]
    exact hworks
  have hspare : (laneStalled s lane p).flag Reg.COR_STATUS_SPARE_FREE = s.flag Reg.COR_STATUS_SPARE_FREE := by
    rw [State.flag, get_laneStalled, State.flag]
  refine ⟨_, exec_laneStall hn hlane, laneFailed_failCorLane hfree hn, domain_failCorLane hfree hn, ?_, ?_, spareFree_failCorLane hfree hn,
    fun hs => ?_, fun hs => ?_⟩
  iterate 2
    · rw [failCorLane_cor hfree, laneStalled_cor]
  · rw [lanesWorking_failCorLane_of_spare hfree hn (hspare.trans hs), get_laneStalled]
  · rw [lanesWorking_failCorLane_of_noSpare hfree hn (hspare.trans hs), get_laneStalled]

/-- Settles O40: an issue fills a lane and then lets swaps progress; a first result enters its row or is counted and computed again; a lane
at its limit or stalled goes through `failCorLane`. -/
theorem pixelsPassTheLanes : Obligations.PixelsPassTheLanes := by
  refine ⟨fun s p rest n hrun => ⟨fun hagain hlane => ?_, fun hagain hbuffer hlane hheld => ?_⟩,
    fun s p e r hexact henv hrow => readyPixel_of_fresh hexact henv hrow, ?_, fun s lane p hn hlane => laneStall_failsLane hn hlane⟩
  · exact ⟨_, issuedAgain s p rest n, congrArg Host.Outcome.next (issuePixel_of_again hrun hagain hlane), rfl, rfl, rfl, rfl, rfl, rfl,
      fun hswap htable hdue => swapProgress_of_idle hswap htable hdue⟩
  · exact ⟨_, issuedFresh s p rest n, congrArg Host.Outcome.next (issuePixel_of_fresh hrun hagain hbuffer hlane hheld), rfl, rfl, rfl, rfl,
      rfl, rfl, fun hswap htable hdue => swapProgress_of_idle hswap htable hdue⟩
  · exact fun s lane w transit p r hn hlane htries hexact hrows => ⟨laneResult_enters hn hlane htries hexact hrows,
      laneResult_retries hn hlane htries hexact, laneResult_failsLane hn hlane htries hexact⟩

end Sys2Proof.Proofs
end

section
/-!
What the release of a record (R287, R296, R297) does to the counts of the record stream: one position is taken, and the archive, the marks
and the slots that come free keep both counts.
-/
namespace Sys2Proof.Proofs

open Sys2Proof.Machine Sys2Proof.Safety Sys2Proof.Laws

/-! ### The counts

The proofs `(rfl)` below stand in parentheses for the reason given with `lineView`. -/

/-- The next RPOS and the next sequence number. -/
def releaseCounts (s : State) : Nat × Nat := (s.stg.nextRpos, s.stg.nextSeq)

theorem releaseCounts_stg (s : State) : (s.stg.nextRpos, s.stg.nextSeq) = releaseCounts s := (rfl)

theorem releaseCounts_mk {p g sh m f t c mp k pw rs e pt nv d st hk rd co wa ca tr as dr v} :
    releaseCounts (State.mk p g sh m f t c mp k pw rs e pt nv d st hk rd co wa ca tr as dr v) = (st.nextRpos, st.nextSeq) := (rfl)

theorem releaseCounts_ite {c : Prop} {_ : Decidable c} {s t : State} :
    releaseCounts (if c then s else t) = if c then releaseCounts s else releaseCounts t :=
  apply_ite releaseCounts c s t

theorem releaseCounts_put (s : State) (f : Field) (v : Nat) : releaseCounts (s.put f v) = releaseCounts s := (rfl)

theorem releaseCounts_setPair (s : State) (a v : Nat) : releaseCounts (s.setPair a v) = releaseCounts s := (rfl)

theorem releaseCounts_bump (s : State) (f : Field) (n : Nat) : releaseCounts (s.bump f n) = releaseCounts s := (rfl)

theorem releaseCounts_putSat (s : State) (f : Field) (v : Nat) : releaseCounts (s.putSat f v) = releaseCounts s := (rfl)

theorem releaseCounts_arm (s : State) (k n : Nat) : releaseCounts (s.arm k n) = releaseCounts s := (rfl)

theorem releaseCounts_disarm (s : State) (k : Nat) : releaseCounts (s.disarm k) = releaseCounts s := (rfl)

theorem releaseCounts_putSheaf (s : State) (x : Sheaf) : releaseCounts (s.putSheaf x) = releaseCounts s := (rfl)

theorem releaseCounts_emit (s : State) (code index arg : Nat) : releaseCounts (s.emit code index arg) = releaseCounts s := by
  simp only [State.emit, releaseCounts_mk, releaseCounts_stg, releaseCounts_ite, ite_self, releaseCounts_setPair, releaseCounts_put,
    releaseCounts_bump, releaseCounts_arm]

/-! ### The mark store (R376) -/

theorem releaseCounts_startStore (s : State) (st : Store) : releaseCounts (s.startStore st) = releaseCounts s := by
  unfold State.startStore
  split
  · simp only [State.beginStore, releaseCounts_put, releaseCounts_ite, releaseCounts_mk, releaseCounts_stg, ite_self]
  · exact releaseCounts_mk

theorem releaseCounts_markCheck (s : State) : releaseCounts s.markCheck = releaseCounts s := by
  simp only [State.markCheck, releaseCounts_ite, releaseCounts_startStore, ite_self]

theorem releaseCounts_markWait (s : State) : releaseCounts s.markWait = releaseCounts s := releaseCounts_put s _ _

/-! ### The archive, the slots and the window (R296, R303, R328) -/

theorem releaseCounts_issue (s : State) : releaseCounts s.issue = releaseCounts s := by
  simp only [State.issue, releaseCounts_mk, releaseCounts_stg, releaseCounts_ite, ite_self, releaseCounts_disarm, releaseCounts_arm]

theorem releaseCounts_queueWrite (s : State) (w : DriveWrite) : releaseCounts (s.queueWrite w) = releaseCounts s :=
  (releaseCounts_issue _).trans releaseCounts_mk

theorem releaseCounts_writeBlock (s : State) : releaseCounts s.writeBlock = releaseCounts s := by
  simp only [State.writeBlock, releaseCounts_ite, releaseCounts_queueWrite, releaseCounts_mk, releaseCounts_stg, ite_self]

theorem releaseCounts_archiveRecord (s : State) (rpos : Nat) : releaseCounts (s.archiveRecord rpos) = releaseCounts s := by
  simp only [State.archiveRecord, releaseCounts_ite, releaseCounts_writeBlock, releaseCounts_disarm, releaseCounts_arm, releaseCounts_mk,
    releaseCounts_stg, ite_self]

theorem releaseCounts_freeSlots (s : State) : releaseCounts s.freeSlots = releaseCounts s := by
  simp only [State.freeSlots, releaseCounts_ite, releaseCounts_emit, releaseCounts_bump, releaseCounts_mk, releaseCounts_stg, ite_self]

theorem releaseCounts_windowFlag (s : State) : releaseCounts s.windowFlag = releaseCounts s := releaseCounts_put s _ _

/-- A record takes one position; the sequence number is left to the release. -/
theorem releaseCounts_stageRecord (s : State) (kind rflags seq : Nat) (body : List Byte) :
    releaseCounts (s.stageRecord kind rflags seq body) = (s.stg.nextRpos + 1, s.stg.nextSeq) := by
  simp only [State.stageRecord, releaseCounts_windowFlag, releaseCounts_freeSlots, releaseCounts_archiveRecord, releaseCounts_markWait,
    releaseCounts_markCheck, releaseCounts_mk]

/-! ### The release (R198, R449) -/

theorem releaseCounts_freeSheaf (s : State) (slot : Nat) : releaseCounts (s.freeSheaf slot) = releaseCounts s := by
  unfold State.freeSheaf
  split
  · rfl
  · simp only [State.liveUpdate, releaseCounts_ite, releaseCounts_put, releaseCounts_putSat, releaseCounts_mk, releaseCounts_stg,
      releaseCounts_putSheaf, ite_self]

/-- The sequence number that stands next after a record (R198, R449). -/
def seqAfter (seq : Nat) : NextRecord → Nat
  | .object x => x.seq + 1
  | .lost e => e.seq + 1
  | .gap _ => seq
  | .aggregate _ => seq

theorem releaseCounts_release (s : State) (r : NextRecord) :
    releaseCounts (s.release r) = (s.stg.nextRpos + 1, seqAfter s.stg.nextSeq r) := by
  cases r with
  | gap b => exact releaseCounts_stageRecord _ _ _ _ _
  | aggregate a => exact releaseCounts_stageRecord _ _ _ _ _
  | lost e => exact releaseCounts_stageRecord _ _ _ _ _
  | object x => exact (releaseCounts_freeSheaf _ _).trans (releaseCounts_stageRecord _ _ _ _ _)

/-! ### RECORD_RELEASE (R198, R297) and AGGREGATE_RECORD (R196) -/

theorem exec_recordRelease_of_free {s : State} {w : Nat} {ecc : List EccFact} {r : NextRecord} (hfree : (s.elapse w).mayRelease = true)
    (hstill : ((s.elapse w).eccFacts ecc).mayRelease = true) (hnext : ((s.elapse w).eccFacts ecc).nextRecord = some r) :
    exec (.recordRelease w ecc) s = .next (((s.elapse w).eccFacts ecc).release r).stagingFull := by
  refine congrArg Host.Outcome.next ?_
  dsimp only
  rw [if_pos hfree, hnext]
  exact congrArg State.stagingFull (if_pos hstill)

/-- A record that may not be released waits. -/
theorem exec_recordRelease_of_busy {s : State} {w : Nat} {ecc : List EccFact} (hbusy : (s.elapse w).mayRelease = false) :
    exec (.recordRelease w ecc) s = .next (s.elapse w).stagingFull := by
  have hno : ¬ (s.elapse w).mayRelease = true := by simp [hbusy]
  refine congrArg Host.Outcome.next ?_
  dsimp only
  rw [if_neg hno]
  split
  · rfl
  · rw [if_neg hno]

theorem regsKept_stagingFull (s : State) : RegsKept s s.stagingFull [Reg.NVH_STATUS] :=
  regsKept_putField s Reg.NVH_STATUS_STAGING_FULL _

/-- STAGING_FULL shows a record that waits for a slot (R297). -/
theorem stagingFull_shows {s : State} (hnext : s.nextRecord ≠ none) (hfull : s.slotFree = false) :
    s.stagingFull.get Reg.NVH_STATUS_STAGING_FULL = 1 := by
  have hwaits : (s.nextRecord.isSome && !s.slotFree) = true := by simp [Option.isSome_iff_ne_none, hnext, hfull]
  unfold State.stagingFull
  rw [hwaits]
  exact get_put_self s Reg.NVH_STATUS_STAGING_FULL 1 (by decide)

theorem recordRelease_takesPosition {s : State} {w : Nat} {ecc : List EccFact} {r : NextRecord} (hfree : (s.elapse w).mayRelease = true)
    (hstill : ((s.elapse w).eccFacts ecc).mayRelease = true) (hnext : ((s.elapse w).eccFacts ecc).nextRecord = some r) :
    ∃ t u : State, exec (.recordRelease w ecc) s = .next t ∧ t = u.stagingFull ∧ t.stg = u.stg ∧ u = ((s.elapse w).eccFacts ecc).release r ∧
      u.stg.nextRpos = ((s.elapse w).eccFacts ecc).stg.nextRpos + 1 ∧
      u.stg.nextSeq = seqAfter ((s.elapse w).eccFacts ecc).stg.nextSeq r := by
  obtain ⟨hrpos, hseq⟩ := Prod.mk.inj (releaseCounts_release ((s.elapse w).eccFacts ecc) r)
  exact ⟨_, _, exec_recordRelease_of_free hfree hstill hnext, rfl, putFlag_stg _ _ _, rfl, hrpos, hseq⟩

theorem recordRelease_waits {s : State} {w : Nat} {ecc : List EccFact} (hbusy : (s.elapse w).mayRelease = false)
    (hnext : s.nextRecord ≠ none) (hfull : s.slotFree = false) :
    ∃ t, exec (.recordRelease w ecc) s = .next t ∧ t.get Reg.NVH_STATUS_STAGING_FULL = 1 ∧ RegsKept s t [Reg.NVH_STATUS] ∧ t.stg = s.stg :=
  ⟨_, exec_recordRelease_of_busy hbusy, stagingFull_shows (s := s.elapse w) hnext hfull, regsKept_stagingFull (s.elapse w),
    putFlag_stg (s.elapse w) _ _⟩

/-- The aggregate record of a millisecond's refusals (Table 11-4). -/
def aggregateOf (s : State) (r : Refusals) : Aggregate :=
  ⟨s.seqNext, leBytes 8 (r.ms * 1000000) ++ leBytes 4 r.stopped ++ leBytes 4 r.rate ++ leBytes 4 r.store ++ leBytes 4 r.memory ++
    leBytes 4 r.hot ++ leBytes 4 r.cold ++ leBytes 4 r.spill ++ leBytes 1 (s.get Reg.TRK_CTRL_DEFAULT_DISP) ++ List.replicate 183 0⟩

/-- The refusals wait no more, and their record waits for its release. -/
def aggregateIssued (s : State) (r : Refusals) : State :=
  { s.disarm Timer.aggregate with
    trk := { s.trk with refused := none }, stg := { s.stg with aggregates := s.stg.aggregates ++ [aggregateOf s r] } }

theorem word_aggregateIssued (s : State) (r : Refusals) (a : Nat) : (aggregateIssued s r).word a = s.word a := rfl

theorem issueAggregate_of_refused {s : State} {r : Refusals} (h : s.trk.refused = some r) : s.issueAggregate = aggregateIssued s r := by
  unfold State.issueAggregate
  rw [h]
  rfl

theorem elapseTo_trk (s : State) (t : Nat) : (s.elapseTo t).trk = s.trk := by
  unfold State.elapseTo
  split <;> rfl

theorem elapseTo_stg (s : State) (t : Nat) : (s.elapseTo t).stg = s.stg := by
  unfold State.elapseTo
  split <;> rfl

theorem aggregateOf_elapseTo (s : State) (t : Nat) (r : Refusals) : aggregateOf (s.elapseTo t) r = aggregateOf s r := by
  simp only [aggregateOf, State.seqNext, State.pair, word_elapseTo, get_elapseTo]

theorem aggregateRecord_issues {s : State} {d : Nat} {r : Refusals} (hdue : s.due Timer.aggregate = some d) (hr : s.trk.refused = some r) :
    ∃ t, exec .aggregateRecord s = .next t ∧ t.trk.refused = none ∧ RegsKept s t [Reg.NVH_STATUS] ∧
      t.stg.aggregates = s.stg.aggregates ++ [aggregateOf s r] := by
  have hfire : s.fire Timer.aggregate = some ((s.elapseTo d).disarm Timer.aggregate) := by rw [State.fire, hdue]
  have hissue : ((s.elapseTo d).disarm Timer.aggregate).issueAggregate = aggregateIssued ((s.elapseTo d).disarm Timer.aggregate) r :=
    issueAggregate_of_refused ((congrArg TrkState.refused (elapseTo_trk s d)).trans hr)
  have hexec : exec .aggregateRecord s = .next (aggregateIssued ((s.elapseTo d).disarm Timer.aggregate) r).stagingFull := by
    refine congrArg Host.Outcome.next ?_
    rw [hfire]
    exact congrArg State.stagingFull hissue
  have hbefore : RegsKept s (aggregateIssued ((s.elapseTo d).disarm Timer.aggregate) r) [] := fun a _ => by
    rw [word_aggregateIssued, word_disarm, word_elapseTo]
  refine ⟨_, hexec, rfl, regsKept_trans hbefore (regsKept_stagingFull _), ?_⟩
  calc (aggregateIssued ((s.elapseTo d).disarm Timer.aggregate) r).stagingFull.stg.aggregates
      _ = (s.elapseTo d).stg.aggregates ++ [aggregateOf (s.elapseTo d) r] := rfl
      _ = s.stg.aggregates ++ [aggregateOf s r] := by rw [elapseTo_stg, aggregateOf_elapseTo]

end Sys2Proof.Proofs
end

section
/-!
The field line (R126 to R130, R206) and the image of a sealed sheaf (R138), with the statement about them and the records.
-/
namespace Sys2Proof.Proofs

open Sys2Proof.Machine Sys2Proof.Safety Sys2Proof.Laws

/-! ### The field line is formed -/

section
variable {s : State} {n : Nat} {e : LineEnv} (henv : findEnv s.cor.env n = some e)
include henv

theorem formField_nextField : (s.formField n).walk.nextField = n + 1 := by
  unfold State.formField
  rw [henv]

theorem mem_formField_formed : n ∈ (s.formField n).walk.formed := by
  unfold State.formField
  rw [henv]
  exact List.mem_cons_self

theorem mem_formField_ring {c : Nat} (hc : c < 4096) :
    (n * 4096 + c, s.fieldPixel e (s.routes n e.nu) ((List.range 24).map (s.routedLines n)) c) ∈ (s.formField n).walk.ring := by
  unfold State.formField
  rw [henv]
  exact List.mem_append_right _ (List.mem_map.2 ⟨c, List.mem_range.2 hc, rfl⟩)

end

theorem fieldLate_walk (s : State) (n : Nat) : (s.fieldLate n).walk = s.walk := by
  unfold State.fieldLate
  dsimp only
  rw [apply_ite State.walk, putSat_walk, ite_self]

/-! ### FIELD_LINE_COMPLETE (R130) -/

/-- The line whose last row is in is no longer waited for. -/
def lineTaken (s : State) (n : Nat) : State :=
  { s with walk := { s.walk with lineDone := s.walk.lineDone.filter (fun m => decide (m ≠ n)) } }

/-- Field line n stands in the ring, and its lateness is noted. -/
def fieldFormed (v : State) (n : Nat) : State := (v.formField n).fieldLate n

/-- A field line is staged for the archive and then applied to detection, unless that function is reset (R206, R446). -/
def fieldApplied (u : State) (e : LineEnv) : State :=
  if (u.archiveLine e).resetting 3 then (u.archiveLine e).missField else (u.archiveLine e).applyField e

theorem exec_fieldLineComplete {s : State} {w n : Nat} {ecc : List EccFact} {e : LineEnv} (hn : (s.elapse w).walk.nextField = n)
    (hdone : n ∈ s.walk.lineDone) (hrun : s.resetting 2 = false) (hlink : s.linkLostNow = false) (henv : findEnv s.cor.env n = some e) :
    exec (.fieldLineComplete w ecc) s =
      .next (((fieldApplied (fieldFormed ((lineTaken (s.elapse w) n).eccFacts ecc) n) e).glean n).flagCheck n) := by
  subst hn
  refine congrArg Host.Outcome.next ((if_pos ⟨hdone, congrArg Bool.not hrun, congrArg Bool.not hlink⟩).trans ?_)
  unfold State.fieldComplete
  dsimp only
  rw [show findEnv (s.elapse w).cor.env (s.elapse w).walk.nextField = some e from henv]
  rfl

theorem fieldLineComplete_inOrder {s : State} {w n : Nat} {ecc : List EccFact} {e : LineEnv} (hn : (s.elapse w).walk.nextField = n)
    (hdone : n ∈ s.walk.lineDone) (hrun : s.resetting 2 = false) (hlink : s.linkLostNow = false) (henv : findEnv s.cor.env n = some e) :
    ∃ t v u : State, v = (lineTaken (s.elapse w) n).eccFacts ecc ∧ exec (.fieldLineComplete w ecc) s = .next t ∧
      t = ((if (u.archiveLine e).resetting 3 then (u.archiveLine e).missField else (u.archiveLine e).applyField e).glean n).flagCheck n ∧
      (findEnv v.cor.env n = some e → u.walk.nextField = n + 1 ∧ n ∈ u.walk.formed ∧
        ∀ c, c < 4096 → (n * 4096 + c, v.fieldPixel e (v.routes n e.nu) ((List.range 24).map (v.routedLines n)) c) ∈ u.walk.ring) := by
  refine ⟨_, _, fieldFormed ((lineTaken (s.elapse w) n).eccFacts ecc) n, rfl, exec_fieldLineComplete hn hdone hrun hlink henv, rfl,
    fun hv => ?_⟩
  rw [fieldFormed, fieldLate_walk]
  exact ⟨formField_nextField hv, mem_formField_formed hv, fun c hc => mem_formField_ring hv hc⟩

/-! ### SHEAF_IMAGE_COMPLETE (R138) -/

theorem readImage_congr {s t : State} (h : t.free = s.free) (x : Sheaf) : t.readImage x = s.readImage x := by
  rw [State.readImage, h, State.readImage]

theorem readImage_slot (s : State) (x : Sheaf) : (s.readImage x).slot = x.slot := by
  unfold State.readImage Sheaf.imageErrors
  split <;> rfl

/-- SHEAF_LATE keeps the longest wait of an image after its seal (Table 5-15). -/
def sheafLateNoted (s : State) (x : Sheaf) : State :=
  if s.get Reg.COR_WALK_LATE_SHEAF_LATE < (s.now - x.tSeal) / 10 then s.putSat Reg.COR_WALK_LATE_SHEAF_LATE ((s.now - x.tSeal) / 10) else s

theorem sheafLateNoted_trk (s : State) (x : Sheaf) : (sheafLateNoted s x).trk = s.trk := by
  rw [sheafLateNoted, apply_ite State.trk, putSat_trk, ite_self]

theorem sheafLateNoted_free (s : State) (x : Sheaf) : (sheafLateNoted s x).free = s.free := by
  rw [sheafLateNoted, apply_ite State.free, putSat_free, ite_self]

theorem sheafLateNoted_mem (s : State) (x : Sheaf) : (sheafLateNoted s x).mem = s.mem := by
  rw [sheafLateNoted, apply_ite State.mem, putSat_mem, ite_self]

theorem regsKept_sheafLateNoted (s : State) (x : Sheaf) : RegsKept s (sheafLateNoted s x) [Reg.COR_WALK_LATE] := by
  unfold sheafLateNoted
  split
  · exact regsKept_putField s Reg.COR_WALK_LATE_SHEAF_LATE _
  · exact fun _ _ => rfl

/-- The summary of a sheaf is written. -/
def sheafSummed (s : State) (x : Sheaf) : State :=
  (sheafLateNoted s x).draw.putSheaf ((sheafLateNoted s x).readImage x).summary

theorem exec_sheafImageComplete {s : State} {w slot : Nat} {x : Sheaf} (hx : s.sheaf slot = some x) (hsealed : x.state = 2) :
    exec (.sheafImageComplete w slot) s = .next ((sheafSummed (s.elapse w) x).queueSheaf slot) := by
  refine congrArg Host.Outcome.next ?_
  dsimp only
  rw [show (s.elapse w).sheaf slot = some x from hx]
  exact if_neg (not_not_intro hsealed)

theorem sheafSummed_sheaves (s : State) (x : Sheaf) :
    (sheafSummed s x).trk.sheaves = Map.insert s.trk.sheaves x.slot (s.readImage x).summary := by
  calc (sheafSummed s x).trk.sheaves
      _ = Map.insert (sheafLateNoted s x).trk.sheaves ((sheafLateNoted s x).readImage x).slot ((sheafLateNoted s x).readImage x).summary := rfl
      _ = Map.insert s.trk.sheaves x.slot (s.readImage x).summary := by
        rw [sheafLateNoted_trk, readImage_slot, readImage_congr (sheafLateNoted_free s x)]

/-! ### A sheaf is queued (R226, R230) -/

theorem queueUpdate_trk (s : State) : s.queueUpdate.trk = s.trk := by
  unfold State.queueUpdate
  dsimp only
  rw [apply_ite State.trk, put_trk, put_trk, ite_self]

/-- The deadline of a binding, brought forward to the latest moment of the sheaf's plan. -/
def judgingDeadline (y : Sheaf) (b : Binding) : Int :=
  match y.plan.latest with
  | some l => min ((y.tSeal : Int) + 1000 * (b.deadlineUs : Int)) l
  | none => (y.tSeal : Int) + 1000 * (b.deadlineUs : Int)

theorem judgingDeadline_le (y : Sheaf) (b : Binding) : judgingDeadline y b ≤ (y.tSeal : Int) + 1000 * (b.deadlineUs : Int) := by
  unfold judgingDeadline
  split
  · exact Int.min_le_left _ _
  · exact Int.le_refl _

theorem queueSheaf_of_program {s : State} {slot : Nat} {y : Sheaf} (hy : s.sheaf slot = some y) (hlen : (s.binding (s.slotOf y)).len ≠ 0) :
    (s.queueSheaf slot).trk.sheaves = Map.insert s.trk.sheaves y.slot
      { y with state := 3, bound := some (s.binding (s.slotOf y)), deadline := some (judgingDeadline y (s.binding (s.slotOf y))) } := by
  unfold State.queueSheaf
  rw [hy]
  dsimp only
  rw [if_neg hlen, queueUpdate_trk]
  rfl

theorem sheafImageComplete_queues {s : State} {w slot : Nat} {x : Sheaf} (hx : s.sheaf slot = some x) (hsealed : x.state = 2) :
    ∃ t u : State, exec (.sheafImageComplete w slot) s = .next t ∧ t = u.queueSheaf slot ∧
      u.trk.sheaves = Map.insert s.trk.sheaves x.slot (s.readImage x).summary ∧ RegsKept s u [Reg.COR_WALK_LATE] ∧ u.mem = s.mem ∧
      (∀ y, u.sheaf slot = some y → (u.binding (u.slotOf y)).len ≠ 0 → ∃ d, (u.queueSheaf slot).trk.sheaves =
        Map.insert u.trk.sheaves y.slot { y with state := 3, bound := some (u.binding (u.slotOf y)), deadline := some d } ∧
        d ≤ (y.tSeal : Int) + 1000 * ((u.binding (u.slotOf y)).deadlineUs : Int)) :=
  ⟨_, sheafSummed (s.elapse w) x, exec_sheafImageComplete hx hsealed, rfl, sheafSummed_sheaves (s.elapse w) x,
    regsKept_sheafLateNoted (s.elapse w) x, sheafLateNoted_mem (s.elapse w) x,
    fun y hy hlen => ⟨_, queueSheaf_of_program hy hlen, judgingDeadline_le y _⟩⟩

/-- Settles O42: the field line goes through forming, archive, detection and gleaning; a sealed image is summed and queued; and a release
moves the counts of the record stream as `releaseCounts_release` says. -/
theorem fieldLinesImagesAndRecords : Obligations.FieldLinesImagesAndRecords := by
  refine ⟨fun s w ecc n e hn hdone hrun hlink henv => fieldLineComplete_inOrder hn hdone hrun hlink henv,
    fun s w slot x hx hsealed => sheafImageComplete_queues hx hsealed, fun s w ecc r hfree hstill hnext => ?_,
    fun s w ecc hbusy hnext hfull => recordRelease_waits hbusy hnext hfull, fun s d r hdue hr => aggregateRecord_issues hdue hr⟩
  obtain ⟨t, u, hexec, hfull, hstg, hu, hrpos, hseq⟩ := recordRelease_takesPosition hfree hstill hnext
  refine ⟨t, u, hexec, hfull, hstg, hu, hrpos, hseq.trans ?_⟩
  cases r with
  | gap _ => rfl
  | aggregate _ => rfl
  | lost _ => rfl
  | object _ => rfl

end Sys2Proof.Proofs
end

section
/-!
One instruction of an Aster run: what the shared step of a run makes of an instruction's outcome when the engine fetches it within its
budget (R211), and the image, branch, feature and verdict instructions over it (Tables 8-3 to 8-5).
-/
namespace Sys2Proof.Proofs

open Sys2Proof.Machine Sys2Proof.Safety Sys2Proof.Laws

/-! ### The shared step of a run (R211, R231) -/

/-- What the instruction of a step works on. -/
def runCtx (s : State) (st : EngStep) (x : Sheaf) (b : Binding) : RunCtx := ⟨st.engine, s.engine st.engine, x.imageErrors st.imgBad, b⟩

/-- What an instruction's outcome makes of the state that it started in: the run goes on, or ends with its engine's cycles so far, or with
the verdict's. -/
def runOutcome (s : State) (st : EngStep) (slot : Nat) (x : Sheaf) (cost : Nat) : EngOut → State
  | .go t g => t.putEngine st.engine { g with cycles := (s.engine st.engine).cycles + cost, lastDone := t.time.ticks }
  | .stop status => (stepped s st x).endRun st.engine slot (RunEnd.bad status (s.engine st.engine).cycles st.engine)
  | .verd v k g => (stepped s st x).endRun st.engine slot ⟨0, v, k, g.feats, (s.engine st.engine).cycles + cost, st.engine⟩

section
variable {s : State} {st : EngStep} {slot : Nat} {x : Sheaf} {b : Binding} {is : Nat → Bool}

/-- An instruction that is fetched, with its cost within the budget, has its effect. -/
theorem aster_fetched {cost : RunCtx → Nat} {f : State → RunCtx → EngOut} (hf : Fetches s st slot x b is)
    (hb : (s.engine st.engine).cycles + cost (runCtx s st x b) ≤ b.budget) :
    s.aster st is cost f = runOutcome s st slot x (cost (runCtx s st x b)) (f (stepped s st x) (runCtx s st x b)) := by
  obtain ⟨hengine, hrunning, hslot, hx, hbound, hword, hfault, hboth⟩ := hf
  have hready : ¬ (16 ≤ st.engine ∨ s.engState st.engine ≠ 1) := by omega
  have hwithin : ¬ b.budget < (s.engine st.engine).cycles + cost ⟨st.engine, s.engine st.engine, x.imageErrors st.imgBad, b⟩ :=
    Nat.not_lt.2 hb
  unfold State.aster
  simp only [hready, hslot, hx, hbound, hword, hfault, hboth, hwithin, Bool.not_true, Bool.false_eq_true, if_false]
  unfold runOutcome runCtx stepped
  generalize f _ _ = out
  cases out <;> rfl

/-- An instruction that changes its engine only completes. -/
theorem aster_ran {cost : RunCtx → Nat} {f : State → RunCtx → EngOut} {n : Nat} {g : Engine} (hf : Fetches s st slot x b is)
    (hcost : cost (runCtx s st x b) = n) (hb : (s.engine st.engine).cycles + n ≤ b.budget)
    (hgo : f (stepped s st x) (runCtx s st x b) = .go (stepped s st x) g) : s.aster st is cost f = ran s st x n g := by
  subst hcost
  rw [aster_fetched hf hb, hgo]
  rfl

/-! ### The window (R215) -/

theorem imageErrors_lines (x : Sheaf) (l : List (Nat × Nat)) : (x.imageErrors l).lines = x.lines := by
  unfold Sheaf.imageErrors
  split <;> rfl

theorem imageErrors_width (x : Sheaf) (l : List (Nat × Nat)) : (x.imageErrors l).width = x.width := by
  unfold Sheaf.imageErrors
  split <;> rfl

theorem asterWin_lines {a c : Nat} (hf : Fetches s st slot x b (isR 0x20 0 a c 0)) (hb : (s.engine st.engine).cycles + 1 ≤ b.budget) :
    exec (.asterWin st a c 0) s = .next (ran s st x 1 { (s.engine st.engine).next with
      l0 := max 0 ((s.engine st.engine).r a), l1 := min ((x.lines : Int) - 1) ((s.engine st.engine).r c) }) := by
  rw [← imageErrors_lines x st.imgBad]
  exact congrArg Host.Outcome.next (aster_ran hf rfl hb rfl)

theorem asterWin_columns {a c : Nat} (hf : Fetches s st slot x b (isR 0x20 0 a c 1)) (hb : (s.engine st.engine).cycles + 1 ≤ b.budget) :
    exec (.asterWin st a c 1) s = .next (ran s st x 1 { (s.engine st.engine).next with
      k0 := max 0 ((s.engine st.engine).r a), k1 := min ((x.width : Int) - 1) ((s.engine st.engine).r c) }) := by
  rw [← imageErrors_width x st.imgBad]
  exact congrArg Host.Outcome.next (aster_ran hf rfl hb rfl)

theorem asterWin_box {a c : Nat} (hf : Fetches s st slot x b (isR 0x20 0 a c 2)) (hb : (s.engine st.engine).cycles + 1 ≤ b.budget) :
    exec (.asterWin st a c 2) s = .next (ran s st x 1 { (s.engine st.engine).next with
      l0 := 0, l1 := (x.lines : Int) - 1, k0 := 0, k1 := (x.width : Int) - 1 }) := by
  rw [← imageErrors_lines x st.imgBad, ← imageErrors_width x st.imgBad]
  exact congrArg Host.Outcome.next (aster_ran hf rfl hb rfl)

/-! ### Pixels and reductions (R205, R215, R216) -/

theorem asterPix_unmarked {d a c : Nat} {v : Int} (hf : Fetches s st slot x b (isR 0x21 d a c 0))
    (hb : (s.engine st.engine).cycles + 3 ≤ b.budget)
    (hv : (x.imageErrors st.imgBad).pixel ((s.engine st.engine).r a) ((s.engine st.engine).r c) = some (v, false)) :
    exec (.asterPix st d a c) s = .next (ran s st x 3 { ((s.engine st.engine).set d v).next with m := false }) :=
  congrArg Host.Outcome.next (aster_ran hf rfl hb (by dsimp only [runCtx]; rw [hv]))

theorem asterPix_marked {d a c : Nat} (hf : Fetches s st slot x b (isR 0x21 d a c 0)) (hb : (s.engine st.engine).cycles + 3 ≤ b.budget)
    (hv : (x.imageErrors st.imgBad).pixel ((s.engine st.engine).r a) ((s.engine st.engine).r c) = none ∨
      ∃ v, (x.imageErrors st.imgBad).pixel ((s.engine st.engine).r a) ((s.engine st.engine).r c) = some (v, true)) :
    exec (.asterPix st d a c) s = .next (ran s st x 3 { ((s.engine st.engine).set d 0).next with m := true }) := by
  refine congrArg Host.Outcome.next (aster_ran hf rfl hb ?_)
  dsimp only [runCtx]
  obtain hv | ⟨v, hv⟩ := hv <;> rw [hv]

theorem asterRed_reduces {d a mode : Nat} (hf : Fetches s st slot x b (isR 0x22 d a 0 mode))
    (hb : (s.engine st.engine).cycles + (4 + (runCtx s st x b).segments) ≤ b.budget) :
    exec (.asterRed st d a mode) s = .next (ran s st x (4 + (runCtx s st x b).segments)
      ((s.engine st.engine).set d ((runCtx s st x b).reduce mode ((s.engine st.engine).r a))).next) :=
  congrArg Host.Outcome.next (aster_ran hf rfl hb rfl)

end

/-! ### The histogram (R217) -/

/-- One more is counted in the bin of p. -/
def tally {α : Type} (bin : α → Nat) (h : List Nat) (p : α) : List Nat := h.set (bin p) (h.getD (bin p) 0 + 1)

theorem length_tally {α : Type} (bin : α → Nat) (h : List Nat) (p : α) : (tally bin h p).length = h.length := List.length_set

theorem getD_tally {α : Type} (bin : α → Nat) {h : List Nat} (p : α) {j : Nat} (hj : j < h.length) :
    (tally bin h p).getD j 0 = h.getD j 0 + if bin p = j then 1 else 0 := by
  unfold tally
  by_cases hp : bin p = j
  · subst hp
    simp [hj]
  · simp [hp]

/-- A bin counts the elements that fall in it. -/
theorem getD_foldl_tally {α : Type} (bin : α → Nat) (l : List α) {h : List Nat} {j : Nat} (hj : j < h.length) :
    (l.foldl (tally bin) h).getD j 0 = h.getD j 0 + l.countP (fun p => decide (bin p = j)) := by
  induction l generalizing h with
  | nil => rfl
  | cons p l ih =>
    rw [List.foldl_cons, ih (by rwa [length_tally]), getD_tally bin p hj, List.countP_cons]
    simp only [decide_eq_true_eq]
    omega

theorem clampI_eq_max_min {lo hi : Int} (h : lo ≤ hi) (v : Int) : clampI lo hi v = max lo (min hi v) := by
  unfold clampI
  split
  · omega
  · split <;> omega

/-- The bin of a pixel, before it is taken as a number of a scratch word. -/
def histLevel (k : RunCtx) (a c : Nat) (p : WinPixel) : Int := clampI 0 63 ((p.v - k.e.r a) / 2 ^ ((k.e.rw c).toNat % 16))

/-- The bins of the unmarked pixels of the window. -/
def histBins (k : RunCtx) (a c : Nat) : List Nat :=
  (k.window.filter (fun p => !p.marked)).foldl (tally (fun p => (histLevel k a c p).toNat)) (List.replicate 64 0)

theorem histLevel_toNat_eq (k : RunCtx) (a c : Nat) (p : WinPixel) (j : Nat) : (histLevel k a c p).toNat = j ↔ histLevel k a c p = j := by
  have : 0 ≤ histLevel k a c p := by
    rw [histLevel, clampI_eq_max_min (by decide)]
    exact Int.le_max_left _ _
  omega

theorem histBins_getD (k : RunCtx) (a c : Nat) {j : Nat} (hj : j < 64) :
    (histBins k a c).getD j 0 = (k.window.filter (fun p => !p.marked && decide (histLevel k a c p = j))).length := by
  rw [histBins, getD_foldl_tally _ _ (by simpa using hj), List.countP_filter, ← List.countP_eq_length_filter]
  simp only [histLevel_toNat_eq, Bool.and_comm]
  rw [List.getD_eq_getElem?_getD, List.getElem?_replicate_of_lt hj, Option.getD_some, Nat.zero_add]

/-- Words written in turn are a run of words. -/
theorem foldl_setMemWord_range' (f : Nat → Word) (s : State) (a i n : Nat) :
    (List.range' i n).foldl (fun u j => u.setMemWord (a + 4 * j) (f j)) s = setMemWords s (a + 4 * i) ((List.range' i n).map f) := by
  induction n generalizing s i with
  | zero => rfl
  | succ n ih => exact ih _ (i + 1)

/-- A run of words changes the windows only. -/
theorem setMemWords_mem_only (s : State) (a : Nat) (ws : List Word) : ∃ m, setMemWords s a ws = { s with mem := m } := by
  induction ws generalizing s a with
  | nil => exact ⟨s.mem, rfl⟩
  | cons w ws ih => exact (ih (s.setMemWord a w) (a + 4)).imp fun _ hm => hm.trans rfl

theorem byte_withMem (s t : State) (a : Nat) : State.byte { s with mem := t.mem } a = t.byte a := rfl

theorem memWord_withMem (s t : State) (a : Nat) : State.memWord { s with mem := t.mem } a = t.memWord a := rfl

theorem withMem_eq_self (s : State) (m : List Host.Cell) : { s with mem := m } = { s with mem := State.mem { s with mem := m } } := rfl

theorem scratchAddr_eq_add (n o : Nat) : scratchAddr n o = scratchAddr n 0 + o := rfl

/-- The 64 scratch words of a histogram. -/
def histWords (k : RunCtx) (a c : Nat) : List Word := (List.range 64).map (fun j => BitVec.ofNat 32 ((histBins k a c).getD j 0))

theorem histWords_getD (k : RunCtx) (a c : Nat) {j : Nat} (hj : j < 64) :
    (histWords k a c).getD j 0 = BitVec.ofNat 32 (k.window.filter (fun p => !p.marked && decide (histLevel k a c p = j))).length := by
  rw [← histBins_getD k a c hj]
  simp [histWords, hj]

/-- The state in which HIST has written its words. -/
def histogrammed (s : State) (st : EngStep) (x : Sheaf) (b : Binding) (a c : Nat) : State :=
  setMemWords (stepped s st x) (scratchAddr st.engine 0) (histWords (runCtx s st x b) a c)

theorem histogrammed_eq_foldl (s : State) (st : EngStep) (x : Sheaf) (b : Binding) (a c : Nat) :
    histogrammed s st x b a c = (List.range 64).foldl (fun u j => u.setMemWord (scratchAddr st.engine (4 * j))
      (BitVec.ofNat 32 ((histBins (runCtx s st x b) a c).getD j 0))) (stepped s st x) := by
  simp only [scratchAddr_eq_add st.engine (4 * _)]
  rw [List.range_eq_range', foldl_setMemWord_range', ← List.range_eq_range']
  rfl

section
variable {s : State} {st : EngStep} {slot : Nat} {x : Sheaf} {b : Binding}

theorem exec_asterHist {a c : Nat} (hf : Fetches s st slot x b (isR 0x23 0 a c 0))
    (hb : (s.engine st.engine).cycles + (68 + 2 * (runCtx s st x b).segments) ≤ b.budget) :
    exec (.asterHist st a c) s = .next { ran s st x (68 + 2 * (runCtx s st x b).segments) (s.engine st.engine).next with
      mem := (histogrammed s st x b a c).mem } := by
  have hgo : exec (.asterHist st a c) s = .next (runOutcome s st slot x (68 + 2 * (runCtx s st x b).segments)
      (.go (histogrammed s st x b a c) (s.engine st.engine).next)) := by
    rw [histogrammed_eq_foldl]
    exact congrArg Host.Outcome.next (aster_fetched hf hb)
  obtain ⟨m, hm⟩ := setMemWords_mem_only (stepped s st x) (scratchAddr st.engine 0) (histWords (runCtx s st x b) a c)
  rw [hgo, histogrammed, hm]
  rfl

theorem asterHist_counts {a c : Nat} (hf : Fetches s st slot x b (isR 0x23 0 a c 0))
    (hb : (s.engine st.engine).cycles + (68 + 2 * (runCtx s st x b).segments) ≤ b.budget) :
    ∃ t, exec (.asterHist st a c) s = .next t ∧
      (∀ j, j < 64 → t.memWord (scratchAddr st.engine (4 * j)) = BitVec.ofNat 32 ((runCtx s st x b).window.filter (fun p =>
        !p.marked && decide (histLevel (runCtx s st x b) a c p = j))).length) ∧
      BytesKept s t (scratchAddr st.engine 0) 256 ∧
      t = { ran s st x (68 + 2 * (runCtx s st x b).segments) (s.engine st.engine).next with mem := t.mem } := by
  have hlen : (histWords (runCtx s st x b) a c).length = 64 := by simp [histWords]
  refine ⟨_, exec_asterHist hf hb, fun j hj => ?_, fun y hy => ?_, withMem_eq_self _ _⟩
  · rw [← histWords_getD _ a c hj, scratchAddr_eq_add]
    have hread := memWord_setMemWords (stepped s st x) (scratchAddr st.engine 0) (histWords (runCtx s st x b) a c) (hlen.symm ▸ hj)
    exact (memWord_withMem _ _ _).trans hread
  · exact (byte_withMem _ _ _).trans (bytesKept_setMemWords _ _ _ y (by rwa [hlen]))

/-! ### Control (R211, R213, R231) -/

/-- The conditions of Table 8-4 in the order of their codes; what is past the list is the marker flag. -/
theorem condHolds_eq_getD (cond : Nat) (a c : Int) (m : Bool) :
    condHolds cond a c m =
      [true, decide (a = c), decide (a ≠ c), decide (a < c), decide (c ≤ a), decide (c < a), decide (a ≤ c)].getD cond m := by
  match cond with
  | 0 | 1 | 2 | 3 | 4 | 5 | 6 => rfl
  | n + 7 => simp [condHolds]

theorem asterBr_taken {cond a c target : Nat} (hf : Fetches s st slot x b (isB cond a c target))
    (hcond : condHolds cond ((s.engine st.engine).r a) ((s.engine st.engine).r c) (s.engine st.engine).m = true)
    (hb : (s.engine st.engine).cycles + 2 ≤ b.budget) :
    exec (.asterBr st cond a c target) s = .next (ran s st x 2 { s.engine st.engine with idx := target }) :=
  congrArg Host.Outcome.next (aster_ran hf (if_pos hcond) hb (congrArg (EngOut.go _) (if_pos hcond)))

theorem asterBr_notTaken {cond a c target : Nat} (hf : Fetches s st slot x b (isB cond a c target))
    (hcond : condHolds cond ((s.engine st.engine).r a) ((s.engine st.engine).r c) (s.engine st.engine).m = false)
    (hb : (s.engine st.engine).cycles + 1 ≤ b.budget) :
    exec (.asterBr st cond a c target) s = .next (ran s st x 1 (s.engine st.engine).next) := by
  have hnot := Bool.eq_false_iff.1 hcond
  exact congrArg Host.Outcome.next (aster_ran hf (if_neg hnot) hb (congrArg (EngOut.go _) (if_neg hnot)))

theorem asterFeat_sets {k a : Nat} (hf : Fetches s st slot x b (isR 0x32 0 a 0 k)) (hb : (s.engine st.engine).cycles + 1 ≤ b.budget) :
    exec (.asterFeat st k a) s = .next (ran s st x 1 { (s.engine st.engine).next with
      feats := (s.engine st.engine).feats.set k ((s.engine st.engine).rw a) }) :=
  congrArg Host.Outcome.next (aster_ran hf rfl hb rfl)

/-- VERD ends the run with status OK and its class, from the instruction or from register a. -/
theorem asterVerd_ends {verdict a sel cls klass : Nat} (hf : Fetches s st slot x b (isV verdict a sel cls))
    (hb : (s.engine st.engine).cycles + 1 ≤ b.budget)
    (hclass : (if sel = 1 then (clampI 0 0xFE ((s.engine st.engine).r a)).toNat else cls) = klass) :
    exec (.asterVerd st verdict a sel cls) s = .next ((stepped s st x).endRun st.engine slot
      ⟨0, verdict, klass, (s.engine st.engine).feats, (s.engine st.engine).cycles + 1, st.engine⟩) := by
  subst hclass
  exact congrArg Host.Outcome.next (aster_fetched hf hb)

end

/-- Settles O45: each instruction is the shared step of a run with the effect of its own lemma; HIST counts its bins by an induction over
the window's pixels. -/
theorem asterImageAndControl : Obligations.AsterImageAndControl := by
  rintro s st slot x b e rfl
  refine ⟨fun a c => asterWin_lines, fun a c => asterWin_columns, fun a c => asterWin_box,
    fun d a c hf hb => ⟨fun v => asterPix_unmarked hf hb, asterPix_marked hf hb⟩, ?_, ?_, fun cond a c target hf => ?_,
    fun k a => asterFeat_sets, fun verdict a cls hb => ⟨fun hf => asterVerd_ends hf hb rfl, fun hf => asterVerd_ends hf hb ?_⟩⟩
  · rintro d a mode k rfl
    exact asterRed_reduces
  · rintro a c k rfl
    exact asterHist_counts
  · rw [← condHolds_eq_getD]
    exact ⟨asterBr_taken hf, asterBr_notTaken hf⟩
  · rw [if_pos rfl, clampI_eq_max_min (by decide)]

end Sys2Proof.Proofs
end

section
/-!
The arithmetic, bitwise, immediate, load and store instructions of an Aster run (R213, R214, Table 8-3), each the shared step of a run with
one register or one scratch word written, and the endings of a run by its budget, an offset and an uncorrectable data word (Table 8-7).
-/
namespace Sys2Proof.Proofs

open Sys2Proof.Machine Sys2Proof.Safety Sys2Proof.Laws

section
variable {s : State} {st : EngStep} {slot : Nat} {x : Sheaf} {b : Binding} {is : Nat → Bool}

/-! ### A register is written (R211, R213) -/

theorem asterReg_writes {cost d : Nat} {f : Engine → Int} (hf : Fetches s st slot x b is) (hb : (s.engine st.engine).cycles + cost ≤ b.budget) :
    Host.Outcome.next (φ := Fault) (ρ := Refusal) (s.asterReg st is cost d f) =
      .next (ran s st x cost ((s.engine st.engine).set d (f (s.engine st.engine))).next) :=
  congrArg Host.Outcome.next (aster_ran hf rfl hb rfl)

theorem asterBits_writes {d : Nat} {f : Engine → Word} (hf : Fetches s st slot x b is) (hb : (s.engine st.engine).cycles + 1 ≤ b.budget) :
    Host.Outcome.next (φ := Fault) (ρ := Refusal) (s.asterBits st is d f) =
      .next (ran s st x 1 ((s.engine st.engine).setW d (f (s.engine st.engine))).next) :=
  congrArg Host.Outcome.next (aster_ran hf rfl hb rfl)

/-! ### The budget (R231, Table 8-7) -/

/-- An instruction that is fetched ends the run with status BUDGET when its cost would exceed the budget, whatever it would do. -/
theorem aster_overBudget {cost : RunCtx → Nat} {f : State → RunCtx → EngOut} (hf : Fetches s st slot x b is)
    (hb : b.budget < (s.engine st.engine).cycles + cost (runCtx s st x b)) :
    s.aster st is cost f = (stepped s st x).endRun st.engine slot (RunEnd.bad 2 (s.engine st.engine).cycles st.engine) := by
  obtain ⟨hengine, hrunning, hslot, hx, hbound, hword, hfault, hboth⟩ := hf
  have hready : ¬ (16 ≤ st.engine ∨ s.engState st.engine ≠ 1) := by omega
  unfold State.aster
  simp only [hready, hslot, hx, hbound, hword, hfault, hboth, Bool.not_true, Bool.false_eq_true, if_false]
  exact if_pos hb

end

/-- DIV in the powers of two of Table 8-3. -/
theorem divide_eq (p q : Int) :
    divide p q = if q = 0 then (if 0 < p then 2 ^ 31 - 1 else if p < 0 then -2 ^ 31 else 0) else satS32 (rheS p q) := rfl

/-- Settles O43: each instruction is the shared step of a run that writes one register, and a cost above the budget ends any of them. -/
theorem asterArithmetic : Obligations.AsterArithmetic := by
  rintro s st slot x b e rfl
  exact ⟨fun _ _ _ => asterReg_writes, fun _ _ _ => asterReg_writes, fun _ _ _ => asterReg_writes, fun _ _ _ _ => asterReg_writes,
    fun d a c hf hb => by rw [← divide_eq]; exact asterReg_writes hf hb, fun _ _ _ => asterReg_writes, fun _ _ _ => asterReg_writes,
    fun _ _ _ => asterReg_writes, fun _ _ _ => asterReg_writes, fun _ _ _ => asterReg_writes, fun _ _ _ => asterBits_writes,
    fun _ _ _ => asterBits_writes, fun _ _ _ => asterBits_writes, fun _ _ => asterReg_writes, fun _ _ => asterReg_writes,
    fun _ _ _ hf hb => congrArg Host.Outcome.next (aster_overBudget hf hb)⟩

/-! ### Offsets (R214, R221) -/

theorem asterOffset_of_fits {a : Int} {imm n bound o : Nat} (ho : (o : Int) = a + immS imm) (hlt : o < bound) (hn : o % n = 0) :
    asterOffset a imm n bound = some o := by
  have haligned : (o : Int) % n = 0 := by exact_mod_cast hn
  unfold asterOffset
  rw [← ho]
  exact if_pos ⟨Int.natCast_nonneg o, Int.ofNat_lt.2 hlt, haligned⟩

theorem asterOffset_of_misfits {a : Int} {imm n bound : Nat}
    (h : a + immS imm < 0 ∨ (bound : Int) ≤ a + immS imm ∨ (a + immS imm) % n ≠ 0) : asterOffset a imm n bound = none := by
  refine if_neg fun ⟨hlo, hhi, hn⟩ => ?_
  obtain hneg | hbig | hodd := h
  · exact absurd hlo (Int.not_le.2 hneg)
  · exact absurd hhi (Int.not_lt.2 hbig)
  · exact hodd hn

/-! ### Loads and stores (R214, R219, R221) -/

section
variable {s : State} {st : EngStep} {slot : Nat} {x : Sheaf} {b : Binding} {d a imm o : Nat}

/-- An instruction that is fetched within its budget and ends the run by a status keeps the cycles of the instructions before it. -/
theorem aster_stops {is : Nat → Bool} {cost : RunCtx → Nat} {f : State → RunCtx → EngOut} {status : Nat} (hf : Fetches s st slot x b is)
    (hb : (s.engine st.engine).cycles + cost (runCtx s st x b) ≤ b.budget) (hstop : f (stepped s st x) (runCtx s st x b) = .stop status) :
    s.aster st is cost f = (stepped s st x).endRun st.engine slot (RunEnd.bad status (s.engine st.engine).cycles st.engine) := by
  rw [aster_fetched hf hb, hstop]
  rfl

theorem memHalfS_eq (s : State) (a : Nat) :
    s.memHalfS a = (BitVec.ofNat 16 ((s.byte a).toNat + (s.byte (a + 1)).toNat * 256)).toInt := by
  rw [State.memHalfS, State.memH, Nat.mul_comm]

theorem asterLdw_loads (ho : asterOffset ((s.engine st.engine).r a) imm 4 b.dlen = some o) (hgood : st.dataBad = false)
    (hf : Fetches s st slot x b (isI 0x18 d a imm)) (hb : (s.engine st.engine).cycles + 4 ≤ b.budget) :
    exec (.asterLdw st d a imm) s =
      .next (ran s st x 4 ((s.engine st.engine).setW d (s.memWord (dataAddr (b.dbase + o)))).next) := by
  refine congrArg Host.Outcome.next (aster_ran hf rfl hb ?_)
  dsimp only [runCtx]
  rw [ho, hgood]
  rfl

theorem asterLdh_loads (ho : asterOffset ((s.engine st.engine).r a) imm 2 b.dlen = some o) (hgood : st.dataBad = false)
    (hf : Fetches s st slot x b (isI 0x19 d a imm)) (hb : (s.engine st.engine).cycles + 4 ≤ b.budget) :
    exec (.asterLdh st d a imm) s =
      .next (ran s st x 4 ((s.engine st.engine).set d (s.memHalfS (dataAddr (b.dbase + o)))).next) := by
  refine congrArg Host.Outcome.next (aster_ran hf rfl hb ?_)
  dsimp only [runCtx]
  rw [ho, hgood]
  rfl

theorem asterLds_loads (ho : asterOffset ((s.engine st.engine).r a) imm 4 4096 = some o)
    (hf : Fetches s st slot x b (isI 0x1A d a imm)) (hb : (s.engine st.engine).cycles + 2 ≤ b.budget) :
    exec (.asterLds st d a imm) s =
      .next (ran s st x 2 ((s.engine st.engine).setW d (s.memWord (scratchAddr st.engine o))).next) := by
  refine congrArg Host.Outcome.next (aster_ran hf rfl hb ?_)
  dsimp only [runCtx]
  rw [ho]
  rfl

theorem asterSts_stores (ho : asterOffset ((s.engine st.engine).r a) imm 4 4096 = some o)
    (hf : Fetches s st slot x b (isI 0x1B d a imm)) (hb : (s.engine st.engine).cycles + 2 ≤ b.budget) :
    exec (.asterSts st d a imm) s =
      .next ((ran s st x 2 (s.engine st.engine).next).setMemWord (scratchAddr st.engine o) ((s.engine st.engine).rw d)) := by
  refine congrArg Host.Outcome.next ((aster_fetched hf hb).trans ?_)
  dsimp only [runCtx]
  rw [ho]
  rfl

theorem asterLdw_addrFault (ho : asterOffset ((s.engine st.engine).r a) imm 4 b.dlen = none)
    (hf : Fetches s st slot x b (isI 0x18 d a imm)) (hb : (s.engine st.engine).cycles + 4 ≤ b.budget) :
    exec (.asterLdw st d a imm) s =
      .next ((stepped s st x).endRun st.engine slot (RunEnd.bad 3 (s.engine st.engine).cycles st.engine)) := by
  refine congrArg Host.Outcome.next (aster_stops hf hb ?_)
  dsimp only [runCtx]
  rw [ho]

theorem asterLdw_memFault (ho : asterOffset ((s.engine st.engine).r a) imm 4 b.dlen ≠ none) (hbad : st.dataBad = true)
    (hf : Fetches s st slot x b (isI 0x18 d a imm)) (hb : (s.engine st.engine).cycles + 4 ≤ b.budget) :
    exec (.asterLdw st d a imm) s =
      .next ((stepped s st x).endRun st.engine slot (RunEnd.bad 4 (s.engine st.engine).cycles st.engine)) := by
  obtain ⟨o, ho⟩ := Option.ne_none_iff_exists'.1 ho
  refine congrArg Host.Outcome.next (aster_stops hf hb ?_)
  dsimp only [runCtx]
  rw [ho]
  exact if_pos hbad

end

/-- Settles O44: an immediate is one register written; a load or a store turns on whether its offset fits (`asterOffset_of_fits`). -/
theorem asterImmediatesAndMemory : Obligations.AsterImmediatesAndMemory := by
  rintro s st slot x b e rfl
  refine ⟨fun _ _ _ => asterReg_writes, fun _ _ => asterReg_writes, fun _ _ => asterBits_writes, fun _ _ _ => asterBits_writes,
    fun _ _ _ => asterReg_writes, fun _ _ _ => asterReg_writes, fun _ _ _ => asterReg_writes, fun d a imm o ho hlt hgood => ?_,
    fun d a imm o ho hlt hn => ?_, fun d a imm hf hb => ?_⟩
  · refine ⟨fun hf hb hn => asterLdw_loads (asterOffset_of_fits ho hlt hn) hgood hf hb, fun hf hb hn => ?_⟩
    rw [← memHalfS_eq]
    exact asterLdh_loads (asterOffset_of_fits ho hlt hn) hgood hf hb
  · exact ⟨asterLds_loads (asterOffset_of_fits ho hlt hn), asterSts_stores (asterOffset_of_fits ho hlt hn)⟩
  · exact ⟨fun h => asterLdw_addrFault (asterOffset_of_misfits h) hf hb, fun ho hbad => asterLdw_memFault ho hbad hf hb⟩

end Sys2Proof.Proofs
end

section
/-!
The host's words in Aster memory (R219, R220, R228, Table 8-6) and its writes of AST_SLOTn_PROG (R223, R224, R227).
-/
namespace Sys2Proof.Proofs

open Sys2Proof.Machine Sys2Proof.Safety Sys2Proof.Laws

/-! ### Words of Aster memory (R220, R228) -/

/-- A word that a host frame put at two addresses. -/
def twoCopies (s : State) (a b : Nat) (w : Word) : State := ((s.setMemWord a w).setMemWord b w).applied

section
variable {s : State} {a b : Nat} {w : Word}

theorem memWord_twoCopies_first (h : a + 4 ≤ b) : (twoCopies s a b w).memWord a = w := by
  have hbelow : ((s.setMemWord a w).setMemWord b w).memWord a = (s.setMemWord a w).memWord a :=
    memWord_congr fun i hi => byte_setMemWord_out (.inl (by omega))
  exact hbelow.trans (memWord_setMemWord_self s a w)

theorem memWord_twoCopies_second : (twoCopies s a b w).memWord b = w := memWord_setMemWord_self (s.setMemWord a w) b w

theorem regs_twoCopies : (twoCopies s a b w).regs = s.regs := rfl

theorem byte_twoCopies_out {c : Nat} (ha : c < a ∨ a + 4 ≤ c) (hb : c < b ∨ b + 4 ≤ c) : (twoCopies s a b w).byte c = s.byte c :=
  (byte_setMemWord_out (s := s.setMemWord a w) hb).trans (byte_setMemWord_out ha)

end

section
variable {s : State} {o : Nat} {w : Word}

theorem hostAsterWord_program (ho : o < 0x20000) (hfree : s.areaLocked (o / 0x1000) = false) :
    s.hostAsterWord (asterBase + o) w = some ((s.setMemWord (asterBase + o) w).setMemWord (asterBase + o + 0x20000) w) := by
  unfold State.hostAsterWord
  rw [Nat.add_sub_cancel_left]
  exact (if_pos ho).trans (if_neg (by simp [hfree]))

theorem hostAsterWord_data (hlo : 0x50000 ≤ o) (hhi : o < 0x200000) :
    s.hostAsterWord (asterBase + o) w = some (s.setMemWord (asterBase + o) w) := by
  unfold State.hostAsterWord
  rw [Nat.add_sub_cancel_left]
  exact (if_neg (by omega)).trans ((if_neg (by omega)).trans (if_pos hhi))

/-- A locked area, copy 1 and scratch take no word of the host. -/
theorem hostAsterWord_barred (h : o < 0x20000 ∧ s.areaLocked (o / 0x1000) = true ∨ 0x20000 ≤ o ∧ o < 0x50000) :
    s.hostAsterWord (asterBase + o) w = none := by
  unfold State.hostAsterWord
  rw [Nat.add_sub_cancel_left]
  obtain ⟨ho, hlocked⟩ | ⟨hlo, hhi⟩ := h
  · exact (if_pos ho).trans (if_pos hlocked)
  · exact (if_neg (by omega)).trans (if_pos hhi)

theorem exec_asterMemoryWrite (ho : o < 0x200000) :
    exec (.asterMemoryWrite (asterBase + o) [w]) s = .next (s.host (asterBase + o) (s.hostAsterWord (asterBase + o) w)) := by
  have hwindow : asterBase ≤ asterBase + o ∧ asterBase + o < asterBase + 0x200000 := by omega
  exact congrArg Host.Outcome.next ((if_pos hwindow).trans (hostFrame_singleton s _ State.hostAsterWord w))

variable (hreach : s.reaches (asterBase + o) = true)
include hreach

theorem asterMemoryWrite_program (ho : o < 0x20000) (hfree : s.areaLocked (o / 0x1000) = false) :
    ∃ t, exec (.asterMemoryWrite (asterBase + o) [w]) s = .next t ∧ t.memWord (asterBase + o) = w ∧
      t.memWord (asterBase + o + 0x20000) = w ∧ t.regs = s.regs ∧
      (∀ a, a < asterBase + o ∨ asterBase + o + 4 ≤ a → a < asterBase + o + 0x20000 ∨ asterBase + o + 0x20004 ≤ a →
        t.byte a = s.byte a) :=
  ⟨_, (exec_asterMemoryWrite (by omega)).trans
      (congrArg Host.Outcome.next ((congrArg _ (hostAsterWord_program ho hfree)).trans (host_some hreach))),
    memWord_twoCopies_first (by omega), memWord_twoCopies_second, regs_twoCopies,
    fun _ hcopy0 hcopy1 => byte_twoCopies_out hcopy0 (by omega)⟩

theorem asterMemoryWrite_data (hlo : 0x50000 ≤ o) (hhi : o < 0x200000) :
    ∃ t, exec (.asterMemoryWrite (asterBase + o) [w]) s = .next t ∧ t.memWord (asterBase + o) = w ∧ t.regs = s.regs ∧
      BytesKept s t (asterBase + o) 4 :=
  ⟨_, (exec_asterMemoryWrite hhi).trans (congrArg Host.Outcome.next ((congrArg _ (hostAsterWord_data hlo hhi)).trans (host_some hreach))),
    memWord_setMemWord_self s _ w, rfl, bytesKept_setMemWord s _ w⟩

theorem asterMemoryWrite_refused (h : o < 0x20000 ∧ s.areaLocked (o / 0x1000) = true ∨ 0x20000 ≤ o ∧ o < 0x50000) :
    exec (.asterMemoryWrite (asterBase + o) [w]) s = .next (s.refuse (asterBase + o)) :=
  (exec_asterMemoryWrite (by omega)).trans
    (congrArg Host.Outcome.next ((congrArg _ (hostAsterWord_barred h)).trans (host_none hreach)))

end

/-! ### The pending word of a slot (R227, Table 8-6) -/

/-- The register row of AST_SLOTn_PROG: AREA and LEN. -/
def slotProgRow : RegRow := ⟨0x140100, [(0x10, 16)], [⟨0, 5, .rws, 0x0, []⟩, ⟨8, 11, .rws, 0x0, [(0x0, 0x400)]⟩]⟩

theorem regRow_slotProg {n : Nat} (hn : n < 16) : regRow (Reg.AST_SLOT_PROG n) = some slotProgRow := by
  revert n
  decide

theorem setFlagOf_slotProg {n : Nat} (hn : n < 16) : setFlagOf (Reg.AST_SLOT_PROG n) = some Reg.AST_STATUS_SET_PENDING := by
  revert n
  decide

theorem slotProgRow_merge_len (old : Word) (v : Nat) : bits (slotProgRow.merge old.toNat v % 2 ^ 32) 8 11 = bits v 8 11 := by
  have hold := old.isLt
  simp only [slotProgRow, RegRow.merge, List.foldl_cons, List.foldl_nil, bits_eq, reduceCtorEq, or_true, if_true]
  omega

theorem slotProgRow_merge_area (old : Word) (v : Nat) : bits (slotProgRow.merge old.toNat v % 2 ^ 32) 0 5 = bits v 0 5 := by
  have hold := old.isLt
  simp only [slotProgRow, RegRow.merge, List.foldl_cons, List.foldl_nil, bits_eq, reduceCtorEq, or_true, if_true]
  omega

/-- The word of slot n as it waits after a write of v. -/
def slotPended (s : State) (n v : Nat) : State :=
  { s with
    shadow := Map.insert s.shadow (Reg.AST_SLOT_PROG n)
      (BitVec.ofNat 32 (slotProgRow.merge (s.pendingWord (Reg.AST_SLOT_PROG n)).toNat v)) }

theorem pend_slotProg (s : State) {n : Nat} (hn : n < 16) (v : Nat) :
    s.pend (Reg.AST_SLOT_PROG n) v = (slotPended s n v).put Reg.AST_STATUS_SET_PENDING 1 := by
  unfold State.pend
  rw [setFlagOf_slotProg hn, regRow_slotProg hn]
  rfl

theorem pendingWord_slotPended (s : State) (n v : Nat) :
    ((slotPended s n v).put Reg.AST_STATUS_SET_PENDING 1).pendingWord (Reg.AST_SLOT_PROG n) =
      BitVec.ofNat 32 (slotProgRow.merge (s.pendingWord (Reg.AST_SLOT_PROG n)).toNat v) := by
  unfold State.pendingWord
  rw [put_shadow, slotPended, find_insert_self]
  rfl

/-! ### AST_SLOTn_PROG (R223, R224, R227) -/

section
variable {s : State} {n v : Nat} (hn : n < 16) (hreach : s.reaches (Reg.AST_SLOT_PROG n) = true)
include hn hreach

theorem slotProgWrite_pends (hpass : s.slotCheck n v = 0) :
    ∃ t, exec (.slotProgWrite n v) s = .next t ∧
      t.pendGet (Reg.AST_SLOT_PROG_LEN n) = bits v (Reg.AST_SLOT_PROG_LEN n).lo (Reg.AST_SLOT_PROG_LEN n).width ∧
      t.pendGet (Reg.AST_SLOT_PROG_AREA n) = bits v (Reg.AST_SLOT_PROG_AREA n).lo (Reg.AST_SLOT_PROG_AREA n).width ∧
      t.get Reg.AST_STATUS_SET_PENDING = 1 ∧ RegsKept s t [Reg.AST_STATUS] ∧ t.mem = s.mem := by
  have hnote : s.noteCheck n v = s := if_pos hpass
  have hexec : exec (.slotProgWrite n v) s = .next ((slotPended s n v).put Reg.AST_STATUS_SET_PENDING 1).applied := by
    refine congrArg Host.Outcome.next ((if_pos hn).trans ?_)
    dsimp only
    rw [if_pos hreach, hnote, State.hostSlotProg, if_pos hpass, pend_slotProg s hn, host_some hreach]
  have hpending := pendingWord_slotPended s n v
  refine ⟨_, hexec, ?_, ?_, get_put_self (slotPended s n v) _ 1 (by decide), ?_, rfl⟩
  · exact (congrArg (Reg.AST_SLOT_PROG_LEN n).of hpending).trans (slotProgRow_merge_len _ v)
  · exact (congrArg (Reg.AST_SLOT_PROG_AREA n).of hpending).trans (slotProgRow_merge_area _ v)
  · exact regsKept_putField (slotPended s n v) Reg.AST_STATUS_SET_PENDING 1

theorem slotProgWrite_refused (hfail : s.slotCheck n v ≠ 0) :
    exec (.slotProgWrite n v) s = .next ((s.put Reg.AST_STATUS_LAST_CHECK (s.slotCheck n v)).refuse (Reg.AST_SLOT_PROG n)) := by
  have hnote : s.noteCheck n v = s.put Reg.AST_STATUS_LAST_CHECK (s.slotCheck n v) := if_neg hfail
  have hstill : (s.put Reg.AST_STATUS_LAST_CHECK (s.slotCheck n v)).hostSlotProg n v = none := if_neg hfail
  refine congrArg Host.Outcome.next ((if_pos hn).trans ?_)
  dsimp only
  rw [if_pos hreach, hnote, hstill]
  exact host_none (s := s.put Reg.AST_STATUS_LAST_CHECK (s.slotCheck n v)) hreach

end

/-- Settles O47: a word is judged by the part of the window that it falls in, and a slot write by the check of its program. -/
theorem asterMemoryAndSlotsOfTheHost : Obligations.AsterMemoryAndSlotsOfTheHost :=
  ⟨fun _ _ _ hreach => ⟨fun ho _ hfree => asterMemoryWrite_program hreach ho hfree, asterMemoryWrite_data hreach,
      asterMemoryWrite_refused hreach⟩,
    fun _ _ _ hn hreach => ⟨slotProgWrite_pends hn hreach, slotProgWrite_refused hn hreach⟩⟩

end Sys2Proof.Proofs
end

section
/-!
Why the deadline clauses of `Obligations.EnginesRunTheQueuedSheaves` do not hold of every state. They ask that the slot's entry shows the
outcome, and assume of the sheaf store only that this one entry stands under the slot it names. A sheaf that ends with disposition eject is
planned at once, and a gate that merges into another owner's pull-in writes that owner's plan, too (R246): where the other owner's entry
names the slot of the sheaf just ended, it is put in its place.
-/
namespace Sys2Proof.Proofs

open Sys2Proof.Machine Sys2Proof.Safety Sys2Proof.Laws

/-! ### Entries of a map -/

theorem mem_of_find {α : Type} {m : Map α} {k : Nat} {v : α} (h : Map.find m k = some v) : (k, v) ∈ m := by
  induction m with
  | nil => simp [Map.find] at h
  | cons e m ih =>
    obtain ⟨j, w⟩ := e
    unfold Map.find at h
    split at h
    next hj =>
      obtain rfl := Option.some.inj h
      exact hj ▸ List.mem_cons_self
    · exact List.mem_cons_of_mem _ (ih h)

theorem mem_of_mem_insert {α : Type} {m : Map α} {k : Nat} {v : α} {e : Nat × α} (h : e ∈ Map.insert m k v) : e = (k, v) ∨ e ∈ m := by
  induction m with
  | nil => exact .inl (List.mem_singleton.1 h)
  | cons d m ih =>
    obtain ⟨j, w⟩ := d
    unfold Map.insert at h
    split at h
    · exact List.mem_cons.1 h
    · split at h
      · exact (List.mem_cons.1 h).imp_right (List.mem_cons_of_mem _)
      · obtain rfl | htail := List.mem_cons.1 h
        · exact .inr List.mem_cons_self
        · exact (ih htail).imp_right (List.mem_cons_of_mem _)

/-! ### A store in which every sheaf is queued and none has an outcome -/

/-- Every entry of the sheaf store is QUEUED, with status 0. -/
def AllQueued (s : State) : Prop := ∀ e ∈ s.trk.sheaves, e.2.state = 3 ∧ e.2.status = 0

theorem allQueued_sheaf {s : State} (h : AllQueued s) {o : Nat} {x : Sheaf} (hx : s.sheaf o = some x) : x.state = 3 ∧ x.status = 0 :=
  h _ (mem_of_find (Option.eq_some_of_filter_eq_some hx))

theorem onPlan_of_sheaf {s : State} {o : Nat} {x : Sheaf} (ho : o < fastBase) (hx : s.sheaf o = some x) (f : Plan → Plan) :
    s.onPlan o f = s.putSheaf { x with plan := f x.plan } := by
  unfold State.onPlan State.onSheaf
  rw [if_pos ho, hx]

theorem allQueued_onPlan {s : State} (h : AllQueued s) (o : Nat) (f : Plan → Plan) : AllQueued (s.onPlan o f) := by
  unfold State.onPlan State.onSheaf
  split
  · split
    next x hx =>
      have hqueued := allQueued_sheaf h hx
      intro e he
      obtain rfl | he := mem_of_mem_insert he
      · exact hqueued
      · exact h e he
    · exact h
  · split
    · exact h
    · exact h

theorem allQueued_onEntries {s : State} (h : AllQueued s) (os : List (Nat × Nat)) (f : PlanEntry → PlanEntry) :
    AllQueued (s.onEntries os f) := by
  induction os generalizing s with
  | nil => exact h
  | cons o os ih => exact ih (allQueued_onPlan h o.1 _)

theorem allQueued_markEntries {s : State} (h : AllQueued s) (os : List (Nat × Nat)) (k : Nat) : AllQueued (s.markEntries os k) :=
  allQueued_onEntries h os _

theorem allQueued_hotHold {s : State} (h : AllQueued s) (o : Nat × Nat) (b : Bool) : AllQueued (s.hotHold o b) := by
  unfold State.hotHold
  split
  · exact allQueued_markEntries h [o] _
  · exact h

/-- A plan of a sheaf that is still queued does not close. -/
theorem closePlan_of_allQueued {s : State} (h : AllQueued s) {o : Nat} (ho : o < fastBase) : s.closePlan o = s := by
  unfold State.closePlan
  split
  · rfl
  next p hp =>
    split
    · rfl
    · refine if_neg fun hstate => ?_
      obtain ⟨x, hx, hejected⟩ := Option.map_eq_some_iff.1 hstate
      have := (allQueued_sheaf h hx).1
      omega

/-! ### What an outcome with default disposition eject plans (R231, R245) -/

/-- The outcome of a run that ended without a verdict stands in the sheaf of a slot, and the sheaf is to be ejected. -/
def outcomeEjects (s : State) (slot : Nat) (x : Sheaf) (r : RunEnd) : State :=
  (((s.putSheaf { x with
    verdict := r.verdict, disp := 1, klass := r.klass, status := r.status, cycles := r.cycles, feats := r.feats, engine := r.engine,
    tOutcome := s.now, state := 5 }).disarm (Timer.deadline slot)).countOutcome x r).queueUpdate

theorem outcome_of_badRun {s : State} {slot : Nat} {x : Sheaf} {r : RunEnd} (hx : s.sheaf slot = some x) (hbad : r.status ≠ 0)
    (hdisp : s.get Reg.TRK_CTRL_DEFAULT_DISP = 1) : s.outcome slot r = (outcomeEjects s slot x r).makePlan slot false true := by
  have hdefault : decide (r.status ≠ 0 ∨ r.verdict = 3) = true := by simp [hbad]
  unfold State.outcome
  rw [hx]
  dsimp only
  rw [hdefault, if_pos rfl, hdisp]
  rfl

/-- The plan of an owner is dated and flagged. -/
def planDated (s : State) (o : Nat) (wide dflt : Bool) : State :=
  (s.setPair Reg.DRL_PLANS_LO (s.pair Reg.DRL_PLANS_LO + 1)).onPlan o (fun p =>
    ((({ p with tPlan := (s.setPair Reg.DRL_PLANS_LO (s.pair Reg.DRL_PLANS_LO + 1)).now }).setFlag Pl.wide wide).setFlag Pl.dflt
      dflt).setFlag Pl.truncated (if wide then p.wideCut else p.plainCut))

theorem makePlan_of_oneValve {s : State} {o v : Nat} {p : Plan} (hp : (planDated s o false true).plan o = some p) (hv : p.plain = [v])
    (hfly : p.noFlight = false) : s.makePlan o false true = ((planDated s o false true).planValve o p v).closePlan o := by
  unfold planDated at hp ⊢
  unfold State.makePlan
  dsimp only at hp ⊢
  rw [hp]
  dsimp only
  rw [hv, hfly]
  rfl

/-- A valve that can be fired in time gets an entry, and its gate is requested. -/
theorem planValve_requests {s : State} {o v : Nat} {p : Plan} (hvalve : (s.useLead v).1.valveDisabled v = false)
    (hopen : (s.useLead v).1.matrixOpen = true) (hsoon : s.nowI ≤ plannedGate p.start (s.useLead v).2.1) :
    ∃ e i, s.planValve o p v = ((s.useLead v).1.onPlan o (fun q => { q with entries := q.entries ++ [e] })).requestGate (o, i) v
      (plannedGate p.start (s.useLead v).2.1) (plannedGate p.start (s.useLead v).2.1) (plannedGate p.start (s.useLead v).2.1 + p.onNs)
      p.minOn := by
  unfold State.planValve
  dsimp only
  rw [if_neg (by simp [hvalve]), if_neg (by simp [hopen]), if_pos hsoon]
  exact ⟨_, _, rfl⟩

theorem requestGate_merges {s : State} {o : Nat × Nat} {v minOn : Nat} {gate req stop : Int} {q : PullIn} (hact : s.act v = none)
    (hq : s.mergeable v gate (1000 * (s.get Reg.DRL_BOOST_MERGE_GAP : Int)) = some q) :
    s.requestGate o v gate req stop minOn = s.mergePull q o gate req stop minOn := by
  have hnone : s.mergeableAct v gate (1000 * (s.get Reg.DRL_BOOST_MERGE_GAP : Int)) = none := by rw [State.mergeableAct, hact]; rfl
  unfold State.requestGate
  dsimp only
  rw [hnone, hq]

/-! ### The counterexample -/

/-- A queued sheaf of slot 9 whose plan names valve 0 alone, 1 s after the start of device time. -/
def queuedSheaf : Sheaf :=
  { Sheaf.fresh 9 0 none ⟨0, 0, 0, 0, 0, 0, 0, [], 0, 0, 0, 0, false, 0, 0, 0, 0, 0, 0, 0⟩ 0 0 with
    state := 3, plan := { Plan.empty with plain := [0], start := 1000000000 } }

/-- A pull-in of valve 0, requested for the plan of entry 5. -/
def strayPull : PullIn := ⟨[(5, 0)], 0, 1000000000, 1000000000, 1000000000, 0, false, 0⟩

/-- Entry 5 of the sheaf store holds a sheaf that names slot 9 and owns a pull-in; the deadline of the sheaf in slot 9 is due. -/
def strayStore : State :=
  { ((State.reset.put Reg.TRK_CTRL_DEFAULT_DISP 1).put Reg.VLV_STATUS_ENABLED 1).arm (Timer.deadline 9) 0 with
    trk := { TrkState.reset with sheaves := [(5, queuedSheaf), (9, queuedSheaf)] }
    pwr := { PwrState.reset with arm := true }
    drl := { DrlState.reset with pulls := [strayPull] } }

/-- Its deadline has come. -/
def strayDue : State := (strayStore.elapseTo 0).disarm (Timer.deadline 9)

/-- The outcome stands in slot 9, and its plan is dated. -/
def strayPlanned : State := planDated (outcomeEjects strayDue 9 queuedSheaf (RunEnd.bad 5 0 0xFF)) 9 false true

/-- The plan of the sheaf in slot 9, and where its gate falls. -/
def strayPlan : Plan := (strayPlanned.plan 9).getD Plan.empty
def strayGate : Int := plannedGate strayPlan.start (strayPlanned.useLead 0).2.1

/-- The sheaf in slot 9 when its gate is requested. -/
def endedSheaf : Sheaf := ((strayPlanned.useLead 0).1.sheaf 9).getD queuedSheaf

theorem strayDue_sheaf : strayDue.sheaf 9 = some queuedSheaf := by
  decide

theorem strayDue_ejects : strayDue.get Reg.TRK_CTRL_DEFAULT_DISP = 1 := by
  decide

theorem strayPlanned_plan : strayPlanned.plan 9 = some strayPlan ∧ strayPlan.plain = [0] ∧ strayPlan.noFlight = false := by
  decide

theorem strayPlanned_opens : (strayPlanned.useLead 0).1.valveDisabled 0 = false ∧ (strayPlanned.useLead 0).1.matrixOpen = true ∧
    strayPlanned.nowI ≤ strayGate := by
  decide

theorem strayPlanned_merges : (strayPlanned.useLead 0).1.act 0 = none ∧
    (strayPlanned.useLead 0).1.mergeable 0 strayGate (1000 * ((strayPlanned.useLead 0).1.get Reg.DRL_BOOST_MERGE_GAP : Int)) =
      some strayPull := by
  decide

theorem strayPlanned_sheaves : (strayPlanned.useLead 0).1.trk.sheaves = [(5, queuedSheaf), (9, endedSheaf)] ∧
    endedSheaf.slot = 9 ∧ endedSheaf.state ≠ 0 := by
  decide

/-- The stray entry's plan is written to slot 9, over the sheaf that stood there. -/
theorem allQueued_onPlan_stray {s : State} {y : Sheaf} (hs : s.trk.sheaves = [(5, queuedSheaf), (9, y)]) (f : Plan → Plan) :
    AllQueued (s.onPlan 5 f) := by
  have hx : s.sheaf 5 = some queuedSheaf := by rw [State.sheaf, hs]; rfl
  have hover : (s.onPlan 5 f).trk.sheaves = [(5, queuedSheaf), (9, { queuedSheaf with plan := f queuedSheaf.plan })] := by
    rw [onPlan_of_sheaf (by decide) hx, State.putSheaf, hs]
    rfl
  unfold AllQueued
  rw [hover]
  exact List.forall_mem_cons.2 ⟨⟨rfl, rfl⟩, List.forall_mem_singleton.2 ⟨rfl, rfl⟩⟩

theorem allQueued_onEntries_stray {s : State} {y : Sheaf} (hs : s.trk.sheaves = [(5, queuedSheaf), (9, y)]) (o : Nat × Nat)
    (f : PlanEntry → PlanEntry) : AllQueued (s.onEntries (strayPull.owners ++ [o]) f) :=
  allQueued_onEntries (allQueued_onPlan_stray hs _) [o] f

theorem allQueued_mergePull_stray {s : State} {y : Sheaf} (hs : s.trk.sheaves = [(5, queuedSheaf), (9, y)]) (o : Nat × Nat)
    (gate req stop : Int) (minOn : Nat) : AllQueued (s.mergePull strayPull o gate req stop minOn) := by
  unfold State.mergePull
  dsimp only
  refine allQueued_hotHold (allQueued_markEntries ?_ _ _) _ _
  exact allQueued_onEntries_stray (s := s.putPull _) hs o _

theorem allQueued_requestGate_stray {s : State} {y : Sheaf} {o : Nat × Nat} {gate req stop : Int} {minOn : Nat}
    (hs : s.trk.sheaves = [(5, queuedSheaf), (9, y)]) (hact : s.act 0 = none)
    (hmerge : s.mergeable 0 gate (1000 * (s.get Reg.DRL_BOOST_MERGE_GAP : Int)) = some strayPull) :
    AllQueued (s.requestGate o 0 gate req stop minOn) := by
  rw [requestGate_merges hact hmerge]
  exact allQueued_mergePull_stray hs o gate req stop minOn

/-- Planning valve 0 for the sheaf in slot 9 merges its gate into the stray entry's pull-in. -/
theorem allQueued_planValve_stray {s : State} {p : Plan} {y : Sheaf} (hsheaves : (s.useLead 0).1.trk.sheaves = [(5, queuedSheaf), (9, y)])
    (hslot : y.slot = 9) (hlive : y.state ≠ 0) (hvalve : (s.useLead 0).1.valveDisabled 0 = false)
    (hopen : (s.useLead 0).1.matrixOpen = true) (hsoon : s.nowI ≤ plannedGate p.start (s.useLead 0).2.1)
    (hact : (s.useLead 0).1.act 0 = none)
    (hmerge : (s.useLead 0).1.mergeable 0 (plannedGate p.start (s.useLead 0).2.1)
      (1000 * ((s.useLead 0).1.get Reg.DRL_BOOST_MERGE_GAP : Int)) = some strayPull) : AllQueued (s.planValve 9 p 0) := by
  obtain ⟨e, i, hrequest⟩ := planValve_requests (o := 9) hvalve hopen hsoon
  have hsheaf : (s.useLead 0).1.sheaf 9 = some y := by
    rw [State.sheaf, hsheaves]
    exact Option.filter_some_pos (by simpa using hlive)
  rw [hrequest, onPlan_of_sheaf (by decide) hsheaf]
  refine allQueued_requestGate_stray (y := { y with plan := { y.plan with entries := y.plan.entries ++ [e] } }) ?_ hact hmerge
  rw [State.putSheaf, hsheaves, hslot]
  rfl

/-- After its deadline the sheaf of slot 9 stands there no more: the stray entry does, still queued. -/
theorem allQueued_outcome_stray : AllQueued (strayDue.outcome 9 (RunEnd.bad 5 0 0xFF)) := by
  obtain ⟨hplan, hone, hfly⟩ := strayPlanned_plan
  obtain ⟨hvalve, hopen, hsoon⟩ := strayPlanned_opens
  obtain ⟨hact, hmerge⟩ := strayPlanned_merges
  obtain ⟨hsheaves, hslot, hlive⟩ := strayPlanned_sheaves
  have hplanned : AllQueued (strayPlanned.planValve 9 strayPlan 0) :=
    allQueued_planValve_stray hsheaves hslot hlive hvalve hopen hsoon hact hmerge
  have houtcome : strayDue.outcome 9 (RunEnd.bad 5 0 0xFF) = (strayPlanned.planValve 9 strayPlan 0).closePlan 9 :=
    (outcome_of_badRun strayDue_sheaf (by decide) strayDue_ejects).trans (makePlan_of_oneValve hplan hone hfly)
  rw [houtcome, closePlan_of_allQueued hplanned (by decide)]
  exact hplanned

/-- Refutes O46, in its clause on the deadline of a queued sheaf: in `strayStore` the deadline of slot 9 comes, and slot 9 then holds the stray
entry with status 0, not the sheaf that ended with status DEADLINE. -/
theorem not_enginesRunTheQueuedSheaves : ¬ Obligations.EnginesRunTheQueuedSheaves := by
  rintro ⟨-, -, -, hdeadline, -, -⟩
  obtain ⟨t, -, ht, hended⟩ := (hdeadline strayStore 9 0 queuedSheaf (by decide) rfl).1 rfl
  obtain ⟨y, hy, hstatus, -⟩ := hended rfl
  have hqueued : y.state = 3 ∧ y.status = 0 := allQueued_sheaf (ht ▸ allQueued_outcome_stray) hy
  omega

end Sys2Proof.Proofs
end

section
/-!
Why the fault clause of `Obligations.FaultsDisableTheirParts` does not hold of every state. It asks that nothing of the time differs but the
w ticks that pass before the readings, and the timers are part of the time. Telling a fault emits VALVE_FAULT (R280), and the first event
that waits for region 4 of an archiving drive starts the timer within which it is written.
-/
namespace Sys2Proof.Proofs

open Sys2Proof.Machine Sys2Proof.Safety Sys2Proof.Laws

/-- The state in which an open AUX channel is told: the profile runs on (Table 10-7). -/
def auxOpenTold (s : State) (index code : Nat) : State :=
  ({ s with vlv := { s.vlv with auxCode := s.vlv.auxCode.set index code } } : State).faultTold 0x0D 3 index

theorem exec_valveFault_auxOpen {s : State} {w index c1 c2 : Nat} (hmet : (s.elapse w).faultMet 0x0D index c1 c2 = true) :
    exec (.valveFault w 0x0D index (c1, c2)) s = .next (auxOpenTold (s.elapse w) index c2) := by
  change execValveFault w 0x0D index (c1, c2) s = _
  unfold execValveFault auxOpenTold State.auxFaulted
  rw [if_pos hmet, if_neg (by decide), if_neg (by decide), if_pos rfl]

/-- A part that runs, whose drive is archiving with region 4 in use and no event yet; AUX1 is in HOLD with a profile of OPEN_MA 100. -/
def archivingHold : State :=
  { ((State.reset.put Reg.NVH_STATUS_ARCHIVING 1).put (Reg.NVH_R_SIZE_SIZE_LOG2 4) 20) with
    cfg := { CfgState.reset with stage := .running }
    vlv := { VlvState.reset with aux := [none, some ⟨2, [0, 0, 0, 0, 0, 100], true, 0, 0, none⟩] } }

/-- Two samples of 0 mA show AUX_OPEN on AUX1. -/
theorem archivingHold_faultMet : (archivingHold.elapse 0).faultMet 0x0D 1 0 0 = true := by decide +kernel

/-- The timer of the event log's write does not run before the fault is told, and it runs after. -/
theorem archivingHold_eventWrite : (archivingHold.elapse 0).due Timer.eventWrite = none ∧
    (auxOpenTold (archivingHold.elapse 0) 1 0).due Timer.eventWrite ≠ none := by decide +kernel

/-- Refutes O52, in its clause on a fault that is met: the time is not that after the w ticks where the event of the fault starts the timer of
the event log's write; `archivingHold` shows it with AUX_OPEN. -/
theorem not_faultsDisableTheirParts : ¬ Obligations.FaultsDisableTheirParts := by
  unfold Obligations.FaultsDisableTheirParts
  rintro ⟨-, faults, -, -⟩
  have hnoActs : ∀ b ∈ archivingHold.vlv.acts, b.valve < 1024 := fun _ h => absurd h List.not_mem_nil
  obtain ⟨t, hexec, htime, -⟩ := (faults archivingHold 0 0x0D 1 0 0 _ rfl).2 archivingHold_faultMet hnoActs
  have ht : auxOpenTold (archivingHold.elapse 0) 1 0 = t :=
    Host.Outcome.next.inj ((exec_valveFault_auxOpen archivingHold_faultMet).symm.trans hexec)
  obtain ⟨hbefore, hafter⟩ := archivingHold_eventWrite
  have hdue : t.due Timer.eventWrite = none := (congrArg (fun x : TimeState => Map.find x.timers Timer.eventWrite) htime).trans hbefore
  exact hafter (ht ▸ hdue)

end Sys2Proof.Proofs
end
